-- ==== Sys2Proof/Config.lean ====
section
/-! DEFINITION. What the spec leaves open or to outside parties, as constants without a body: no proof
can see their values. The capacities of spec/01_package.md R14 that bound the model's queues stand here
too. -/

namespace Sys2Proof.Config

/-- The n-th free value: a choice that the spec leaves open (log entry 5). -/
opaque freeValue : Nat → Nat

/-- The XMSS public key that the package derives from its PUF seed (spec/19_host.md R393; RFC 8391). -/
opaque xmssPublicKey : BitVec 768 → List Byte

/-- The XMSS signature with a leaf over a report body (spec/19_host.md R394). -/
opaque xmssSign : BitVec 768 → Nat → List Byte → List Byte

/-- An XMSS signature over a message verifies under a public key (spec/19_host.md R390; RFC 8391, SP 800-208). -/
opaque xmssVerify : List Byte → List Byte → List Byte → Bool

/-- The digest of Mbonto's public key in the mask ROM (spec/19_host.md R390). -/
opaque romKeyDigest : List Byte

/-- The key that flash and package share from manufacture (spec/19_host.md R392). -/
opaque flashKey : List Byte

/-- The nearest results of the exponential and logarithm functions where the model's interval
arithmetic does not decide the rounding (log entry 12). -/
opaque vfnTie : Nat → Nat → Bool

/-- Entries of the vector queue of a core (spec/01_package.md R14). -/
def vectorQueue : Nat := 32
/-- Entries of the matrix command queue and of the format queue (R14). -/
def matrixQueue : Nat := 16
/-- Entries of the copy queue (R14). -/
def copyQueue : Nat := 16
/-- Most tokens a FIFO holds (spec/05_strand.md R88). -/
def fifoDepth : Nat := 15
/-- Outstanding memory requests of a core (R14; spec/05_strand.md R86). -/
def requests : Nat := 1536
/-- Cores of the package, of a die and of a cluster (R13, R14). -/
def cores : Nat := 512
def coresPerDie : Nat := 128
def coresPerCluster : Nat := 8
/-- HBM of the package in bytes: 16 stacks of 64 GB (R14). -/
def hbmBytes : Nat := 1024000000000
/-- Weight store in bytes (R14). -/
def weightBytes : Nat := 12288000000000

end Sys2Proof.Config
end

