-- ==== Sys2Proof/Syntax.lean ====
section
/-! DEFINITION. The syntax of the Crelek C48: one constructor for every row of the opcode table.
The Hexosh instructions carry the fields of their words (spec/02_encoding.md R25 to R39), the port
sequencer's words the fields of R379 (spec/18_link.md), and an event or host operation the data
that comes with it from outside the step. -/

namespace Sys2Proof

/-- The bits [31:25] that every first word carries (spec/02_encoding.md R25). -/
structure Pre where
  /-- wait for a token from the previous engine -/
  wp : Bool
  /-- wait for a token from the next engine -/
  wn : Bool
  /-- push a token to the previous engine -/
  sp : Bool
  /-- push a token to the next engine -/
  sn : Bool
  /-- the sync bit -/
  sy : Bool
  /-- the stage guard -/
  g : BitVec 2
  deriving DecidableEq, Repr

/-- The window through which a register access comes (spec/19_host.md R384, R385). -/
inductive Via
  | host
  | guest (world : BitVec 8)
  deriving DecidableEq, Repr

/-- An IEEE 1588 message as it reaches the package (spec/19_host.md R388, R389). -/
inductive PtpMsg
  /-- Sync; its arrival time is the package time of the step. -/
  | sync (port master seq : Nat)
  /-- Follow_Up, with the master's time of the Sync. -/
  | followUp (port master seq t1 : Nat)
  /-- Delay_Resp, with the master's time of the Delay_Req's arrival. -/
  | delayResp (port master seq t4 : Nat)
  /-- Announce, with the data set the best master clock algorithm compares. -/
  | announce (port master priority1 clockClass accuracy variance priority2 identity steps : Nat)
  deriving DecidableEq, Repr

/-- The fields of a TRAIN flit (spec/18_link.md R370). -/
structure TrainMsg where
  trate : BitVec 2
  tseq : BitVec 8
  txset : BitVec 16
  rxset : BitVec 16
  usea : BitVec 16
  useb : BitVec 16
  pid : BitVec 64
  deriving DecidableEq, Repr

/-- A firmware image of the serial flash (spec/19_host.md R390, R392): the length and the version of its header, its bytes, and
the public key and the signature that come with it. -/
structure Image where
  length : Nat
  version : BitVec 32
  bytes : List Byte
  key : List Byte
  signature : List Byte
  deriving DecidableEq, Repr

/-- Every row of the opcode table. -/
inductive Instr
  /-- `BPREP` (R96). -/
  | bprep (pre : Pre) (b : BitVec 3) (o : BitVec 15)
  /-- `BPREPI` (R97). -/
  | bprepi (pre : Pre) (b a : BitVec 6)
  /-- `BPREPI_META` (R97). -/
  | bprepiMeta (pre : Pre) (b a : BitVec 6)
  /-- `BGET` (R98). -/
  | bget (pre : Pre) (d b : BitVec 6)
  /-- `BGET_META` (R98). -/
  | bgetMeta (pre : Pre) (d b : BitVec 6)
  /-- `BINV` (R99). -/
  | binv (pre : Pre) (b : BitVec 3)
  /-- `JMP` (R100). -/
  | jmp (pre : Pre) (b : BitVec 3) (p : BitVec 4) (e : BitVec 1)
  /-- `CALL` (R100). -/
  | call (pre : Pre) (b : BitVec 3) (p : BitVec 4) (e : BitVec 1)
  /-- `LSETUP_REG` (R106). -/
  | lsetupReg (pre : Pre) (r : BitVec 1) (e : BitVec 2) (a : BitVec 6)
  /-- `LSETUP_IMM` (R106). -/
  | lsetupImm (pre : Pre) (r : BitVec 1) (e : BitVec 2) (i : BitVec 12)
  /-- `LCLOSE` (R107). -/
  | lclose (pre : Pre)
  /-- `LBREAK` (R108). -/
  | lbreak (pre : Pre) (p : BitVec 4) (e : BitVec 1)
  /-- `NOP` (R110). -/
  | nop (pre : Pre)
  /-- `IFENCE` (R101). -/
  | ifence (pre : Pre)
  /-- `SDONE` (R111). -/
  | sdone (pre : Pre)
  /-- `TRAP` (R344). -/
  | trap (pre : Pre) (n : BitVec 6)
  /-- `BRK` (R344). -/
  | brk (pre : Pre) (n : BitVec 6)
  /-- `ERET` (R345). -/
  | eret (pre : Pre)
  /-- `SYSRD` (R346). -/
  | sysrd (pre : Pre) (d r : BitVec 6)
  /-- `SYSWR` (R346). -/
  | syswr (pre : Pre) (r a : BitVec 6)
  /-- `PCRD` (R347). -/
  | pcrd (pre : Pre) (d : BitVec 6) (c : BitVec 1) (i : BitVec 4)
  /-- `YIELD` (R348). -/
  | yield (pre : Pre) (d : BitVec 6)
  /-- `ADD` (R115). -/
  | add (pre : Pre) (d a b : BitVec 6)
  /-- `SUB` (R115). -/
  | sub (pre : Pre) (d a b : BitVec 6)
  /-- `MUL` (R115). -/
  | mul (pre : Pre) (d a b : BitVec 6)
  /-- `MULH` (R115). -/
  | mulh (pre : Pre) (d a b : BitVec 6)
  /-- `MULHU` (R115). -/
  | mulhu (pre : Pre) (d a b : BitVec 6)
  /-- `MIN` (R115). -/
  | min (pre : Pre) (d a b : BitVec 6)
  /-- `MAX` (R115). -/
  | max (pre : Pre) (d a b : BitVec 6)
  /-- `MINU` (R115). -/
  | minu (pre : Pre) (d a b : BitVec 6)
  /-- `MAXU` (R115). -/
  | maxu (pre : Pre) (d a b : BitVec 6)
  /-- `AND` (R115). -/
  | and (pre : Pre) (d a b : BitVec 6)
  /-- `OR` (R115). -/
  | or (pre : Pre) (d a b : BitVec 6)
  /-- `XOR` (R115). -/
  | xor (pre : Pre) (d a b : BitVec 6)
  /-- `ANDN` (R115). -/
  | andn (pre : Pre) (d a b : BitVec 6)
  /-- `ORN` (R115). -/
  | orn (pre : Pre) (d a b : BitVec 6)
  /-- `SLL` (R115). -/
  | sll (pre : Pre) (d a b : BitVec 6)
  /-- `SRL` (R115). -/
  | srl (pre : Pre) (d a b : BitVec 6)
  /-- `SRA` (R115). -/
  | sra (pre : Pre) (d a b : BitVec 6)
  /-- `ROTR` (R115). -/
  | rotr (pre : Pre) (d a b : BitVec 6)
  /-- `ADDI` (R116). -/
  | addi (pre : Pre) (d a i : BitVec 6)
  /-- `SLLI` (R116). -/
  | slli (pre : Pre) (d a i : BitVec 6)
  /-- `SRLI` (R116). -/
  | srli (pre : Pre) (d a i : BitVec 6)
  /-- `SRAI` (R116). -/
  | srai (pre : Pre) (d a i : BitVec 6)
  /-- `CLZ` (R117). -/
  | clz (pre : Pre) (d a : BitVec 6)
  /-- `CTZ` (R117). -/
  | ctz (pre : Pre) (d a : BitVec 6)
  /-- `POPC` (R117). -/
  | popc (pre : Pre) (d a : BitVec 6)
  /-- `SEXT_B` (R117). -/
  | sextB (pre : Pre) (d a : BitVec 6)
  /-- `SEXT_H` (R117). -/
  | sextH (pre : Pre) (d a : BitVec 6)
  /-- `SEXT_W` (R117). -/
  | sextW (pre : Pre) (d a : BitVec 6)
  /-- `ZEXT_B` (R117). -/
  | zextB (pre : Pre) (d a : BitVec 6)
  /-- `ZEXT_H` (R117). -/
  | zextH (pre : Pre) (d a : BitVec 6)
  /-- `ZEXT_W` (R117). -/
  | zextW (pre : Pre) (d a : BitVec 6)
  /-- `PGET` (R127). -/
  | pget (pre : Pre) (d : BitVec 6)
  /-- `PSET` (R127). -/
  | pset (pre : Pre) (a : BitVec 6)
  /-- `MOVI` (R118). -/
  | movi (pre : Pre) (d : BitVec 6) (i : BitVec 12)
  /-- `MOVHI` (R119). -/
  | movhi (pre : Pre) (d : BitVec 6) (i : BitVec 12)
  /-- `CMP` (R125). -/
  | cmp (pre : Pre) (c : BitVec 2) (p : BitVec 4) (a b : BitVec 6)
  /-- `CMP_UNSIGNED_TEST` (R125). -/
  | cmpUnsignedTest (pre : Pre) (c : BitVec 2) (p : BitVec 4) (a b : BitVec 6)
  /-- `CMPI` (R125). -/
  | cmpi (pre : Pre) (c : BitVec 2) (p : BitVec 4) (a i : BitVec 6)
  /-- `CMPI_UNSIGNED_TEST` (R125). -/
  | cmpiUnsignedTest (pre : Pre) (c : BitVec 2) (p : BitVec 4) (a i : BitVec 6)
  /-- `PAND` (R126). -/
  | pand (pre : Pre) (p : BitVec 4) (a b : BitVec 6)
  /-- `POR` (R126). -/
  | por (pre : Pre) (p : BitVec 4) (a b : BitVec 6)
  /-- `PXOR` (R126). -/
  | pxor (pre : Pre) (p : BitVec 4) (a b : BitVec 6)
  /-- `PANDN` (R126). -/
  | pandn (pre : Pre) (p : BitVec 4) (a b : BitVec 6)
  /-- `LEA` (R124). -/
  | lea (pre : Pre) (d b x : BitVec 6) (sc : BitVec 2) (disp : BitVec 20)
  /-- `DIV` (R121). -/
  | div (pre : Pre) (d a b : BitVec 6)
  /-- `DIVU` (R121). -/
  | divu (pre : Pre) (d a b : BitVec 6)
  /-- `REM` (R121). -/
  | rem (pre : Pre) (d a b : BitVec 6)
  /-- `REMU` (R121). -/
  | remu (pre : Pre) (d a b : BitVec 6)
  /-- `SEL` (R122). -/
  | sel (pre : Pre) (d a b : BitVec 6) (p : BitVec 4) (e : BitVec 1)
  /-- `BFX` (R123). -/
  | bfx (pre : Pre) (d a pos wm : BitVec 6)
  /-- `BFX_S` (R123). -/
  | bfxS (pre : Pre) (d a pos wm : BitVec 6)
  /-- `BFI` (R123). -/
  | bfi (pre : Pre) (d a b pos wm : BitVec 6)
  /-- `LDLIT` (R120). -/
  | ldlit (pre : Pre) (d : BitVec 6) (i : BitVec 12)
  /-- `VADD` (R137). -/
  | vadd (pre : Pre) (d a b : BitVec 6)
  /-- `VSUB` (R137). -/
  | vsub (pre : Pre) (d a b : BitVec 6)
  /-- `VMUL` (R137). -/
  | vmul (pre : Pre) (d a b : BitVec 6)
  /-- `VFMA` (R137). -/
  | vfma (pre : Pre) (d a b : BitVec 6)
  /-- `VFMS` (R137). -/
  | vfms (pre : Pre) (d a b : BitVec 6)
  /-- `VFNMA` (R137). -/
  | vfnma (pre : Pre) (d a b : BitVec 6)
  /-- `VMIN` (R137). -/
  | vmin (pre : Pre) (d a b : BitVec 6)
  /-- `VMAX` (R137). -/
  | vmax (pre : Pre) (d a b : BitVec 6)
  /-- `VAND` (R137). -/
  | vand (pre : Pre) (d a b : BitVec 6)
  /-- `VOR` (R137). -/
  | vor (pre : Pre) (d a b : BitVec 6)
  /-- `VXOR` (R137). -/
  | vxor (pre : Pre) (d a b : BitVec 6)
  /-- `VSLL` (R137). -/
  | vsll (pre : Pre) (d a b : BitVec 6)
  /-- `VSRL` (R137). -/
  | vsrl (pre : Pre) (d a b : BitVec 6)
  /-- `VSRA` (R137). -/
  | vsra (pre : Pre) (d a b : BitVec 6)
  /-- `VCMP` (R139). -/
  | vcmp (pre : Pre) (c : BitVec 2) (m : BitVec 3) (a b : BitVec 6)
  /-- `VSEL` (R140). -/
  | vsel (pre : Pre) (d a b : BitVec 6) (m : BitVec 3)
  /-- `VCVT_TO` (R141). -/
  | vcvtTo (pre : Pre) (d a : BitVec 6) (f : BitVec 4)
  /-- `VCVT_FROM` (R141). -/
  | vcvtFrom (pre : Pre) (d a : BitVec 6) (f : BitVec 4)
  /-- `VPACK` (R143). -/
  | vpack (pre : Pre) (d a : BitVec 6) (n : BitVec 2)
  /-- `VUNPACK` (R143). -/
  | vunpack (pre : Pre) (d a : BitVec 6) (n : BitVec 2)
  /-- `VMOV` (R144). -/
  | vmov (pre : Pre) (d a : BitVec 6)
  /-- `VSPLAT` (R144). -/
  | vsplat (pre : Pre) (d a : BitVec 6)
  /-- `VEXT` (R145). -/
  | vext (pre : Pre) (d a b : BitVec 6)
  /-- `VINS` (R145). -/
  | vins (pre : Pre) (d a b : BitVec 6)
  /-- `VPERM` (R146). -/
  | vperm (pre : Pre) (d a b : BitVec 6)
  /-- `VTRN` (R147). -/
  | vtrn (pre : Pre) (d a : BitVec 6) (n : BitVec 2)
  /-- `VRED_SUM` (R148). -/
  | vredSum (pre : Pre) (d a : BitVec 6)
  /-- `VRED_MAX` (R148). -/
  | vredMax (pre : Pre) (d a : BitVec 6)
  /-- `VRED_MIN` (R148). -/
  | vredMin (pre : Pre) (d a : BitVec 6)
  /-- `VRED_AND` (R148). -/
  | vredAnd (pre : Pre) (d a : BitVec 6)
  /-- `VRED_OR` (R148). -/
  | vredOr (pre : Pre) (d a : BitVec 6)
  /-- `VSCAN_SUM` (R148). -/
  | vscanSum (pre : Pre) (d a : BitVec 6)
  /-- `VSCAN_MAX` (R148). -/
  | vscanMax (pre : Pre) (d a : BitVec 6)
  /-- `VSCAN_MIN` (R148). -/
  | vscanMin (pre : Pre) (d a : BitVec 6)
  /-- `VSCAN_AND` (R148). -/
  | vscanAnd (pre : Pre) (d a : BitVec 6)
  /-- `VSCAN_OR` (R148). -/
  | vscanOr (pre : Pre) (d a : BitVec 6)
  /-- `VFN_EXP2` (R149). -/
  | vfnExp2 (pre : Pre) (d a : BitVec 6)
  /-- `VFN_LOG2` (R149). -/
  | vfnLog2 (pre : Pre) (d a : BitVec 6)
  /-- `VFN_RCP` (R149). -/
  | vfnRcp (pre : Pre) (d a : BitVec 6)
  /-- `VFN_RSQRT` (R149). -/
  | vfnRsqrt (pre : Pre) (d a : BitVec 6)
  /-- `VFN_SQRT` (R149). -/
  | vfnSqrt (pre : Pre) (d a : BitVec 6)
  /-- `MAND` (R150). -/
  | mand (pre : Pre) (d a : BitVec 6) (b : BitVec 3)
  /-- `MOR` (R150). -/
  | mor (pre : Pre) (d a : BitVec 6) (b : BitVec 3)
  /-- `MNOT` (R150). -/
  | mnot (pre : Pre) (d a : BitVec 6)
  /-- `MPOPC` (R150). -/
  | mpopc (pre : Pre) (d a : BitVec 6)
  /-- `MFIRST` (R150). -/
  | mfirst (pre : Pre) (d a : BitVec 6)
  /-- `VCFG` (R151). -/
  | vcfg (pre : Pre) (d a : BitVec 6) (s : BitVec 5)
  /-- `VLD_S_ONE_WORD` (R152). -/
  | vldSOneWord (pre : Pre) (d b : BitVec 6) (e : BitVec 4)
  /-- `VLD_S_TWO_WORD` (R152). -/
  | vldSTwoWord (pre : Pre) (d b x : BitVec 6) (sc : BitVec 2) (disp : BitVec 20)
  /-- `VST_S_ONE_WORD` (R152). -/
  | vstSOneWord (pre : Pre) (d b : BitVec 6) (e : BitVec 4)
  /-- `VST_S_TWO_WORD` (R152). -/
  | vstSTwoWord (pre : Pre) (d b x : BitVec 6) (sc : BitVec 2) (disp : BitVec 20)
  /-- `VGATH_S` (R153). -/
  | vgathS (pre : Pre) (d a b : BitVec 6)
  /-- `VSCAT_S` (R153). -/
  | vscatS (pre : Pre) (d a b : BitVec 6)
  /-- `FPUSH` (R157). -/
  | fpush (pre : Pre) (a : BitVec 6)
  /-- `TSTAT` (R166). -/
  | tstat (pre : Pre) (d : BitVec 6)
  /-- `TSTAT_CLR` (R166). -/
  | tstatClr (pre : Pre) (d a : BitVec 6)
  /-- `TCFG` (R170). -/
  | tcfg (pre : Pre) (d a : BitVec 6) (ws wc ss sc : BitVec 4)
  /-- `WLOAD` (R171). -/
  | wload (pre : Pre) (d a b : BitVec 6) (ws wc ss sc : BitVec 4) (st : BitVec 10)
  /-- `WSWAP` (R172). -/
  | wswap (pre : Pre) (d : BitVec 6) (ws wc ss sc : BitVec 4)
  /-- `TMMA` (R173). -/
  | tmma (pre : Pre) (d a b : BitVec 6) (ws wc ss sc : BitVec 4) (st : BitVec 10)
  /-- `TMMA_Z` (R173). -/
  | tmmaZ (pre : Pre) (d a b : BitVec 6) (ws wc ss sc : BitVec 4) (st : BitVec 10)
  /-- `TZERO` (R174). -/
  | tzero (pre : Pre) (d : BitVec 6) (ws wc ss sc : BitVec 4)
  /-- `TNORM` (R174). -/
  | tnorm (pre : Pre) (d : BitVec 6) (ws wc ss sc : BitVec 4)
  /-- `TDRAIN` (R175). -/
  | tdrain (pre : Pre) (d a : BitVec 6) (ws wc ss sc : BitVec 4) (st : BitVec 10) (z : BitVec 1)
  /-- `LD_S_ONE_WORD` (R202). -/
  | ldSOneWord (pre : Pre) (d b : BitVec 6) (e : BitVec 4)
  /-- `LD_S_TWO_WORD` (R202). -/
  | ldSTwoWord (pre : Pre) (d b : BitVec 6) (sz : BitVec 2) (x : BitVec 6) (sc : BitVec 2) (disp : BitVec 20)
  /-- `ST_S_ONE_WORD` (R202). -/
  | stSOneWord (pre : Pre) (d b : BitVec 6) (e : BitVec 4)
  /-- `ST_S_TWO_WORD` (R202). -/
  | stSTwoWord (pre : Pre) (d b : BitVec 6) (sz : BitVec 2) (x : BitVec 6) (sc : BitVec 2) (disp : BitVec 20)
  /-- `LD_H_ONE_WORD` (R202). -/
  | ldHOneWord (pre : Pre) (d b : BitVec 6) (r : BitVec 2) (e : BitVec 4)
  /-- `LD_H_TWO_WORD` (R202). -/
  | ldHTwoWord (pre : Pre) (d b : BitVec 6) (r sz : BitVec 2) (x : BitVec 6) (sc : BitVec 2) (disp : BitVec 20)
  /-- `ST_H_ONE_WORD` (R202). -/
  | stHOneWord (pre : Pre) (d b : BitVec 6) (r : BitVec 2) (e : BitVec 4)
  /-- `ST_H_TWO_WORD` (R202). -/
  | stHTwoWord (pre : Pre) (d b : BitVec 6) (r sz : BitVec 2) (x : BitVec 6) (sc : BitVec 2) (disp : BitVec 20)
  /-- `LD_P_ONE_WORD` (R202). -/
  | ldPOneWord (pre : Pre) (d : BitVec 6) (o : BitVec 2) (c : BitVec 4) (r : BitVec 2) (e : BitVec 4)
  /-- `LD_P_TWO_WORD` (R202). -/
  | ldPTwoWord (pre : Pre) (d : BitVec 6) (o : BitVec 2) (c : BitVec 4) (r sz : BitVec 2) (x : BitVec 6) (sc : BitVec 2) (disp : BitVec 20)
  /-- `ST_P_ONE_WORD` (R202). -/
  | stPOneWord (pre : Pre) (d : BitVec 6) (o : BitVec 2) (c : BitVec 4) (r : BitVec 2) (e : BitVec 4)
  /-- `ST_P_TWO_WORD` (R202). -/
  | stPTwoWord (pre : Pre) (d : BitVec 6) (o : BitVec 2) (c : BitVec 4) (r sz : BitVec 2) (x : BitVec 6) (sc : BitVec 2) (disp : BitVec 20)
  /-- `LD_W_ONE_WORD` (R202). -/
  | ldWOneWord (pre : Pre) (d b : BitVec 6) (r : BitVec 2) (e : BitVec 4)
  /-- `LD_W_TWO_WORD` (R202). -/
  | ldWTwoWord (pre : Pre) (d b : BitVec 6) (r sz : BitVec 2) (x : BitVec 6) (sc : BitVec 2) (disp : BitVec 20)
  /-- `AMO_S` (R204). -/
  | amoS (pre : Pre) (d a b x : BitVec 6) (sc : BitVec 2) (op : BitVec 3) (ret sz : BitVec 1) (disp : BitVec 13)
  /-- `AMO_H` (R204). -/
  | amoH (pre : Pre) (d a b x : BitVec 6) (sc : BitVec 2) (op : BitVec 3) (ret : BitVec 1) (ord : BitVec 2) (sz : BitVec 1) (disp : BitVec 13)
  /-- `AMO_P` (R204). -/
  | amoP (pre : Pre) (d a b x : BitVec 6) (sc : BitVec 2) (op : BitVec 3) (ret : BitVec 1) (ord : BitVec 2) (sz : BitVec 1) (disp : BitVec 13)
  /-- `CAS_H` (R205). -/
  | casH (pre : Pre) (d a b n x : BitVec 6) (ord : BitVec 2) (sz : BitVec 1) (disp : BitVec 13)
  /-- `CAS_P` (R205). -/
  | casP (pre : Pre) (d a b n x : BitVec 6) (ord : BitVec 2) (sz : BitVec 1) (disp : BitVec 13)
  /-- `PROBE_H` (R206). -/
  | probeH (pre : Pre) (d b : BitVec 6) (k : BitVec 2) (x : BitVec 6) (sc : BitVec 2) (disp : BitVec 20)
  /-- `PROBE_P` (R206). -/
  | probeP (pre : Pre) (d : BitVec 6) (c : BitVec 4) (k : BitVec 2) (x : BitVec 6) (sc : BitVec 2) (disp : BitVec 20)
  /-- `PF_P` (R207). -/
  | pfP (pre : Pre) (d : BitVec 6) (c : BitVec 4) (r : BitVec 2) (x : BitVec 6) (sc : BitVec 2) (disp : BitVec 20)
  /-- `CAPLD` (R183). -/
  | capld (pre : Pre) (d a : BitVec 6) (i : BitVec 12)
  /-- `CAPDERIVE` (R183). -/
  | capderive (pre : Pre) (d a xo xl : BitVec 6) (rt : BitVec 4)
  /-- `CAPINFO` (R183). -/
  | capinfo (pre : Pre) (d a : BitVec 6) (s : BitVec 2)
  /-- `COMMIT` (R225). -/
  | commit (pre : Pre)
  /-- `XFENCE` (R226). -/
  | xfence (pre : Pre)
  /-- `QFENCE` (R227). -/
  | qfence (pre : Pre) (q : BitVec 3)
  /-- `SFENCE` (R228). -/
  | sfence (pre : Pre)
  /-- `ST_CPA_ONE_WORD` (R238). -/
  | stCpaOneWord (pre : Pre) (d b : BitVec 6) (e : BitVec 4)
  /-- `ST_CPA_TWO_WORD` (R238). -/
  | stCpaTwoWord (pre : Pre) (d b x : BitVec 6) (sc : BitVec 2) (disp : BitVec 20)
  /-- `CDRAIN` (R244). -/
  | cdrain (pre : Pre) (c : BitVec 6)
  /-- `CKICK` (R244). -/
  | ckick (pre : Pre) (c a : BitVec 6)
  /-- `CLINK` (R244). -/
  | clink (pre : Pre) (c a : BitVec 6)
  /-- `CRESUME` (R244). -/
  | cresume (pre : Pre) (c a : BitVec 6)
  /-- `CSTAT` (R244). -/
  | cstat (pre : Pre) (d a : BitVec 6)
  /-- `BAR` (R264). -/
  | bar (pre : Pre) (j : BitVec 6)
  /-- `BAR_ARR` (R264). -/
  | barArr (pre : Pre) (d j : BitVec 6)
  /-- `BAR_WAIT` (R264). -/
  | barWait (pre : Pre) (a j : BitVec 6)
  /-- `BAR_EXP` (R264). -/
  | barExp (pre : Pre) (a j : BitVec 6)
  /-- `TOKPUSH` (R268). -/
  | tokpush (pre : Pre) (n : BitVec 6) (e : BitVec 2)
  /-- `TOKPOP` (R268). -/
  | tokpop (pre : Pre) (n : BitVec 6) (e : BitVec 2)
  /-- `KSIG` (R267). -/
  | ksig (pre : Pre) (k n : BitVec 6) (e : BitVec 2)
  /-- `KWAIT` (R267). -/
  | kwait (pre : Pre) (k n : BitVec 6) (e : BitVec 2)
  /-- `CNT_WAIT` (R269). -/
  | cntWait (pre : Pre) (b a : BitVec 6)
  /-- `CNT_ADD` (R269). -/
  | cntAdd (pre : Pre) (b a : BitVec 6)
  /-- `PARK` (R271). -/
  | park (pre : Pre) (k a : BitVec 6)
  /-- `FSET` (R271). -/
  | fset (pre : Pre) (b a : BitVec 6)
  /-- `GID` (R258). -/
  | gid (pre : Pre) (d s : BitVec 6)
  /-- `GSIZE` (R258). -/
  | gsize (pre : Pre) (d s : BitVec 6)
  /-- `GSPLIT` (R259). -/
  | gsplit (pre : Pre) (a : BitVec 6)
  /-- `GYIELD` (R259). -/
  | gyield (pre : Pre) (d : BitVec 6)
  /-- `GEXIT` (R259). -/
  | gexit (pre : Pre)
  /-- `QPOP` (R293). -/
  | qpop (pre : Pre) (d a : BitVec 6)
  /-- `QPUSH` (R294). -/
  | qpush (pre : Pre) (b a : BitVec 6)
  /-- `QTRY` (R293). -/
  | qtry (pre : Pre) (d a : BitVec 6)
  /-- `QCLOSE` (R295). -/
  | qclose (pre : Pre) (b a : BitVec 6)
  /-- `PID` (R296). -/
  | pid (pre : Pre) (d s : BitVec 6)
  /-- `ENQ` (R318). -/
  | enq (pre : Pre) (p : BitVec 4) (a : BitVec 6)
  /-- `RLC_RUN` (R355). -/
  | rlcRun (pre : Pre) (a : BitVec 6)
  /-- `RLC_NEXT` (R356). -/
  | rlcNext (pre : Pre) (n k : BitVec 6)
  /-- `RLC_TEST` (R357). -/
  | rlcTest (pre : Pre) (d a : BitVec 6)
  /-- `RLC_STAT` (R358). -/
  | rlcStat (pre : Pre) (d s : BitVec 6)
  /-- `RLC_END` (R359). -/
  | rlcEnd (pre : Pre)
  /-- `LNK_START` (R382). -/
  | lnkStart (pre : Pre) (d a : BitVec 6)
  /-- `LNK_STEP` (R382). -/
  | lnkStep (pre : Pre) (n a : BitVec 6)
  /-- `LNK_WAIT` (R382). -/
  | lnkWait (pre : Pre) (a : BitVec 6)
  /-- `LNK_STAT` (R382). -/
  | lnkStat (pre : Pre) (d a : BitVec 6)
  /-- `SQ_NOP`, a sequencer word (R379). -/
  | sqNop
  /-- `SQ_CFG`, a sequencer word (R380). -/
  | sqCfg (gi : BitVec 2) (f : BitVec 4) (v : BitVec 48)
  /-- `SQ_LOOP`, a sequencer word (R380). -/
  | sqLoop (k : BitVec 2) (n : BitVec 32)
  /-- `SQ_ENDL`, a sequencer word (R380). -/
  | sqEndl (k : BitVec 2) (m : BitVec 4)
  /-- `SQ_GET`, a sequencer word (R380). -/
  | sqGet (gl gr : BitVec 2) (bl br : BitVec 1) (n : BitVec 20)
  /-- `SQ_PUT`, a sequencer word (R380). -/
  | sqPut (gl gr : BitVec 2) (bl br : BitVec 1) (n : BitVec 20)
  /-- `SQ_PUTSIG`, a sequencer word (R380). -/
  | sqPutsig (gl gr : BitVec 2) (bl br : BitVec 1) (o : BitVec 24) (dec : BitVec 4) (n : BitVec 20)
  /-- `SQ_WAIT`, a sequencer word (R378). -/
  | sqWait (n : BitVec 16)
  /-- `SQ_POST`, a sequencer word (R380). -/
  | sqPost (n : BitVec 16)
  /-- `SQ_FENCE`, a sequencer word (R380). -/
  | sqFence
  /-- `SQ_EV`, a sequencer word (R380). -/
  | sqEv (v : BitVec 16)
  /-- `SQ_HALT`, a sequencer word (R378). -/
  | sqHalt
  /-- `CNT_WAIT_REREAD`, an event or a host operation (R269). -/
  | cntWaitReread (c k : Nat)
  /-- `GSPLIT_RENDEZVOUS`, an event or a host operation (R256). -/
  | gsplitRendezvous (grp : Nat)
  /-- `SEQUENCER_WAIT_END`, an event or a host operation (R378). -/
  | sequencerWaitEnd (port : Nat)
  /-- `SEQUENCER_WORD_FETCH`, an event or a host operation (R380). -/
  | sequencerWordFetch (port : Nat)
  /-- `STRAND_WAIT_SATISFIED`, an event or a host operation (R82). -/
  | strandWaitSatisfied (c k : Nat)
  /-- `SYNC_RENDEZVOUS`, an event or a host operation (R87). -/
  | syncRendezvous (c : Nat)
  /-- `FROND_GROUP_RESTART`, an event or a host operation (R289). -/
  | frondGroupRestart (grp : Nat)
  /-- `LAUNCH_END`, an event or a host operation (R308). -/
  | launchEnd (launch : Nat)
  /-- `BTR_PREFETCH_DONE`, an event or a host operation (R92). -/
  | btrPrefetchDone (c k b : Nat)
  /-- `COPY_FAULT_TAKEN`, an event or a host operation (R246). -/
  | copyFaultTaken (c k : Nat)
  /-- `INSTRUCTION_BREAKPOINT`, an event or a host operation (R341). -/
  | instructionBreakpoint (c k : Nat)
  /-- `WATCHPOINT`, an event or a host operation (R341). -/
  | watchpoint (c k : Nat)
  /-- `STRAND_STOP_TIMEOUT`, an event or a host operation (R109). -/
  | strandStopTimeout (c k : Nat)
  /-- `VECTOR_ENTRY_START`, an event or a host operation (R91). -/
  | vectorEntryStart (c first : Nat) (second : Option Nat)
  /-- `VECTOR_ENTRY_COMPLETE`, an event or a host operation (R86). -/
  | vectorEntryComplete (c k : Nat)
  /-- `MATRIX_COMMAND_START`, an event or a host operation (R159). -/
  | matrixCommandStart (c : Nat)
  /-- `MATRIX_COMMAND_COMPLETE`, an event or a host operation (R158). -/
  | matrixCommandComplete (c n : Nat)
  /-- `MATRIX_ENTRY_RETIRE`, an event or a host operation (R158). -/
  | matrixEntryRetire (c : Nat)
  /-- `COPY_QUEUE_HANDOVER`, an event or a host operation (R238). -/
  | copyQueueHandover (c : Nat)
  /-- `TRANSFER_START`, an event or a host operation (R229). -/
  | transferStart (c ch : Nat)
  /-- `TRANSFER_ELEMENT_LAND`, an event or a host operation (R233). -/
  | transferElementLand (c ch n elem : Nat)
  /-- `TRANSFER_SIGNAL`, an event or a host operation (R237). -/
  | transferSignal (c ch : Nat)
  /-- `CHAIN_ENTRY_FETCH`, an event or a host operation (R241). -/
  | chainEntryFetch (c ch : Nat)
  /-- `CHAIN_ENTRY_READY`, an event or a host operation (R241). -/
  | chainEntryReady (c ch : Nat)
  /-- `BOUNDARY_COMPLETE`, an event or a host operation (R209). -/
  | boundaryComplete (grp n : Nat)
  /-- `TASK_RETIRE`, an event or a host operation (R212). -/
  | taskRetire (grp : Nat)
  /-- `GROUP_PLACE`, an event or a host operation (R252). -/
  | groupPlace (launch : Nat) (cores : List Nat)
  /-- `GROUP_LOADED`, an event or a host operation (R252). -/
  | groupLoaded (grp : Nat)
  /-- `PREEMPTION_REQUEST`, an event or a host operation (R335). -/
  | preemptionRequest (grp : Nat) (rows : List (List Nat))
  /-- `GROUP_SAVED`, an event or a host operation (R335). -/
  | groupSaved (grp : Nat)
  /-- `GROUP_RESUME`, an event or a host operation (R340). -/
  | groupResume (grp : Nat) (cores : List Nat)
  /-- `GROUP_RETIRE`, an event or a host operation (R252). -/
  | groupRetire (grp : Nat)
  /-- `TILE_SCAN`, an event or a host operation (R163). -/
  | tileScan (c item : Nat)
  /-- `PIECE_CLAIM`, an event or a host operation (R339). -/
  | pieceClaim (c piece : Nat)
  /-- `PIECE_READBACK`, an event or a host operation (R340). -/
  | pieceReadback (grp rank : Nat)
  /-- `FROND_REBALANCE`, an event or a host operation (R288). -/
  | frondRebalance (launch : Nat)
  /-- `FEED_ITEM_ENTER`, an event or a host operation (R285). -/
  | feedItemEnter (launch : Nat)
  /-- `POWER_GOOD`, an event or a host operation (R20). -/
  | powerGood
  /-- `IDENTITY_DERIVED`, an event or a host operation (R393). -/
  | identityDerived (seed : BitVec 768)
  /-- `PUF_FAIL`, an event or a host operation (R20). -/
  | pufFail
  /-- `CONFIGURATION_LOADED`, an event or a host operation (R390). -/
  | configurationLoaded
  /-- `CONFIGURATION_FAIL`, an event or a host operation (R390). -/
  | configurationFail
  /-- `SESSION_TIMEOUT`, an event or a host operation (R20). -/
  | sessionTimeout
  /-- `PKG_CTL_DRAIN`, an event or a host operation (R20). -/
  | pkgCtlDrain (via : Via) (deadline : BitVec 32)
  /-- `PKG_CTL_RESUME`, an event or a host operation (R20). -/
  | pkgCtlResume (via : Via)
  /-- `PKG_CTL_RESET`, an event or a host operation (R20). -/
  | pkgCtlReset (via : Via)
  /-- `PKG_PWR_WRITE`, an event or a host operation (R17). -/
  | pkgPwrWrite (via : Via) (v : BitVec 64)
  /-- `DRAIN_DEADLINE`, an event or a host operation (R21). -/
  | drainDeadline
  /-- `FATAL_PACKAGE_ERROR`, an event or a host operation (R24). -/
  | fatalPackageError
  /-- `QLAUNCH_WRITE`, an event or a host operation (R300). -/
  | qlaunchWrite (via : Via) (q off : Nat) (bytes : List Byte)
  /-- `QTAIL_WRITE`, an event or a host operation (R300). -/
  | qtailWrite (via : Via) (q : Nat) (v : BitVec 64)
  /-- `QCTL_ENABLE`, an event or a host operation (R301). -/
  | qctlEnable (via : Via) (q : Nat)
  /-- `QCTL_STOP`, an event or a host operation (R301). -/
  | qctlStop (via : Via) (q : Nat)
  /-- `QCTL_DISABLE`, an event or a host operation (R301). -/
  | qctlDisable (via : Via) (q : Nat)
  /-- `QCTL_RESYNC`, an event or a host operation (R301). -/
  | qctlResync (via : Via) (q : Nat)
  /-- `QCTL_REKEYED`, an event or a host operation (R301). -/
  | qctlRekeyed (via : Via) (q : Nat)
  /-- `QDESC_WRITE`, an event or a host operation (R299). -/
  | qdescWrite (via : Via) (q word : Nat) (v : BitVec 64)
  /-- `SPORE_CONSUME`, an event or a host operation (R304). -/
  | sporeConsume (q : Nat)
  /-- `SPORE_RELEASE`, an event or a host operation (R305). -/
  | sporeRelease (q : Nat)
  /-- `CTXCTL_CREATE`, an event or a host operation (R326). -/
  | ctxctlCreate (via : Via) (ctx : Nat)
  /-- `CTXCTL_CODELOAD`, an event or a host operation (R324). -/
  | ctxctlCodeload (via : Via) (ctx : Nat)
  /-- `CODELOAD_COMPLETE`, an event or a host operation (R324). -/
  | codeloadComplete (ctx : Nat)
  /-- `CTXCTL_INVAL`, an event or a host operation (R324). -/
  | ctxctlInval (via : Via) (ctx : Nat)
  /-- `INVAL_COMPLETE`, an event or a host operation (R324). -/
  | invalComplete (ctx : Nat)
  /-- `CTXCTL_END`, an event or a host operation (R326). -/
  | ctxctlEnd (via : Via) (ctx : Nat)
  /-- `CTXCTL_BIND`, an event or a host operation (R325). -/
  | ctxctlBind (via : Via) (ctx : Nat) (world : BitVec 8)
  /-- `CTXREQ_READ`, an event or a host operation (R323). -/
  | ctxreqRead (via : Via) (ctx : Nat)
  /-- `CTXRSP_WRITE`, an event or a host operation (R334). -/
  | ctxrspWrite (via : Via) (ctx : Nat) (v : BitVec 64)
  /-- `KEYW_WRITE`, an event or a host operation (R323). -/
  | keywWrite (via : Via) (ctx : Nat) (key : BitVec 256)
  /-- `KEYQN_WRITE`, an event or a host operation (R323). -/
  | keyqnWrite (via : Via) (ctx : Nat) (v : BitVec 64)
  /-- `DCTL_HALT`, an event or a host operation (R341). -/
  | dctlHalt (via : Via) (c k : Nat) (brkh : Bool)
  /-- `DCTL_RESUME`, an event or a host operation (R341). -/
  | dctlResume (via : Via) (c k : Nat) (brkh : Bool)
  /-- `DCTL_STEP`, an event or a host operation (R341). -/
  | dctlStep (via : Via) (c k : Nat) (brkh : Bool)
  /-- `DSTATE_WRITE`, an event or a host operation (R341). -/
  | dstateWrite (via : Via) (c off : Nat) (v : BitVec 64)
  /-- `ATCTL_WRITE`, an event or a host operation (R394). -/
  | atctlWrite (via : Via) (v : BitVec 64)
  /-- `ATTESTATION_DONE`, an event or a host operation (R394). -/
  | attestationDone
  /-- `FLASH_UPDATE`, an event or a host operation (R392). -/
  | flashUpdate (recovery : Bool) (image : Image)
  /-- `REGISTER_WRITE`, an event or a host operation (R384). -/
  | registerWrite (via : Via) (off : Nat) (v : BitVec 64)
  /-- `UCIE_DOWN`, an event or a host operation (R383). -/
  | ucieDown (die : Nat)
  /-- `UCIE_UP`, an event or a host operation (R396). -/
  | ucieUp (die : Nat)
  /-- `CONFIG_READBACK_PASS`, an event or a host operation (R391). -/
  | configReadbackPass (bad : List Nat) (copyGood : Bool)
  /-- `HBM_HOURLY_COUNT`, an event or a host operation (R396). -/
  | hbmHourlyCount (stack count : Nat)
  /-- `VG_HOURLY_MEASURE`, an event or a host operation (R396). -/
  | vgHourlyMeasure (die margin : Nat)
  /-- `HBM_SCRUB`, an event or a host operation (R201). -/
  | hbmScrub (stack line : Nat) (correctable : Bool)
  /-- `LASER_BIAS_SAMPLE`, an event or a host operation (R363). -/
  | laserBiasSample (port lane : Nat) (bias : BitVec 16)
  /-- `LASER_RETIRE`, an event or a host operation (R363). -/
  | laserRetire (port : Nat) (lanes : BitVec 16)
  /-- `LASER_RET_CLEAR`, an event or a host operation (R363). -/
  | laserRetClear (via : Via) (port lane : Nat)
  /-- `PTP_MESSAGE`, an event or a host operation (R389). -/
  | ptpMessage (msg : PtpMsg)
  /-- `SYNC_MISSED`, an event or a host operation (R389). -/
  | syncMissed
  /-- `SESSION`, an event or a host operation (R367). -/
  | session (token : BitVec 64)
  /-- `READ_DATA`, an event or a host operation (R185). -/
  | readData (tag : Nat) (status : BitVec 8) (expiry : Nat) (bytes : List Byte) (poison : List Nat)
  /-- `WRITE_ACK`, an event or a host operation (R186). -/
  | writeAck (tag : Nat) (status : BitVec 8)
  /-- `ATOMIC_RESULT`, an event or a host operation (R186). -/
  | atomicResult (tag : Nat) (status : BitVec 8) (old : BitVec 64)
  /-- `RENEW_RESPONSE`, an event or a host operation (R185). -/
  | renewResponse (tag : Nat) (status : BitVec 8) (expiry : Nat)
  /-- `REVOKE`, an event or a host operation (R185). -/
  | revoke (obj : BitVec 48) (page : Nat)
  /-- `REVOKE_DRAINED`, an event or a host operation (R185). -/
  | revokeDrained (obj : BitVec 48) (page : Nat)
  /-- `LEASE_EXPIRY`, an event or a host operation (R185). -/
  | leaseExpiry (obj : BitVec 48) (page : Nat)
  /-- `LEASE_RENEWAL`, an event or a host operation (R187). -/
  | leaseRenewal (obj : BitVec 48) (page : Nat)
  /-- `FRAME_RECLAIM`, an event or a host operation (R185). -/
  | frameReclaim (obj : BitVec 48) (page : Nat)
  /-- `PREFETCH_WALK`, an event or a host operation (R189). -/
  | prefetchWalk (q : Nat)
  /-- `PUT`, an event or a host operation (R380). -/
  | put (port tag off : Nat) (world : BitVec 8) (bytes : List Byte)
  /-- `PUTSIG`, an event or a host operation (R380). -/
  | putsig (port tag off : Nat) (world : BitVec 8) (bytes : List Byte) (counter : Nat) (dec : BitVec 16)
  /-- `PUT_ACK`, an event or a host operation (R380). -/
  | putAck (tag : Nat) (status : BitVec 8)
  /-- `REMOTE_TIMEOUT`, an event or a host operation (R368). -/
  | remoteTimeout (tag : Nat)
  /-- `RETRY_BACKOFF`, an event or a host operation (R368). -/
  | retryBackoff (tag port : Nat)
  /-- `PCTL_ENABLE`, an event or a host operation (R369). -/
  | pctlEnable (via : Via) (port : Nat) (trate : BitVec 2)
  /-- `PCTL_DISABLE`, an event or a host operation (R369). -/
  | pctlDisable (via : Via) (port : Nat)
  /-- `PCTL_RETRAIN`, an event or a host operation (R369). -/
  | pctlRetrain (via : Via) (port : Nat) (trate : BitVec 2)
  /-- `PCTL_BYPASS`, an event or a host operation (R369). -/
  | pctlBypass (via : Via) (port : Nat)
  /-- `PCTL_UNBYPASS`, an event or a host operation (R369). -/
  | pctlUnbypass (via : Via) (port : Nat)
  /-- `OFFER`, an event or a host operation (R370). -/
  | offer (port : Nat) (msg : TrainMsg)
  /-- `ACCEPT`, an event or a host operation (R370). -/
  | accept (port : Nat) (msg : TrainMsg)
  /-- `READY`, an event or a host operation (R370). -/
  | ready (port : Nat) (msg : TrainMsg)
  /-- `RETRAIN_REQ`, an event or a host operation (R371). -/
  | retrainReq (port : Nat) (msg : TrainMsg)
  /-- `RESTRIPE`, an event or a host operation (R372). -/
  | restripe (port : Nat) (msg : TrainMsg)
  /-- `TRAIN_TIMEOUT`, an event or a host operation (R369). -/
  | trainTimeout (port : Nat)
  /-- `LOSS_OF_LIGHT`, an event or a host operation (R372). -/
  | lossOfLight (port : Nat) (lanes : BitVec 16)
  /-- `DATA_FLIT`, an event or a host operation (R366). -/
  | dataFlit (port : Nat) (bytes : List Byte)
  /-- `IDLE_FLIT`, an event or a host operation (R366). -/
  | idleFlit (port : Nat) (bytes : List Byte)
  /-- `NAK`, an event or a host operation (R366). -/
  | nak (port : Nat) (bytes : List Byte)
  /-- `ACK_TIMER`, an event or a host operation (R366). -/
  | ackTimer (port : Nat)
  /-- `REPLAY_TIMEOUT`, an event or a host operation (R366). -/
  | replayTimeout (port : Nat)
  /-- `POWER_LOSS`, an event or a host operation (R18). -/
  | powerLoss
  /-- `ILLEGAL_ENCODING`, an event or a host operation (R46). -/
  | illegalEncoding
  /-- `FETCH_FAULT`, an event or a host operation (R41). -/
  | fetchFault
  /-- `CODEWORD_LOCK_GAINED`, an event or a host operation (R369). -/
  | codewordLockGained (port lane : Nat)
  /-- `DELAY_REQ_INTERVAL`, an event or a host operation (R389). -/
  | delayReqInterval
  /-- `ANNOUNCE_RECEIPT_TIMEOUT`, an event or a host operation (R389). -/
  | announceReceiptTimeout (master : Nat)
  /-- `LASING_MINUTE`, an event or a host operation (R363). -/
  | lasingMinute (port lane : Nat)
  deriving DecidableEq, Repr

end Sys2Proof
end

