-- ==== Sys2Proof/Table.lean ====
section
/-! DEFINITION. Sparse tables: plain lists of (key, value) pairs with strictly rising keys in which no
entry holds the value that an unlisted key reads as. Memories, register files and the numbered parts
of the package are such tables, so equal contents are equal lists. -/

namespace Sys2Proof

/-- A sparse table from numbers to values. -/
abbrev Tbl (α : Type) := List (Nat × α)

/-- The value at key `k`; an unlisted key reads as `d`. -/
def Tbl.get {α : Type} (d : α) : Tbl α → Nat → α
  | [], _ => d
  | (k', v) :: t, k => if k = k' then v else Tbl.get d t k

/-- The value at key `k`, where one is listed. -/
def Tbl.find? {α : Type} : Tbl α → Nat → Option α
  | [], _ => none
  | (k', v) :: t, k => if k = k' then some v else Tbl.find? t k

/-- Remove every entry of key `k`. -/
def Tbl.erase {α : Type} : Tbl α → Nat → Tbl α
  | [], _ => []
  | (k', v) :: t, k => if k = k' then Tbl.erase t k else (k', v) :: Tbl.erase t k

/-- Put an entry at its place by key. -/
def Tbl.insert {α : Type} : Tbl α → Nat → α → Tbl α
  | [], k, v => [(k, v)]
  | (k', v') :: t, k, v => if k < k' then (k, v) :: (k', v') :: t else (k', v') :: Tbl.insert t k v

/-- Write `v` at key `k`: the entry is listed unless `v` is what an unlisted key reads as. -/
def Tbl.set {α : Type} [DecidableEq α] (d : α) (t : Tbl α) (k : Nat) (v : α) : Tbl α :=
  if v = d then t.erase k else (t.erase k).insert k v

/-- List `v` at key `k`, whatever it is. -/
def Tbl.put {α : Type} (t : Tbl α) (k : Nat) (v : α) : Tbl α := (t.erase k).insert k v

/-- Change the value at a listed key; an unlisted key stays unlisted. -/
def Tbl.upd {α : Type} (t : Tbl α) (k : Nat) (f : α → α) : Tbl α :=
  match t.find? k with
  | none => t
  | some v => t.put k (f v)

/-- The keys rise strictly. -/
def Tbl.sorted {α : Type} : Tbl α → Bool
  | [] => true
  | [_] => true
  | (k, _) :: (k', v') :: t => decide (k < k') && Tbl.sorted ((k', v') :: t)

/-- The canonical form: keys rise strictly and no entry holds the value of an unlisted key. -/
def Tbl.canonical {α : Type} [DecidableEq α] (d : α) (t : Tbl α) : Bool :=
  t.sorted && t.all (fun e => decide (e.2 ≠ d))

/-- `n` values from key `k` on. -/
def Tbl.getRange {α : Type} (d : α) (t : Tbl α) : Nat → Nat → List α
  | _, 0 => []
  | k, n + 1 => t.get d k :: t.getRange d (k + 1) n

/-- Write a list of values from key `k` on. -/
def Tbl.setRange {α : Type} [DecidableEq α] (d : α) (t : Tbl α) : Nat → List α → Tbl α
  | _, [] => t
  | k, v :: vs => (t.set d k v).setRange d (k + 1) vs

end Sys2Proof
end

