-- ==== Sys2Proof/Machine/State.lean ====
section
/-! DEFINITION. The state of one Crelek C48 package as plain data: everything the spec gives the
machine (INVENTORY.md, section State, lists it with its rules), the reasons a step can stop, and the
state right after reset. -/

namespace Sys2Proof.Machine

/-- Why a step stops with a fault. No rule of the spec stops the package, so there is no reason: an
empty type (safe). -/
inductive Fault
  deriving DecidableEq, Repr

/-- Why a step is refused. -/
inductive Refusal
  /-- Raised by an arm of `exec` whose instruction has no meaning yet. Safe: nothing is claimed. -/
  | notModelled (mnemonic : String)
  deriving DecidableEq, Repr

/-- The life cycle of a strand (spec/05_strand.md R82). DRAINING is RUNNING, WAITING or HANDLER with a
pre-emption request noted (`Strand.preemptAt`). -/
inductive Life
  | free | running | waiting | handler | halted | saved | done
  deriving DecidableEq, Repr

/-- A scalar register: value, poison bit (R80), and the engine entry that still owes the value
(R90, R134). -/
structure Reg where
  v : Word := 0
  poison : Bool := false
  pend : Option Nat := none
  deriving DecidableEq, Repr

/-- A predicate with its poison bit (R80). -/
structure PBit where
  v : Bool := false
  poison : Bool := false
  deriving DecidableEq, Repr

/-- The state of a branch-target register (R92). -/
inductive BState
  | empty | preparing | ready | faulted
  deriving DecidableEq, Repr

/-- A branch-target register: target and meta word (R80, R95). -/
structure Btr where
  target : BitVec 48 := 0
  st : BState := .empty
  cause : BitVec 8 := 0
  cgen : BitVec 32 := 0
  fgen : BitVec 16 := 0
  deriving DecidableEq, Repr

/-- A capability register with its poison bit (R80, spec/09_page.md R181). -/
structure CapReg where
  v : BitVec 128 := 0
  poison : Bool := false
  deriving DecidableEq, Repr

/-- A vector register with its poison bit (spec/07_vector.md R128, R133). -/
structure VReg where
  v : BitVec 2048 := 0
  poison : Bool := false
  deriving DecidableEq, Repr

/-- A mask register with its poison bit (R128, R133). -/
structure MReg where
  v : BitVec 256 := 0
  poison : Bool := false
  deriving DecidableEq, Repr

/-- A valid loop stack entry (R102). -/
structure LoopEntry where
  remain : Word := 0
  susp : Bool := false
  brk : Bool := false
  rot : Bool := false
  nest : Bool := false
  depth : BitVec 2 := 0
  outer : BitVec 4 := 0
  start : BitVec 46 := 0
  deriving DecidableEq, Repr

/-- The loop context that a trap keeps aside (spec/16_context.md R332). -/
structure Hidden where
  loops : List LoopEntry := []
  sg : BitVec 4 := 0xF
  rb : BitVec 4 := 0
  deriving DecidableEq, Repr

/-- What a WAITING strand waits for (R82, R84). -/
inductive Wait
  /-- the tokens and counts that its instruction takes at issue: FIFO f at key f, semaphore k at key 8 + k (R88,
  spec/13_barrier.md R267, R423) -/
  | grants (needs : List (Nat × Nat))
  /-- a barrier's phase to differ from a token (R264) -/
  | barrier (j : Nat) (token : BitVec 16)
  /-- its own ARR bit of a barrier to clear (R264) -/
  | arrival (j : Nat)
  /-- a memory counter (R269) -/
  | counter
  /-- a rachis queue (spec/14_kernel.md R293, R294) -/
  | rachis
  /-- the split rendezvous, with its split value (spec/12_group.md R256) -/
  | split (v : Word)
  /-- the answer to a supervisor request (spec/16_context.md R334) -/
  | supervisor
  /-- a sequencer's posts (spec/18_link.md R382) -/
  | posted (port : Nat) (target : BitVec 32)
  /-- a channel's transfers (spec/11_copy.md R244) -/
  | drain (ch : Nat) (ids : List Nat)
  deriving DecidableEq, Repr

/-- How far the instruction at the program counter has come (its entry's steps in order), where the
instruction waits between two of them. Stage 0 is before its first step, stage 8 an instruction that its pushes hold before it moves the strand, stage 9 one
that is performed and retires, going on at `v`, once there is room for its pushes (R88). -/
structure Micro where
  stage : Nat := 0
  /-- the instruction itself, once it has issued: what stands at `PC` no longer matters (spec/05_strand.md R86) -/
  instr : Option Instr := none
  /-- the boundary, request or token it waits for -/
  id : Nat := 0
  /-- a value already obtained -/
  v : Word := 0
  poison : Bool := false
  /-- the transfers or entries it waits for -/
  ids : List Nat := []
  /-- only room for its pushes holds it (spec/05_strand.md R88) -/
  held : Bool := false
  deriving DecidableEq, Repr

/-- What is known to precede a strand's next access, and what an entry, a token, a count or an arrival hands on to the
strand that waits for it (spec/10_phase.md R213): the newest xfence (R221), 0 none, and the newest refresh point of
an acquire (R214), as a commit index. -/
structure Mark where
  xf : Nat := 0
  rf : Nat := 0
  deriving DecidableEq, Repr

/-- One strand (spec/05_strand.md R80, R82; spec/16_context.md R332 to R338). Registers x32 to x47 and
v16 to v31 are held in physical order. -/
structure Strand where
  life : Life := .free
  haltedFrom : Life := .running
  haltMark : Bool := false
  /-- a debugger has cleared the halt mark of the HALTED strand (spec/16_context.md R337, R341) -/
  unmarked : Bool := false
  x : Tbl Reg := []
  o : Tbl Reg := []
  l : Tbl Reg := []
  p : Tbl PBit := []
  /-- stage predicates s3 to s0 in bits 3 to 0 -/
  sg : BitVec 4 := 0xF
  b : Tbl Btr := []
  c : Tbl CapReg := []
  vr : Tbl VReg := []
  w : Tbl VReg := []
  z : Tbl VReg := []
  m : Tbl MReg := []
  vt : BitVec 16 := 8
  pc : BitVec 48 := 0
  rb : BitVec 4 := 0
  /-- the valid loop stack entries, innermost first -/
  loops : List LoopEntry := []
  /-- words of loop stack entries not in use that a debugger has written, by word of the stack (R102,
  spec/16_context.md R341) -/
  loopSpare : Tbl Word := []
  fgen : BitVec 16 := 0
  epc : Word := 0
  ecause : Word := 0
  einfo : Word := 0
  einfo2 : Word := 0
  ho : Tbl Reg := []
  hl : Tbl Reg := []
  /-- the loop context kept aside: the strand is in its handler -/
  hidden : Option Hidden := none
  svrsp : Word := 0
  svtag : Option (BitVec 16) := none
  /-- the wait-half mark: barrier and phase token (R265, R338) -/
  waitHalf : Option (Nat × BitVec 16) := none
  /-- ARR, bit j for barrier j (spec/13_barrier.md R260) -/
  arr : BitVec 4 := 0
  wait : Wait := .grants []
  micro : Micro := {}
  /-- the clock at which a pre-emption request reached the strand (R109); kept while it is SAVED (R83) -/
  preemptAt : Option Nat := none
  /-- it stops at its next instruction boundary, inside a loop too (R82 by `park` or `gyield`, R109 after
  3 × IMAX clocks) -/
  stopSoon : Bool := false
  /-- a debug halt has reached it inside an instruction: it takes effect at the next boundary
  (spec/02_encoding.md R40) -/
  haltSoon : Bool := false
  /-- its S instructions that others of it have overtaken and that have not retired (R86; `Core.out`) -/
  outs : Nat := 0
  /-- the copy of a strand in which such an instruction is performed -/
  behind : Bool := false
  /-- a `gexit` of its group has reached it inside an instruction, after which it is DONE (spec/12_group.md R259) -/
  ending : Bool := false
  /-- its rendezvous has completed and its sync-marked instruction issues (R87) -/
  released : Bool := false
  /-- a debug step is under way (R82) -/
  stepping : Bool := false
  /-- the breakpoint at PC has halted the strand already (spec/16_context.md R341) -/
  skipBreak : Bool := false
  /-- a watchpoint has matched (R341) -/
  watchHit : Bool := false
  /-- the xfence and the acquire known to precede the strand's next access (spec/10_phase.md R214, R221) -/
  mark : Mark := {}
  deriving DecidableEq, Repr

/-- An S instruction that has issued and that later instructions of its strand have overtaken (R86). -/
structure Out where
  id : Nat
  k : Nat
  instr : Instr
  /-- the strand as it issued the instruction, which is performed there; nothing else moves it -/
  snap : Strand
  /-- performed: it retires after its strand's older ones -/
  done : Bool := false
  deriving DecidableEq, Repr

/-- An entry of the vector queue (spec/07_vector.md R134). -/
structure VEntry where
  id : Nat
  owner : Nat
  instr : Instr
  /-- the rotation base at issue (R104) -/
  rb : BitVec 4 := 0
  /-- scalar sources read at issue, with their poison -/
  s1 : Reg := {}
  s2 : Reg := {}
  s3 : Reg := {}
  /-- the exact address of its access (R145), which no register width narrows -/
  addr : Int := 0
  started : Bool := false
  /-- its access has begun: it has taken its tokens and its unit, and some of its bytes may have been accessed
  (spec/10_phase.md R220) -/
  opened : Bool := false
  /-- the scalar result it owes, known once it has started -/
  result : Option Reg := none
  /-- its access has matched a watchpoint -/
  watch : Bool := false
  /-- starts in succession that have passed it over while it was eligible (spec/05_strand.md R91) -/
  passed : Nat := 0
  mark : Mark := {}
  deriving DecidableEq, Repr

/-- The state of a matrix queue entry (spec/08_tile.md R158); a retired entry has left the queue. -/
inductive MState
  | queued | running | complete | stopped
  deriving DecidableEq, Repr

/-- An entry of the matrix command queue (R158). -/
structure MEntry where
  id : Nat
  owner : Nat
  instr : Instr
  /-- the format word it has claimed (R156) -/
  word : BitVec 32 := 0
  a : Word := 0
  b : Word := 0
  st : MState := .queued
  /-- the shape it read when it started (R158) -/
  shape : Word := 0
  /-- the next row or column (R162) -/
  row : Nat := 0
  mark : Mark := {}
  deriving DecidableEq, Repr

/-- An entry of the copy queue (spec/11_copy.md R238). -/
structure CEntry where
  id : Nat
  owner : Nat
  instr : Instr
  /-- performed: it retires once its pushes have room -/
  started : Bool := false
  /-- it has taken its tokens and its count at the queue's head -/
  taken : Bool := false
  ch : Nat := 0
  tidx : BitVec 8 := 0
  nosig : Bool := false
  off : BitVec 48 := 0
  caps : Tbl CapReg := []
  /-- what is known to precede what it hands on; and to precede its issue, from which its copy reads (spec/10_phase.md R221) -/
  mark : Mark := {}
  point : Mark := {}
  deriving DecidableEq, Repr

/-- The state of an accumulator tile (spec/08_tile.md R163). -/
inductive TileState
  | clear | live | held | scanning
  deriving DecidableEq, Repr

/-- An accumulator tile with its shape register and status byte (R154, spec/04_numbers.md R74). -/
structure Tile where
  st : TileState := .clear
  owner : Option Nat := none
  /-- `ACC` at key row × 128 + column -/
  acc : Tbl (BitVec 40) := []
  /-- `SPC` at key row × 128 + column -/
  spc : Tbl (BitVec 2) := []
  /-- `SEXP` at key row × 8 + segment -/
  sexp : Tbl (BitVec 16) := []
  rowPoison : BitVec 128 := 0
  shape : Word := 0
  status : BitVec 8 := 0
  deriving DecidableEq, Repr

/-- The state of a weight bank (R164). -/
inductive BankState
  | empty | loaded | held | scanning
  deriving DecidableEq, Repr

/-- The special flags of one K-block of one column (R154): NaN, the infinite elements with their signs,
and the zero elements. -/
structure BlockFlags where
  nan : Bool := false
  inf : BitVec 32 := 0
  neg : BitVec 32 := 0
  zero : BitVec 32 := 0xFFFFFFFF
  deriving DecidableEq, Repr

/-- A weight bank (R154). -/
structure Bank where
  st : BankState := .empty
  owner : Option Nat := none
  /-- cells at key k × 128 + j -/
  cells : Tbl (BitVec 16) := []
  /-- block exponents at key kb × 128 + j, as 16-bit signed numbers -/
  exps : Tbl (BitVec 16) := []
  flags : Tbl BlockFlags := []
  kb : Nat := 0
  nb : Nat := 0
  bf : BitVec 4 := 0
  poison : Bool := false
  deriving DecidableEq, Repr

/-- A weight-bank group: its active and its shadow bank. -/
structure BankGroup where
  active : Bank := {}
  shadow : Bank := {}
  deriving DecidableEq, Repr

/-- The state of a copy channel (spec/11_copy.md R242). -/
inductive ChanState
  | idle | busy | stopped
  deriving DecidableEq, Repr

/-- A receiver of a transfer: its rank, the first element it is to receive, the first element at which it has
been dropped and why, and whether its signal has been applied (R235, R237). -/
structure Receiver where
  rank : Nat
  start : Nat := 0
  dropAt : Option Nat := none
  cause : BitVec 8 := 0
  signalled : Bool := false
  deriving DecidableEq, Repr

/-- A transfer handed to a channel (R238, R241). -/
structure Transfer where
  id : Nat
  grp : Nat
  seq : BitVec 32 := 0
  tidx : BitVec 8 := 0
  nosig : Bool := false
  off : BitVec 48 := 0
  caps : Tbl CapReg := []
  mark : Mark := {}
  owner : Nat := 0
  /-- the chain entry it comes from -/
  cidx : Option Nat := none
  pamt : Nat := 0
  pslot : Nat := 0
  /-- the template's eight words, read at start (R229) -/
  tmpl : List Word := []
  started : Bool := false
  receivers : List Receiver := []
  /-- elements landed, by index in element order -/
  landed : Tbl Bool := []
  /-- the element at which the source was denied, and why (R235) -/
  srcDeny : Option Nat := none
  srcCause : BitVec 8 := 0
  /-- its template has been rejected: it can only be abandoned (R229, R246) -/
  bad : Bool := false
  /-- pool pages that its reads wait for -/
  pages : List Nat := []
  /-- aligned 8-byte units of H or P space that an element, by its index, has written ahead of its others (spec/10_phase.md
  R222) -/
  early : List (Nat × Nat) := []
  deriving DecidableEq, Repr

/-- The fault record of a stopped channel (R245). -/
structure CopyRecord where
  w0 : Word := 0
  w1 : Word := 0
  w2 : Word := 0
  w3 : Word := 0
  deriving DecidableEq, Repr

/-- A chain entry fetched and not yet handed over (R241). -/
structure Fetched where
  w0 : Word
  w1 : Word
  idx : Nat
  mark : Mark := {}
  caps : Tbl CapReg := []
  owner : Nat := 0
  deriving DecidableEq, Repr

/-- The chain of a linked channel (R241, R244). -/
structure Link where
  base : BitVec 48
  n : Nat
  pos : Nat := 0
  /-- kicks not yet used, oldest first, each group with what precedes it -/
  kicks : List (Nat × Mark) := []
  caps : Tbl CapReg := []
  owner : Nat := 0
  deriving DecidableEq, Repr

/-- A copy channel (R242 to R246). -/
structure Channel where
  st : ChanState := .idle
  queue : List Transfer := []
  link : Option Link := none
  fetched : Option Fetched := none
  record : CopyRecord := {}
  cause : BitVec 8 := 0
  fpend : Bool := false
  faultOwner : Nat := 0
  /-- transfers handed over since group start -/
  seq : BitVec 32 := 0
  deriving DecidableEq, Repr

/-- A refinement loop controller (spec/17_refinement.md R349, R352). -/
structure Rlc where
  held : Bool := false
  block : Tbl Word := []
  itot : BitVec 16 := 0
  iter : BitVec 16 := 0
  sc : BitVec 4 := 0
  esc : BitVec 4 := 0
  exit : BitVec 4 := 0
  rung : BitVec 2 := 0
  nstep : BitVec 3 := 0
  state : BitVec 3 := 0
  norms : Word := 0
  /-- `R0` while it is valid -/
  r0 : Option (BitVec 32) := none
  /-- the value that `R0` was last given, which stays while it is invalid (R353, R358) -/
  r0left : BitVec 32 := 0
  rprev : Option (BitVec 32) := none
  /-- the value that `RPREV` was last given, which stays while it is invalid -/
  rprevLeft : BitVec 32 := 0
  deriving DecidableEq, Repr

/-- The debug unit of a core (spec/16_context.md R341). -/
structure Debug where
  brkh : Bool := false
  ibp : Tbl Word := []
  wbp : Tbl Word := []
  dsel : Word := 0
  byBreak : BitVec 8 := 0
  byWatch : BitVec 8 := 0
  deriving DecidableEq, Repr

/-- A semaphore (spec/13_barrier.md R266): its count as the lots in which it came, oldest first, each with what its
signal hands on (spec/10_phase.md R213), and the increments of the present clock, which are added at its end. -/
structure Sem where
  lots : List (Nat × Mark) := []
  inc : List (Nat × Mark) := []
  deriving DecidableEq, Repr

/-- Whose turn it is among the strands of a core, at a FIFO or a semaphore, or at the tail of an engine queue: the
strand served first in the last clock with more than one contender, the strands served in the present one, and whether
others contended with them (spec/05_strand.md R89, R91, spec/13_barrier.md R266). At first the order starts with
strand 0. -/
structure Rotor where
  base : Nat := 7
  served : List Nat := []
  contend : Bool := false
  /-- entries that a rendezvous has made (R87) -/
  synced : Nat := 0
  deriving DecidableEq, Repr

/-- Who holds a physical scratchpad piece: a group, which piece of its partition it is, and whether it
is present (spec/09_page.md R178, spec/16_context.md R340). -/
structure Piece where
  grp : Nat
  idx : Nat
  present : Bool := true
  deriving DecidableEq, Repr

/-- A byte memory with its poison marks and latent uncorrectable errors by 64-byte line
(spec/09_page.md R195, R197). An unlisted byte reads 0 (DESIGN CHOICE, log entry 2). -/
structure Mem where
  bytes : Tbl Byte := []
  poison : Tbl Bool := []
  latent : Tbl Bool := []
  deriving DecidableEq, Repr

/-- An aligned 8-byte unit of the scratchpad that an entry under way has accessed already, on its own
(spec/10_phase.md R220): the bytes it has read there, or written. -/
structure Peek where
  id : Nat
  unit : Nat
  wrote : Bool
  bytes : List Byte
  /-- the group of the transfer that has landed it (spec/10_phase.md R222) -/
  grp : Option Nat := none
  deriving DecidableEq, Repr

/-- One core. -/
structure Core where
  strands : Tbl Strand := []
  /-- token FIFOs in the order of R88, oldest token first; a token is what it hands on -/
  fifo : Tbl (List Mark) := []
  sem : Tbl Sem := []
  /-- tokens put in during the present clock: they can be taken from the next on (R89) -/
  fresh : Tbl Nat := []
  /-- takes of FIFO f at key f, of semaphore k at 8 + k, entries of the C, M and V queue at 24 to 26, pushes into FIFO f
  at 32 + f -/
  rotor : Tbl Rotor := []
  /-- strands that have issued an instruction in the present clock -/
  issued : List Nat := []
  /-- S instructions that later ones of their strands have overtaken, oldest first (R86) -/
  out : List Out := []
  /-- entries that the vector engine has started in the present clock, and the clock from which each of its units is free
  again (R91, spec/07_vector.md R135): the pipes at keys 0 and 1, function unit 2, permute slot 3, port 4 -/
  vstarts : Nat := 0
  vbusy : Tbl Nat := []
  vq : List VEntry := []
  mq : List MEntry := []
  cq : List CEntry := []
  peeks : List Peek := []
  /-- unclaimed format words, oldest first (spec/08_tile.md R156) -/
  fq : List (BitVec 32) := []
  tiles : Tbl Tile := []
  banks : Tbl BankGroup := []
  /-- the group's own tiles, and weight banks at key 2i active and 2i + 1 shadow, in whose place another group's contents
  are held (spec/08_tile.md R163, R164) -/
  awayTiles : Tbl Tile := []
  awayBanks : Tbl Bank := []
  spad : Mem := {}
  pieces : Tbl Piece := []
  channels : Tbl Channel := []
  rlc : Rlc := {}
  /-- group-scope counters (spec/16_context.md R342) -/
  counters : Tbl Word := []
  group : Option Nat := none
  /-- the world of the group it last held (R329) -/
  world : BitVec 8 := 0
  /-- engine clocks gated for pre-emption (R335) -/
  gated : Bool := false
  dbg : Debug := {}
  deriving DecidableEq, Repr

/-- The life of a group (spec/12_group.md R252). -/
inductive GState
  | loading | running | parked | saving | saved | exiting | retired | ended
  deriving DecidableEq, Repr

/-- A group barrier (spec/13_barrier.md R260). -/
structure Barrier where
  phase : BitVec 16 := 0
  part : Nat := 0
  arrive : Nat := 0
  used : Bool := false
  bytes : Int := 0
  /-- an update has reached it in the present clock: it is tested at the clock's end (R261) -/
  touched : Bool := false
  /-- what the arrivals of this phase hand on, and those of the phases that have ended -/
  mark : Mark := {}
  markDone : Mark := {}
  deriving DecidableEq, Repr

/-- A captured kernel descriptor (spec/14_kernel.md R275). -/
structure KDesc where
  entry : BitVec 48 := 0
  pieces : Nat := 1
  gsize : Nat := 1
  imax : Nat := 1
  deriving DecidableEq, Repr

/-- A published unit of H space not yet committed: its physical address and written bytes. -/
structure HUnit where
  addr : Nat
  bytes : List (Nat × Byte)
  deriving DecidableEq, Repr

/-- A published unit of P space not yet sent or not yet applied by the pool. -/
structure PUnit where
  key : Nat
  bytes : List (Nat × Byte)
  /-- the tag of its WRITE once sent -/
  tag : Option Nat := none
  deriving DecidableEq, Repr

/-- A phase boundary in progress (spec/10_phase.md R209, R210). -/
structure Boundary where
  id : Nat
  /-- it has taken effect as a phase boundary in the present clock; not so the bytes that an atomic publishes (R216) -/
  fresh : Bool := false
  hunits : List HUnit := []
  punits : List PUnit := []
  deriving DecidableEq, Repr

/-- A region that a start refresh covers, with its refresh point (R218). -/
structure Refresh where
  lo : Nat
  hi : Nat
  point : Nat
  deriving DecidableEq, Repr

/-- A task's version and what governs its reads (R208 to R223). H bytes are keyed by physical address,
P bytes by object × 2^48 + object offset. -/
structure Version where
  h : Tbl Byte := []
  p : Tbl Byte := []
  bounds : List Boundary := []
  /-- version contents at each xfence of the task, H and P (R221) -/
  xfs : Tbl (Tbl Byte × Tbl Byte) := []
  /-- bytes accepted since an xfence: the newest xfence then, P or H, the byte's key and value (R221) -/
  xlog : List (Nat × Bool × List (Nat × Byte)) := []
  /-- the start refresh of every byte, or the creation of the context, as a commit index (R214, R218) -/
  refresh : Nat := 0
  regions : List Refresh := []
  /-- by unit, the oldest commit that a later load may still return (R215) -/
  seen : Tbl Nat := []
  deriving DecidableEq, Repr

/-- A frond group's place in its frond (spec/14_kernel.md R279, R288). -/
structure PinnaSlot where
  pinna : Nat
  number : Nat
  mark : Option Nat := none
  moving : Bool := false
  /-- item last taken by the lead -/
  taken : Option Nat := none
  deriving DecidableEq, Repr

/-- The future that a parked group waits for, by physical address, and whether an `fset` has filled it
(spec/13_barrier.md R271, R272); the strand that parked, by rank and number, and what it learns at the wake
(spec/10_phase.md R213). -/
structure Parking where
  addr : Nat
  rank : Nat := 0
  strand : Nat := 0
  filled : Bool := false
  mark : Mark := {}
  deriving DecidableEq, Repr

/-- The saved image of one core of a group (spec/16_context.md R336 to R340). -/
structure CoreSave where
  strands : Tbl Strand := []
  fifo : Tbl (List Mark) := []
  sem : Tbl Sem := []
  out : List Out := []
  vq : List VEntry := []
  mq : List MEntry := []
  cq : List CEntry := []
  fq : List (BitVec 32) := []
  channels : Tbl Channel := []
  rlc : Rlc := {}
  counters : Tbl Word := []
  /-- tiles: images scanned out, and CLEAR tiles -/
  tiles : Tbl Tile := []
  banks : Tbl BankGroup := []
  pieces : Tbl Mem := []
  /-- a unit of this core's records, or of a tile's or a bank's image, in the save area has a failed tag (R328) -/
  lost : Bool := false
  deriving DecidableEq, Repr

/-- Why a group leaves its cores at the end of the present clock (R254, R259). -/
inductive Leave
  | yields | parks | exits
  deriving DecidableEq, Repr

/-- One group, which is also one task (spec/12_group.md R247 to R260). No register shows its remap table: spec/16_context.md R341
names none (DESIGN CHOICE, log entry 74). -/
structure Group where
  ctx : Nat
  launch : Nat
  queue : Nat := 0
  prio : Nat := 0
  st : GState := .loading
  size : Nat := 1
  kdesc : KDesc := {}
  /-- index of the task in its launch -/
  task : Word := 0
  /-- physical cores by rank -/
  cores : List Nat := []
  nsub : Nat := 1
  b1 : Nat := 0
  b2 : Nat := 0
  b3 : Nat := 0
  barriers : Tbl Barrier := []
  ver : Version := {}
  /-- its saved image, by rank -/
  saved : Option (List CoreSave) := none
  /-- images of partition pieces not read back yet, by rank and piece (spec/16_context.md R340) -/
  images : Tbl (Tbl Mem) := []
  /-- pieces, by rank, whose images in the save area of a trusted world have a failed tag (R328) -/
  badImages : List (Nat × Nat) := []
  /-- a pre-emption request under way: the clock in which it reached the cores (R335) -/
  preemptAt : Option Nat := none
  /-- its strands and engines have stopped and it is saved at the end of the present clock, if nothing ends it there
  (spec/16_context.md R327) -/
  saveDue : Bool := false
  /-- it leaves its cores by `park` or `gyield` (R252) -/
  yielding : Bool := false
  /-- an instruction of the present clock has asked for this, or a `gexit` whose strands have not all stopped (R259) -/
  leave : Option Leave := none
  parking : Option Parking := none
  pinna : Option PinnaSlot := none
  plat : Nat := 0
  pmemw : Nat := 0
  /-- its slot of the save area, once it has one (spec/16_context.md R336) -/
  slot : Option Nat := none
  placedAt : Nat := 0
  /-- the final boundary (R212), once taken -/
  finalBound : Option Nat := none
  /-- a containment, which takes effect at the end of a clock in which no boundary of the task is incomplete (R217) -/
  contain : Option (BitVec 8) := none
  /-- another group of its frond has been contained: it ends with it, without a record (spec/14_kernel.md R287) -/
  swept : Bool := false
  /-- a FENCED rejection is among its causes: it waits for no boundary (R217) -/
  fenced : Bool := false
  deriving DecidableEq, Repr

/-- The life of a launch in the journal (spec/15_queue.md R316). -/
inductive LState
  | accepted | released | running | completed | partly | discarded | rejected
  deriving DecidableEq, Repr

/-- What a journal record says besides its number and time. -/
structure JRec where
  queue : Nat
  st : LState
  cause : BitVec 8 := 0
  cut : Bool := false
  node : Bool := false
  trec : Bool := false
  sseq : Word := 0
  task : Nat := 0
  digest : BitVec 32 := 0
  deriving DecidableEq, Repr

/-- A counter update or a completion message that reports a transition: it follows the journal record of its clock
(spec/15_queue.md R315, spec/19_host.md R387). -/
inductive Report
  /-- an addition to a counter at a physical address -/
  | add (pa : Nat) (v : Word)
  /-- a message to a ring: kind, context, queue, tag and value -/
  | message (ring kind ctx queue tag : Nat) (v : Word)
  deriving DecidableEq, Repr

/-- One edge of a running graph. -/
structure GEdge where
  dst : Nat
  space : Nat
  addr : Word
  len : Word
  deriving DecidableEq, Repr

/-- One node of a running graph: its spore, working counter, edges and launch (R310, R311). -/
structure GNode where
  words : List Word
  pred : Nat
  outs : List GEdge
  /-- regions of incoming edges (R218) -/
  ins : List GEdge := []
  launch : Option Nat := none
  done : Bool := false
  deriving DecidableEq, Repr

/-- A pinna record (spec/14_kernel.md R281). -/
structure PinnaRec where
  kidx : Nat
  inq : Nat
  ginit : Nat
  gmin : Nat
  gmax : Nat
  kdesc : KDesc := {}
  deriving DecidableEq, Repr

/-- A rachis queue with its record (R282, R285, R286). -/
structure Rachis where
  depth : Nat
  high : Nat
  low : Nat
  prod : Nat
  cons : Nat
  head : Nat := 0
  fin : Option Nat := none
  /-- present items by sequence number, each eight words, and the clock in which each entered -/
  items : Tbl (List Word) := []
  entered : Tbl Nat := []
  /-- items whose line is poisoned, by sequence number (spec/09_page.md R195, R197, R200) -/
  spoilt : Tbl Bool := []
  /-- the clock of the last take -/
  takenAt : Option Nat := none
  /-- the queue is DISCARDED (R286) -/
  discarded : Bool := false
  deriving DecidableEq, Repr

/-- A frond launch (R279, R287). -/
structure Frond where
  gsize : Nat
  rbal : Nat
  fixed : Bool
  pinnae : List PinnaRec
  queues : List Rachis
  nitems : Nat
  feedNext : Nat := 0
  /-- groups placed so far; also the next group's number -/
  placed : Nat := 0
  die : Option Nat := none
  /-- the frame at which it last rebalanced -/
  lastFrame : Nat := 0
  deriving DecidableEq, Repr

/-- What a launch's start refresh covers (spec/10_phase.md R218). -/
inductive Start
  | nothing
  | all
  | regions (edges : List GEdge)
  deriving DecidableEq, Repr

/-- A spore and its launch (spec/15_queue.md R302 to R311). -/
structure Launch where
  queue : Nat
  sseq : Word := 0
  ctx : Nat := 0
  words : List Word := []
  digest : BitVec 32 := 0
  st : LState := .accepted
  kdesc : KDesc := {}
  ntasks : Nat := 0
  /-- tasks placed for the first time -/
  next : Nat := 0
  completed : Nat := 0
  lost : Nat := 0
  cut : Bool := false
  graph : Tbl GNode := []
  /-- for a node launch: the graph's launch and the node -/
  node : Option (Nat × Nat) := none
  frond : Option Frond := none
  start : Start := .nothing
  /-- the launch ends although tasks have not started (drain deadline, fatal error) -/
  ending : Option (BitVec 8) := none
  stalled : Bool := false
  deriving DecidableEq, Repr

/-- The state of a queue (R299, R301). -/
inductive QState
  | disabled | active | stopped | error | halted | rekey
  deriving DecidableEq, Repr

/-- A command queue (R298 to R301, R318). -/
structure Queue where
  desc : Tbl Word := []
  st : QState := .disabled
  head : BitVec 32 := 0
  tail : BitVec 32 := 0
  err : BitVec 8 := 0
  expected : Word := 0
  qseq : Word := 0
  sseq : Word := 0
  /-- the spore written at 0x00 of an authenticated queue, held for its seal -/
  held : Option (List Byte) := none
  /-- bytes received with a `QLAUNCH` write, by slot count -/
  received : Tbl (List Byte) := []
  /-- the enqueue buffer of a `DEV` queue, oldest first -/
  buffer : List (List Word) := []
  key : Option (BitVec 256) := none
  keyFresh : Bool := false
  /-- a counter fault stopped the queue (R309) -/
  counterStop : Bool := false
  deriving DecidableEq, Repr

/-- The state of a context (spec/16_context.md R323). -/
inductive CState
  | none | created | loaded | runnable | running | preempted | retired | failed
  deriving DecidableEq, Repr

/-- A supervisor request (R323, R334). -/
structure SvRequest where
  tag : BitVec 16
  v : Word
  grp : Nat
  rank : Nat
  strand : Nat
  popped : Bool := false
  response : Option (BitVec 48) := none
  deriving DecidableEq, Repr

/-- The state of a kernel table entry (spec/14_kernel.md R277). -/
inductive KState
  | empty | loaded | busy | unloading
  deriving DecidableEq, Repr

/-- A kernel table entry's state and its count of launches. -/
structure KEntry where
  st : KState := .empty
  n : Nat := 0
  deriving DecidableEq, Repr

/-- An invalidation or code load under way (R324). -/
structure Inval where
  kind : Nat
  addr : Nat
  len : Nat
  deriving DecidableEq, Repr

/-- A completed invalidation or code load: its kind by `CTXINV` (1 H, 2 I, 3 templates, 4 capabilities), or 5
for code bytes and line marks, its
range, and the commit index from which the range is read again (R324). -/
structure Dropped where
  kind : Nat
  lo : Nat
  hi : Nat
  point : Nat
  deriving DecidableEq, Repr

/-- A context (spec/16_context.md R320 to R326). -/
structure Context where
  desc : Tbl Word := []
  st : CState := .none
  cgen : BitVec 32 := 0
  fcause : BitVec 8 := 0
  err : BitVec 8 := 0
  inv : Word := 0
  len : Word := 0
  pendingInval : Option Inval := none
  pendingLoad : Option Inval := none
  requests : List SvRequest := []
  nextTag : BitVec 16 := 0
  kernels : Tbl KEntry := []
  counters : Tbl Word := []
  deficit : Int := 0
  /-- the fatal cause of the present clock, the lowest code (R327), which ends the context at the clock's end -/
  dying : Option (BitVec 8) := none
  /-- the commit index at its creation, which bounds every refresh point (spec/10_phase.md R214) -/
  born : Nat := 0
  /-- the commit index at which its first group was placed: from then on entries may be cached
  (spec/09_page.md R193) -/
  cached : Option Nat := none
  invals : List Dropped := []
  /-- descriptor words 3, 4, 5 and 11 as they are in effect once entries may be cached (R322) -/
  held : Tbl Word := []
  keyw : BitVec 256 := 0
  keyq : BitVec 256 := 0
  cmeas : BitVec 512 := 0
  deriving DecidableEq, Repr

/-- The state of a cached pool page (spec/09_page.md R185); an unlisted page is ABSENT. -/
inductive PageState
  | requested | leased | revoking | dropped
  deriving DecidableEq, Repr

/-- A cached pool page (R185 to R187). -/
structure Page where
  st : PageState := .requested
  frame : Tbl Byte := []
  poison : Tbl Bool := []
  /-- frame lines with a latent uncorrectable error -/
  latent : Tbl Bool := []
  expiry : Nat := 0
  granted : Nat := 0
  requestedMs : Nat := 0
  reuse : Nat := 0
  demandRead : Bool := false
  /-- the queues whose current step has read it (R187) -/
  readBy : List Nat := []
  lastUse : Nat := 0
  /-- writes to apply to the frame once the grant arrives (R186) -/
  late : Tbl Byte := []
  /-- tag and port of the REVOKE to acknowledge -/
  revoke : Nat × Nat := (0, 0)
  deriving DecidableEq, Repr

/-- What a remote operation is for (spec/18_link.md R368). -/
inductive RemoteKind
  /-- a page request with a lease, at demand or prefetch class -/
  | page (key : Nat) (prefetch : Bool)
  /-- a read of a HOME page by a strand -/
  | homeRead (key off len : Nat)
  /-- a unit of a boundary -/
  | write (grp bound key : Nat) (bytes : List (Nat × Byte))
  /-- an atomic or compare-and-swap by a strand -/
  | atomic (key size : Nat) (op : BitVec 3) (operand compare : Word) (cas : Bool)
  /-- a renewal -/
  | renew (key : Nat)
  /-- a sequencer's get of a P range, landing at a local address of the given kind -/
  | get (port : Nat) (key : Nat) (kind : BitVec 2) (addr len : Nat)
  /-- a sequencer's put or put with signal -/
  | put (port : Nat) (off : Nat) (bytes : List Byte) (signal : Option (Nat × Nat))
  /-- a copy element's read of a HOME page -/
  | copyRead (c ch key len : Nat)
  /-- the session request -/
  | session
  deriving DecidableEq, Repr

/-- A remote operation outstanding (R368). -/
structure Remote where
  kind : RemoteKind
  grp : Nat := 0
  rank : Nat := 0
  strand : Nat := 0
  port : Nat := 0
  attempt : Nat := 0
  /-- the attempt has timed out and the back-off runs -/
  backoff : Bool := false
  deadline : Nat := 0
  /-- the answer, for the strand that waits: value, poison -/
  answer : Option (Word × Bool) := none
  /-- the task's own bytes when a strand's read was sent (spec/10_phase.md R215) -/
  own : List (Option Byte) := []
  /-- the bytes of the answer, for a copy element or a get -/
  data : List Byte := []
  /-- poisoned 64-byte lines of a get's answer -/
  lines : List Nat := []
  deriving DecidableEq, Repr

/-- The pool session and the cache of pool pages. -/
structure Pool where
  /-- the session's fencing token -/
  token : Option Word := none
  lastToken : Word := 0
  pages : Tbl Page := []
  remotes : Tbl Remote := []
  deriving DecidableEq, Repr

/-- A lane of a port (spec/18_link.md R362, R363). `ret` and `age` live in the flash. -/
structure Lane where
  lit : Bool := false
  rxlos : Bool := false
  locked : Bool := false
  bias : BitVec 16 := 0
  eolh : BitVec 32 := 0xFFFFFFFF
  /-- newest sample first, at most 256 -/
  samples : List Nat := []
  /-- its LASER_EOL record has been raised (R363) -/
  warned : Bool := false
  /-- minutes lased since `AGE` was last written to the flash -/
  fresh : Nat := 0
  deriving DecidableEq, Repr

/-- The state of a port (R369). -/
inductive PortState
  | dark | seek | train | active | degraded | retrain | failed | bypassed
  deriving DecidableEq, Repr

/-- A training exchange or restripe under way (R370, R372). -/
structure Exchange where
  tseq : BitVec 8 := 0
  offer : Option TrainMsg := none
  accept : Option TrainMsg := none
  acceptSent : Option TrainMsg := none
  readySent : Bool := false
  /-- the peer's READY has arrived -/
  readyGot : Bool := false
  /-- this end's own RETRAIN_REQ, while no reply to it has arrived (R371) -/
  requestSent : Option TrainMsg := none
  deriving DecidableEq, Repr

/-- The restripe of one direction (R372): the usable lanes that remain. -/
structure Restripe where
  lanes : BitVec 16
  deriving DecidableEq, Repr

/-- A DATA flit of a message without its sequence and acknowledgement fields (R364, R367). -/
structure FlitBody where
  first : Bool
  last : Bool
  opc : BitVec 8
  tag : Nat
  data : List Byte
  deriving DecidableEq, Repr

/-- A message that is being received: its opcode and tag, its payload, and the 64-byte payload lines marked
poisoned (R364, R367). -/
structure Incoming where
  opc : BitVec 8
  tag : Nat
  bytes : List Byte := []
  poison : List Nat := []
  deriving DecidableEq, Repr

/-- The state of a port sequencer (R377). -/
inductive SqState
  | idle | running | waiting | fencing | paused
  deriving DecidableEq, Repr

/-- An address generator (R377). -/
structure Gen where
  kind : BitVec 2 := 0
  capi : BitVec 4 := 0
  a : BitVec 48 := 0
  d0 : BitVec 48 := 0
  d1 : BitVec 48 := 0
  deriving DecidableEq, Repr

/-- A loop counter (R377). -/
structure SqLoop where
  remain : BitVec 32 := 0
  start : BitVec 32 := 0
  active : Bool := false
  deriving DecidableEq, Repr

/-- A port sequencer (R377, R378). -/
structure Sequencer where
  st : SqState := .idle
  /-- the state it left when it was PAUSED -/
  pausedFrom : SqState := .idle
  gens : Tbl Gen := []
  loops : Tbl SqLoop := []
  go : BitVec 32 := 0
  posted : BitVec 32 := 0
  spcw : BitVec 32 := 0
  last : BitVec 8 := 0
  grp : Option Nat := none
  prog : BitVec 48 := 0
  caps : Tbl CapReg := []
  /-- the word fetched and not yet performed -/
  word : Option (BitVec 64) := none
  /-- the count a `sq.wait` waits for -/
  need : BitVec 32 := 0
  mark : Mark := {}
  /-- the rank whose scratchpad its S addresses name -/
  rank : Nat := 0
  /-- messages of the present word already begun -/
  sent : Nat := 0
  /-- a loop of count 0 is being skipped: the counter that its `sq.endl` names (R380) -/
  skip : Option (BitVec 2) := none
  deriving DecidableEq, Repr

/-- A port with its link layer and its sequencer (R361 to R382). -/
structure Port where
  st : PortState := .dark
  w : Nat := 0
  rxw : Nat := 0
  rate : BitVec 2 := 2
  cause : BitVec 8 := 0
  trate : BitVec 2 := 0
  bmax : BitVec 16 := 12000
  pworld : BitVec 8 := 0
  retry : BitVec 4 := 6
  rxctx : BitVec 12 := 0
  rxbase : BitVec 32 := 0
  rxlen : BitVec 16 := 0
  /-- ENABLE has been performed since reset -/
  enabled : Bool := false
  lanes : Tbl Lane := []
  /-- usable lanes of the transmit and the receive direction (R371) -/
  txLanes : BitVec 16 := 0
  rxLanes : BitVec 16 := 0
  attempts : Nat := 0
  /-- when TRAIN or RETRAIN was entered, in ns -/
  since : Nat := 0
  exch : Exchange := {}
  /-- the identity digest of the peer (R370) -/
  peerPid : Word := 0
  txRestripe : Option Restripe := none
  rxRestripe : Option Restripe := none
  /-- retrain requests waiting for a restripe or an exchange to end, oldest first (R371, R373) -/
  laterRetrain : List TrainMsg := []
  /-- flits waiting for a number, oldest first -/
  outq : List FlitBody := []
  /-- next `SEQ` to send, the replay buffer oldest first with its numbers, next `SEQ` expected -/
  txSeq : Nat := 0
  replay : List (Nat × FlitBody) := []
  rxSeq : Nat := 0
  /-- accepted flits not yet acknowledged -/
  unacked : Nat := 0
  lastNak : Option (Nat × Nat) := none
  /-- times of NAKs sent within the last 10 µs -/
  nakTimes : List Nat := []
  lastProgress : Nat := 0
  incoming : Option Incoming := none
  /-- responses to PUT and PUTSIG kept for repeats, by token and tag (R367) -/
  served : List ((Word × Nat) × BitVec 8) := []
  /-- receive buffers of 256 bytes not yet returned -/
  credit : Nat := 0
  seq : Sequencer := {}
  deriving DecidableEq, Repr

/-- The fields of `PTPSTAT` and what the discipline of package time keeps (spec/19_host.md R388, R389). -/
structure Ptp where
  offset : BitVec 32 := 0
  stepped : Bool := false
  lock : Bool := false
  good : Nat := 0
  missed : Nat := 0
  master : Option Nat := none
  /-- when the run of good offsets began, and when the last Sync of a selected master came, in `up` -/
  since : Option Nat := none
  lastSync : Option Nat := none
  /-- per master: sequence number and arrival time of the last Sync and whether its Follow_Up has come; its arrival in `up`; the
  master's time and the arrival of the last Sync that was followed up; and the last Delay_Req's departure -/
  syncAt : Tbl (Nat × Nat × Bool) := []
  syncUp : Tbl Nat := []
  pair : Tbl (Nat × Nat) := []
  reqAt : Tbl (Nat × Nat) := []
  /-- when the last Delay_Req left, in `up` -/
  reqUp : Option Nat := none
  delay : Tbl Int := []
  /-- Announce data sets of the masters heard, as one comparable list each, and when the last one arrived -/
  announced : Tbl (List Nat) := []
  heardAt : Tbl Nat := []
  /-- correction of package time still to be slewed in, in ns, the rate in ppm, and what has run up below 1 ns -/
  slew : Int := 0
  slewRate : Nat := 0
  slewAcc : Nat := 0
  deriving DecidableEq, Repr

/-- A completion ring's registers (spec/19_host.md R384, R387). -/
structure Completion where
  base : Word := 0
  head : BitVec 32 := 0
  deriving DecidableEq, Repr

/-- The attestation engine (R394). -/
structure Attest where
  st : BitVec 3 := 0
  req : Word := 0
  nonce : BitVec 256 := 0
  via : Via := .host
  leaf : Nat := 0
  deriving DecidableEq, Repr

/-- A health monitor's value, prediction and samples (R396). -/
structure Health where
  value : Nat := 0
  eolh : BitVec 32 := 0xFFFFFFFF
  /-- newest sample first, at most 256 -/
  samples : List Nat := []
  /-- its end-of-life event has been raised -/
  warned : Bool := false
  deriving DecidableEq, Repr

/-- The serial flash, the only thing that persists (spec/01_package.md R18, spec/19_host.md R392). -/
structure Flash where
  cfgGen : BitVec 16 := 0
  bitstream : Image := { length := 0, version := 0, bytes := [], key := [], signature := [] }
  recovery : Image := { length := 0, version := 0, bytes := [], key := [], signature := [] }
  bitstreamFloor : BitVec 32 := 0
  recoveryFloor : BitVec 32 := 0
  certificate : List Byte := []
  leaf : Nat := 0
  /-- the monotonic write counter -/
  counter : Nat := 0
  /-- the key with which the device authenticates, where it is not the one shared at manufacture -/
  key : Option (List Byte) := none
  /-- laser `RET` and `AGE` at key port × 16 + lane -/
  ret : Tbl Bool := []
  age : Tbl (BitVec 32) := []
  deriving DecidableEq, Repr

/-- The package states (spec/01_package.md R19). -/
inductive PkgState
  | reset | identify | configure | train | serving | draining | quiesced | failed
  deriving DecidableEq, Repr

/-- The package's own registers and clocks. -/
structure Package where
  st : PkgState := .reset
  failCause : BitVec 8 := 0
  cap : BitVec 12 := 3600
  capEffective : Nat := 3600
  drainDeadline : Option Nat := none
  /-- the drain deadline falls in the present clock (R22) -/
  deadlineNow : Bool := false
  ns : Nat := 0
  /-- eighths of a nanosecond beyond the last whole one: a clock is 5 of them (spec/00_scope.md R5) -/
  frac : Nat := 0
  /-- nanoseconds passed since power came, which no discipline of package time steps or slews: what timeouts count -/
  up : Nat := 0
  /-- package time runs since IDENTIFY (R20) -/
  timeRuns : Bool := false
  clocks : Nat := 0
  trainSince : Nat := 0
  pid : Word := 0
  pubkey : List Byte := []
  /-- the seed of the SRAM PUF (spec/19_host.md R393) -/
  seed : BitVec 768 := 0
  bmeas : BitVec 512 := 0
  rmeas : BitVec 512 := 0
  jbase : Word := 0
  jhead : BitVec 32 := 0
  ebase : Word := 0
  ehead : BitVec 32 := 0
  ereach : Bool := false
  /-- UCIe modules that are down -/
  ucieDown : BitVec 4 := 0
  /-- times (ns) at which each configuration frame failed, newest first -/
  frameFails : Tbl (List Nat) := []
  repairs : List Nat := []
  /-- the newest write counter of the flash that the package has seen (spec/19_host.md R392) -/
  flashSeen : Nat := 0
  deriving DecidableEq, Repr

/-- A message that has left the package: what the pool, a peer or a master receives. -/
inductive Sent
  | read (tag : Nat) (port : Nat) (obj off len : Nat) (leaseMs : Nat) (token : Word)
  | write (tag : Nat) (port : Nat) (obj off : Nat) (bytes : List (Nat × Byte)) (token : Word)
  | atomic (tag : Nat) (port : Nat) (obj off size : Nat) (op : BitVec 3) (operand compare : Word) (cas : Bool) (token : Word)
  | renew (tag : Nat) (port : Nat) (obj page : Nat) (ms : Nat) (token : Word)
  | revokeAck (tag obj page : Nat)
  | put (tag : Nat) (port : Nat) (off : Nat) (bytes : List Byte) (signal : Option (Nat × Nat))
  | putAck (tag : Nat) (port : Nat) (status : BitVec 8)
  | session (tag : Nat)
  | sessionClosed (token : Word)
  | released (obj page : Nat)
  | delayReq (master : Nat)
  | train (port : Nat) (kind : Nat) (msg : TrainMsg)
  | flit (port : Nat) (bytes : List Byte)
  deriving DecidableEq, Repr

/-- A committed write of one aligned 8-byte unit of H space: its index and the value before it. -/
structure Commit where
  index : Nat
  old : List Byte
  deriving DecidableEq, Repr

/-- Who moves in a turn of the schedule. -/
inductive Mover
  /-- strand `k` of core `c` -/
  | strand (c k : Nat)
  /-- element `elem` of transfer `n` of a channel lands one aligned 8-byte unit of its destination ahead of its others, at a
  receiving core where it is in the scratchpad (spec/10_phase.md R222) -/
  | land (c ch n elem at_ unit : Nat)
  /-- strand `k` of core `c` leaves its S instruction outstanding and goes on to the next (spec/05_strand.md R86) -/
  | ahead (c k : Nat)
  /-- the outstanding instruction of core `c` with this number -/
  | behind (c id : Nat)
  /-- entry `id` of an engine of core `c` accesses one 8-byte unit of the scratchpad ahead of its others
  (spec/10_phase.md R220) -/
  | unit (c id unit : Nat)
  /-- the sequencer of a port -/
  | sequencer (port : Nat)
  /-- an event or host operation -/
  | event (i : Instr)
  /-- a driver writes HBM, the weight store or host memory -/
  | driver (target addr : Nat) (bytes : List Byte)
  /-- a line of memory takes an uncorrectable error: HBM, a core's scratchpad, or a cached pool page; a tag of a
  sealed unit of HBM, or of a saved image, fails -/
  | upset (target idx line : Nat)
  deriving DecidableEq, Repr

/-- A turn: who moves, and the clocks that have passed since the turn before it. -/
structure Turn where
  mover : Mover
  clocks : Nat := 1
  deriving DecidableEq, Repr

/-- What the movers of one clock come to in an order that the spec gives: a strand's issue (spec/05_strand.md R91), a
FIFO, a semaphore, an engine queue's entries, the format queue, the tile status file, the
refinement controller, a rachis queue, a group, a command queue, a context, a remote operation, the drain, and the package. -/
inductive Seat
  | strand (c k : Nat)
  | fifo (c f : Nat)
  | sem (c k : Nat)
  | entry (c e : Nat)
  | words (c : Nat)
  | status (c : Nat)
  | rlc (c : Nat)
  | rachis (l q : Nat)
  | group (g : Nat)
  | queue (q : Nat)
  | context (n : Nat)
  | remote (tag : Nat)
  | drain
  | package
  deriving DecidableEq, Repr

/-- An entry of a die's wait table (spec/13_barrier.md R272). -/
structure WaitEntry where
  die : Nat
  addr : Nat
  ctx : Nat
  grp : Nat
  deriving DecidableEq, Repr

/-- The state of the package. -/
structure State where
  /-- the coming turns: an input, not state of the package -/
  schedule : List Turn := []
  /-- the strand whose turn it is -/
  core : Nat := 0
  strand : Nat := 0
  /-- the sequencer whose turn it is, when a sequencer moves -/
  port : Nat := 0
  /-- the sequencer of `port` moves, not a strand -/
  seqTurn : Bool := false
  /-- free values used so far (the model's own; no statement rests on it) -/
  free : Nat := 0
  /-- numbers given to entries, transfers, boundaries, requests and xfences -/
  nextId : Nat := 1
  pkg : Package := {}
  flash : Flash := {}
  cores : Tbl Core := []
  groups : Tbl Group := []
  launches : Tbl Launch := []
  queues : Tbl Queue := []
  contexts : Tbl Context := []
  /-- keys of the worlds (spec/16_context.md R323) -/
  worldKeys : Tbl (BitVec 256) := []
  pool : Pool := {}
  ports : Tbl Port := []
  /-- the seed of the device's PUF once it has been reconstructed: the same at every power-on (spec/19_host.md R393) -/
  puf : Option (BitVec 768) := none
  /-- ports whose optical switches are released (spec/18_link.md R374) -/
  switches : Tbl Bool := []
  hbm : Mem := {}
  sealed : Mem := {}
  weights : Mem := {}
  /-- host memory: journal, completion rings and reports -/
  host : Tbl Byte := []
  /-- cluster sealed SRAM is keyed by cluster × 2^23 + offset -/
  history : Tbl (List Commit) := []
  /-- the number of commits made -/
  commits : Nat := 0
  /-- what additions to memory counters hand on, by counter and group (spec/10_phase.md R213) -/
  marks : Tbl Mark := []
  waitTable : List WaitEntry := []
  /-- the context at which the dispatcher's ring stands, by priority (spec/15_queue.md R312) -/
  ring : Tbl Nat := []
  ptp : Ptp := {}
  /-- the completion ring of the host at 0 and of world w at w -/
  completions : Tbl Completion := []
  attest : Attest := {}
  hbmHealth : Tbl Health := []
  vgHealth : Tbl Health := []
  /-- correctable errors counted in the present hour, by stack -/
  scrubCount : Tbl Nat := []
  /-- messages sent, oldest first -/
  outbox : List Sent := []
  /-- journal records of the present clock (spec/15_queue.md R317) -/
  jbuf : List JRec := []
  /-- what reports the transitions of the present clock (R315) -/
  reports : List Report := []
  /-- how far the present clock has come at each seat -/
  order : List (Seat × Nat) := []
  deriving DecidableEq, Repr

/-- The state right after reset (spec/01_package.md R19, R20): the package in RESET, every register at
the value the spec gives for reset, and nothing else on the package. Where the spec gives a register no
reset value, the field's default is the model's (log entries 1 to 4). -/
def State.reset : State := {}

end Sys2Proof.Machine
end

