-- ==== Sys2Proof/Machine/Access.lean ====
section
/-! DEFINITION. Reading and writing the numbered parts of the state, the free choices, and the passing
of time. -/

namespace Sys2Proof.Machine

/-- What a meaning answers. -/
abbrev Res := Host.Outcome State Fault Refusal

/-- The newest of what two signals hand on (spec/10_phase.md R213). -/
def Mark.join (a b : Mark) : Mark := { xf := max a.xf b.xf, rf := max a.rf b.rf }
def Strand.learn (t : Strand) (m : Mark) : Strand := { t with mark := t.mark.join m }

/-- The count of a semaphore. -/
def lotsCount (l : List (Nat × Mark)) : Nat := l.foldr (fun e n => e.1 + n) 0
def Sem.count (q : Sem) : Nat := lotsCount q.lots

/-- Take `n` counts, oldest first; what their signals hand on. -/
def takeLots : List (Nat × Mark) → Nat → List (Nat × Mark) × Mark
  | [], _ => ([], {})
  | (k, m) :: t, n =>
    if n = 0 then ((k, m) :: t, {})
    else if k ≤ n then
      let r := takeLots t (n - k)
      (r.1, m.join r.2)
    else ((k - n, m) :: t, m)

/-- A core by its physical number. -/
def State.coreAt (s : State) (c : Nat) : Core := s.cores.get {} c
def State.setCore (s : State) (c : Nat) (v : Core) : State := { s with cores := s.cores.set {} c v }
def State.modCore (s : State) (c : Nat) (f : Core → Core) : State := s.setCore c (f (s.coreAt c))

/-- A strand of a core. -/
def Core.strandAt (c : Core) (k : Nat) : Strand := c.strands.get {} k
def Core.setStrand (c : Core) (k : Nat) (v : Strand) : Core := { c with strands := c.strands.set {} k v }
def State.strandAt (s : State) (c k : Nat) : Strand := (s.coreAt c).strandAt k
def State.setStrand (s : State) (c k : Nat) (v : Strand) : State := s.modCore c (fun co => co.setStrand k v)
def State.modStrand (s : State) (c k : Nat) (f : Strand → Strand) : State := s.setStrand c k (f (s.strandAt c k))

/-- The strand whose turn it is. -/
def State.me (s : State) : Strand := s.strandAt s.core s.strand
def State.setMe (s : State) (v : Strand) : State := s.setStrand s.core s.strand v
def State.modMe (s : State) (f : Strand → Strand) : State := s.setMe (f s.me)
/-- Its core. -/
def State.myCore (s : State) : Core := s.coreAt s.core

/-- The group on a core. -/
def State.groupOf (s : State) (c : Nat) : Option Nat := (s.coreAt c).group
def State.modGroup (s : State) (g : Nat) (f : Group → Group) : State := { s with groups := s.groups.upd g f }
def State.modLaunch (s : State) (l : Nat) (f : Launch → Launch) : State := { s with launches := s.launches.upd l f }
def State.queueAt (s : State) (q : Nat) : Queue := s.queues.get {} q
def State.setQueue (s : State) (q : Nat) (v : Queue) : State := { s with queues := s.queues.set {} q v }
def State.modQueue (s : State) (q : Nat) (f : Queue → Queue) : State := s.setQueue q (f (s.queueAt q))
def State.ctxAt (s : State) (n : Nat) : Context := s.contexts.get {} n
def State.setCtx (s : State) (n : Nat) (v : Context) : State := { s with contexts := s.contexts.set {} n v }
def State.modCtx (s : State) (n : Nat) (f : Context → Context) : State := s.setCtx n (f (s.ctxAt n))
def State.portAt (s : State) (p : Nat) : Port := s.ports.get {} p
def State.setPort (s : State) (p : Nat) (v : Port) : State := { s with ports := s.ports.set {} p v }
def State.modPort (s : State) (p : Nat) (f : Port → Port) : State := s.setPort p (f (s.portAt p))
def State.modSeq (s : State) (p : Nat) (f : Sequencer → Sequencer) : State :=
  s.modPort p (fun q => { q with seq := f q.seq })
def Core.chan (c : Core) (ch : Nat) : Channel := c.channels.get {} ch
def Core.setChan (c : Core) (ch : Nat) (v : Channel) : Core := { c with channels := c.channels.set {} ch v }
def State.modChan (s : State) (c ch : Nat) (f : Channel → Channel) : State :=
  s.modCore c (fun co => co.setChan ch (f (co.chan ch)))
def Core.tile (c : Core) (t : Nat) : Tile := c.tiles.get {} t
def Core.setTile (c : Core) (t : Nat) (v : Tile) : Core := { c with tiles := c.tiles.set {} t v }
def Core.bank (c : Core) (t : Nat) : BankGroup := c.banks.get {} t
def Core.setBank (c : Core) (t : Nat) (v : BankGroup) : Core := { c with banks := c.banks.set {} t v }

/-- The group whose core the moving strand is on, with its number. -/
def State.myGroup (s : State) : Option (Nat × Group) :=
  match s.myCore.group with
  | none => none
  | some g => (s.groups.find? g).map (fun x => (g, x))

/-- The number of the moving strand's group. -/
def State.grp (s : State) : Nat := s.myCore.group.getD 0

/-- The context number of the moving strand. -/
def State.myCtx (s : State) : Nat :=
  match s.myGroup with
  | none => 0
  | some (_, g) => g.ctx

/-- The rank of a core in its group (spec/12_group.md R250). -/
def rankIn : List Nat → Nat → Nat
  | [], _ => 0
  | c' :: cs, c => if c = c' then 0 else rankIn cs c + 1

/-- The die and the cluster of a core (spec/16_context.md R341: p = die × 128 + cluster × 8 + core). -/
def dieOf (c : Nat) : Nat := c / Config.coresPerDie
def clusterOf (c : Nat) : Nat := c / Config.coresPerCluster

/-- A field of a 64-bit register as a number. -/
def bitsOf (w : Word) (lo wd : Nat) : Nat := (w.extractLsb' lo wd).toNat

/-- A descriptor word of a context (spec/16_context.md R321). -/
def Context.word (c : Context) (i : Nat) : Word := c.desc.get 0 i
def Context.world (c : Context) : BitVec 8 := (c.word 0).extractLsb' 56 8
/-- A descriptor word of a queue (spec/15_queue.md R298). -/
def Queue.word (q : Queue) (i : Nat) : Word := q.desc.get 0 i
def Queue.ctx (q : Queue) : Nat := bitsOf (q.word 3) 44 12
def Queue.world (q : Queue) : BitVec 8 := (q.word 3).extractLsb' 56 8
def Queue.look (q : Queue) : Nat := bitsOf (q.word 2) 48 4
def Queue.dev (q : Queue) : Bool := (q.word 3).getLsbD 2
def Queue.prio (q : Queue) : Nat := bitsOf (q.word 3) 8 3
/-- A queue whose `WORLD` is nonzero and whose `DEV` is 0 is authenticated (R298). -/
def Queue.authenticated (q : Queue) : Bool := q.world != 0 && !q.dev

/-- A fresh number. -/
def State.fresh (s : State) : Nat × State := (s.nextId, { s with nextId := s.nextId + 1 })

/-- A choice among `n` outcomes that the spec leaves open: a free value (log entry 5). -/
def State.pick (s : State) (n : Nat) : Nat × State :=
  if n ≤ 1 then (0, s) else (Config.freeValue s.free % n, { s with free := s.free + 1 })

/-- Put turns at the head of the schedule: they take place in the same clock. -/
def State.soon (s : State) (ms : List Mover) : State :=
  { s with schedule := ms.map (fun m => { mover := m, clocks := 0 }) ++ s.schedule }

/-- A message leaves the package. -/
def State.send (s : State) (m : Sent) : State := { s with outbox := s.outbox ++ [m] }

/-- A new clock: what was put in can be taken, the increments of the old clock are added, and the rotating order moves
on (spec/05_strand.md R89, spec/13_barrier.md R266). -/
def Rotor.rank (r : Rotor) (k : Nat) : Nat := (k + 7 - r.base) % 8
def Rotor.serve (r : Rotor) (k : Nat) : Rotor := { r with served := r.served ++ [k] }
/-- The strand of a list that comes first. -/
def Rotor.first (r : Rotor) : List Nat → Option Nat
  | [] => none
  | k :: ks => match r.first ks with
    | none => some k
    | some j => if r.rank k ≤ r.rank j then some k else some j
def Rotor.turn (r : Rotor) : Rotor :=
  { base := if r.contend || decide (2 ≤ r.served.length) then (r.first r.served).getD r.base else r.base }
def Sem.turn (q : Sem) : Sem := { lots := q.lots ++ q.inc }
def Core.nextClock (c : Core) : Core :=
  { c with fresh := [], issued := [], vstarts := 0, sem := c.sem.map (fun e => (e.1, e.2.turn)), rotor := c.rotor.foldl (fun t e => t.set {} e.1 e.2.turn) [] }

/-- Counters 0 and 7 of R342 after `n` clocks, of which the present one is the first: clocks in which the group was RUNNING on the
core, and strand-clocks RUNNING without issue. -/
def Core.tick (c : Core) (running : Bool) (n : Nat) : Core :=
  if running then
    let l := c.strands.filter (fun e => e.2.life == .running)
    let k := n * l.length - (l.filter (fun e => c.issued.contains e.1)).length
    let t := c.counters.set 0 0 (c.counters.get 0 0 + BitVec.ofNat 64 n)
    { c.nextClock with counters := t.set 0 7 (t.get 0 7 + BitVec.ofNat 64 k) }
  else c.nextClock

/-- The group of a core is RUNNING. -/
def State.coreRuns (s : State) (c : Core) : Bool :=
  match c.group with
  | none => false
  | some g => match s.groups.find? g with
    | none => false
    | some x => x.st == .running

/-- The strands of a core, and the copies of them in which overtaken instructions are to be performed (spec/05_strand.md
R86). -/
def Core.performers (c : Core) : List (Nat × Strand) :=
  c.strands ++ (c.out.filter (fun e => !e.done)).map (fun e => (e.k, e.snap))

/-- An operation of a link program. -/
def RemoteKind.link : RemoteKind → Bool
  | .get _ _ _ _ _ => true
  | .put _ _ _ _ => true
  | _ => false

/-- Link operations of a group are outstanding. -/
def State.linkBusy (s : State) (g : Nat) : Bool := s.pool.remotes.any (fun e => e.2.grp == g && e.2.kind.link)

/-- A group that is being pre-empted is held by the pool: a strand waits for a page, a remote operation or a boundary's pool
units, or its save waits for remote operations of its sequencers (spec/16_context.md R335 `PMEMW`). -/
def State.poolHeld (s : State) (g : Nat) (x : Group) : Bool :=
  s.linkBusy g || x.cores.any (fun c => (s.coreAt c).performers.any (fun t =>
    t.2.micro.stage != 0 && t.2.life != .waiting &&
    (!t.2.micro.ids.isEmpty || x.ver.bounds.any (fun b => !b.punits.isEmpty) ||
     s.pool.remotes.any (fun r => r.2.grp == g && r.1 == t.2.micro.id))))

/-- The groups after `n` clocks: `PMEMW` of those being pre-empted. -/
def State.tickGroups (s : State) (n : Nat) : Tbl Group :=
  s.groups.map (fun e => (e.1, if e.2.preemptAt.isSome && s.poolHeld e.1 e.2 then { e.2 with pmemw := e.2.pmemw + n } else e.2))

/-- The correction that `n` nanoseconds slew in, at most the rate of the time passed (spec/19_host.md R388). -/
def Ptp.slewed (p : Ptp) (n : Nat) : Int × Ptp :=
  if p.slew = 0 then (0, p)
  else
    let acc := p.slewAcc + n * p.slewRate
    let k : Int := (min (acc / 1000000) p.slew.natAbs : Nat)
    let d := if 0 < p.slew then k else -k
    (d, { p with slew := p.slew - d, slewAcc := acc % 1000000 })

/-- Clocks pass, each of 0.625 ns (spec/00_scope.md R5). Package time runs from IDENTIFY on (R20). -/
def State.elapse (s : State) (clocks : Nat) : State :=
  let ns := (s.pkg.frac + 5 * clocks) / 8
  { s with
    pkg := { s.pkg with clocks := s.pkg.clocks + clocks, frac := (s.pkg.frac + 5 * clocks) % 8, up := s.pkg.up + ns,
                        ns := if s.pkg.timeRuns then ((s.pkg.ns + ns : Nat) + (s.ptp.slewed ns).1).toNat else s.pkg.ns }
    ptp := (s.ptp.slewed ns).2
    order := if clocks = 0 then s.order else []
    cores := if clocks = 0 then s.cores
             else s.cores.map (fun e => (e.1, e.2.tick (s.coreRuns e.2) clocks))
    groups := if clocks = 0 then s.groups else s.tickGroups clocks }

end Sys2Proof.Machine
end

