-- ==== Sys2Proof/Machine/Crypto.lean ====
section
/-! DEFINITION. The published functions that the spec names: SHAKE256 (spec/15_queue.md R316), KMAC256
(R313) and the identity digest, after FIPS 202 and SP 800-185 (PRESUMED, log entry 6), and CRC-64/XZ. -/

namespace Sys2Proof.Machine

/-- Round constants of Keccak-f[1600]. -/
def keccakRC : List Word :=
  [0x0000000000000001, 0x0000000000008082, 0x800000000000808A, 0x8000000080008000,
   0x000000000000808B, 0x0000000080000001, 0x8000000080008081, 0x8000000000008009] ++
  [0x000000000000008A, 0x0000000000000088, 0x0000000080008009, 0x000000008000000A,
   0x000000008000808B, 0x800000000000008B, 0x8000000000008089, 0x8000000000008003] ++
  [0x8000000000008002, 0x8000000000000080, 0x000000000000800A, 0x800000008000000A,
   0x8000000080008081, 0x8000000000008080, 0x0000000080000001, 0x8000000080008008]

/-- Rotation offsets, by lane x + 5y. -/
def keccakRot : List Nat :=
  [0, 1, 62, 28, 27, 36, 44, 6, 55, 20, 3, 10, 43, 25, 39, 41, 45, 15, 21, 8, 18, 2, 61, 56, 14]

/-- A lane of the state. -/
def lane (a : List Word) (x y : Nat) : Word := a.getD (x % 5 + 5 * (y % 5)) 0

/-- One round. -/
def keccakRound (a : List Word) (rc : Word) : List Word :=
  let c := (List.range 5).map (fun x => lane a x 0 ^^^ lane a x 1 ^^^ lane a x 2 ^^^ lane a x 3 ^^^ lane a x 4)
  let d := (List.range 5).map (fun x => c.getD ((x + 4) % 5) 0 ^^^ (c.getD ((x + 1) % 5) 0).rotateLeft 1)
  let t := (List.range 25).map (fun i => a.getD i 0 ^^^ d.getD (i % 5) 0)
  -- lane (y, 2x + 3y) of the next array is lane (x, y) rotated
  let b := (List.range 25).map (fun i =>
    let y' := i / 5
    let x' := i % 5
    let x := (x' + 3 * y') % 5
    (lane t x x').rotateLeft (keccakRot.getD (x + 5 * x') 0))
  let e := (List.range 25).map (fun i => lane b i (i / 5) ^^^ (~~~ lane b (i % 5 + 1) (i / 5) &&& lane b (i % 5 + 2) (i / 5)))
  match e with
  | [] => []
  | h :: r => (h ^^^ rc) :: r

/-- The permutation. -/
def keccakF (a : List Word) : List Word := keccakRC.foldl keccakRound a

/-- Cut a list into blocks of `n`, from fuel that bounds the number of blocks. -/
def blocksOf {α : Type} (n : Nat) : Nat → List α → List (List α)
  | 0, _ => []
  | k + 1, l => match l with
    | [] => []
    | _ => l.take n :: blocksOf n k (l.drop n)

/-- Absorb one block of the rate (136 bytes: 17 lanes). -/
def keccakAbsorb (a : List Word) (blk : List Byte) : List Word :=
  let lanes := (blocksOf 8 17 blk).map (fun l => BitVec.ofNat 64 (natLE l))
  keccakF ((List.range 25).map (fun i => a.getD i 0 ^^^ lanes.getD i 0))

/-- The sponge with rate 136 and suffix byte `sfx`; the output of at most 136 bytes. -/
def keccakSponge (sfx : Byte) (msg : List Byte) (n : Nat) : List Byte :=
  let pad := 136 - msg.length % 136
  let tail := if pad = 1 then [sfx ||| 0x80] else sfx :: (List.replicate (pad - 2) 0 ++ [0x80])
  let m := msg ++ tail
  let st := (blocksOf 136 (m.length / 136) m).foldl keccakAbsorb (List.replicate 25 0)
  (st.flatMap (fun w => bytesLE 8 w.toNat)).take n

/-- SHAKE256 with at most 136 bytes of output. -/
def shake256 (msg : List Byte) (n : Nat) : List Byte := keccakSponge 0x1F msg n

/-- Big-endian bytes of a number without leading zero bytes, at least one. -/
def bytesBE (v : Nat) : List Byte :=
  match ((bytesLE 8 v).reverse.dropWhile (fun b => b == 0)) with
  | [] => [0]
  | l => l
/-- SP 800-185 `left_encode` and `right_encode`. -/
def leftEncode (v : Nat) : List Byte := BitVec.ofNat 8 (bytesBE v).length :: bytesBE v
def rightEncode (v : Nat) : List Byte := bytesBE v ++ [BitVec.ofNat 8 (bytesBE v).length]
def encodeString (bs : List Byte) : List Byte := leftEncode (8 * bs.length) ++ bs
def bytePad (bs : List Byte) : List Byte :=
  let m := leftEncode 136 ++ bs
  m ++ List.replicate ((136 - m.length % 136) % 136) 0

/-- The bytes of an ASCII text. -/
def ascii (t : String) : List Byte := t.toList.map (fun c => BitVec.ofNat 8 c.toNat)

/-- KMAC256 with a customisation string and `n` bytes of output. -/
def kmac256 (key msg : List Byte) (custom : String) (n : Nat) : List Byte :=
  let m := bytePad (encodeString (ascii "KMAC") ++ encodeString (ascii custom)) ++
    (bytePad (encodeString key) ++ msg ++ rightEncode (8 * n))
  keccakSponge 0x04 m n

/-- The first four bytes of a SHAKE256 output as a little-endian number (R316). -/
def digestOf (bs : List Byte) : BitVec 32 := BitVec.ofNat 32 (natLE (shake256 bs 4))

end Sys2Proof.Machine
end

