-- ==== Sys2Proof/Machine/Flit.lean ====
section
/-! DEFINITION. Flits: their bytes and their CRCs (spec/18_link.md R364), the messages that they carry (R367), and
the sender's numbering, replay buffer and acknowledgement (R366). -/

namespace Sys2Proof.Machine

/-! CRC-64/XZ. -/

/-- One bit of the reflected ECMA-182 polynomial. -/
def crcBit (c : Word) : Word := if c.getLsbD 0 then (c >>> 1) ^^^ 0xC96C5795D7870F42 else c >>> 1
/-- One byte. -/
def crcByte (c : Word) (b : Byte) : Word := (List.range 8).foldl (fun c _ => crcBit c) (c ^^^ b.setWidth 64)
/-- CRC-64/XZ of a byte list (R364). -/
def crc64 (bs : List Byte) : Word := ~~~ (bs.foldl crcByte (BitVec.allOnes 64))

/-! The header. -/

/-- A flit's header (R364). -/
structure FlitHead where
  kind : Nat := 0
  seq : Nat := 0
  ackseq : Nat := 0
  ackv : Bool := false
  first : Bool := false
  last : Bool := false
  opc : BitVec 8 := 0
  tag : Nat := 0
  plen : Nat := 0
  pmask : BitVec 4 := 0
  credit : Nat := 0
  deriving DecidableEq, Repr

/-- The header as a 128-bit number. -/
def FlitHead.num (h : FlitHead) : Nat :=
  h.kind % 16 * 2 ^ 124 + h.seq % 4096 * 2 ^ 112 + h.ackseq % 4096 * 2 ^ 100 + h.ackv.toNat * 2 ^ 99 + h.first.toNat * 2 ^ 98 +
  h.last.toNat * 2 ^ 97 + h.opc.toNat * 2 ^ 88 + h.tag % 65536 * 2 ^ 72 + h.plen % 512 * 2 ^ 63 + h.pmask.toNat * 2 ^ 48 +
  h.credit % 65536 * 2 ^ 32

/-- The header that a 128-bit number holds; none where a reserved field is not 0 or the kind is reserved. -/
def FlitHead.of (v : BitVec 128) : Option FlitHead :=
  let h : FlitHead :=
    { kind := (v.extractLsb' 124 4).toNat, seq := (v.extractLsb' 112 12).toNat, ackseq := (v.extractLsb' 100 12).toNat,
      ackv := v.getLsbD 99, first := v.getLsbD 98, last := v.getLsbD 97, opc := v.extractLsb' 88 8,
      tag := (v.extractLsb' 72 16).toNat, plen := (v.extractLsb' 63 9).toNat, pmask := v.extractLsb' 48 4,
      credit := (v.extractLsb' 32 16).toNat }
  if h.kind ≤ 3 && h.num == v.toNat then some h else none

/-- The 288 bytes of a flit. -/
def flitBytes (h : FlitHead) (data : List Byte) : List Byte :=
  let head := bytesLE 16 h.num
  let body := (data ++ List.replicate 256 0).take 256
  (head ++ body) ++ (bytesLE 8 (crc64 head).toNat ++ bytesLE 8 (crc64 (head ++ body)).toNat)

/-- What a receiver makes of a flit: nothing where `HCRC` fails; the acknowledgement fields alone where `FCRC` fails or
the flit is malformed; else header and payload. -/
inductive Received
  | nothing
  | bad (ackseq : Option Nat)
  | good (h : FlitHead) (payload : List Byte)
  deriving DecidableEq

/-- The acknowledgement that a header number carries. -/
def ackOf (v : BitVec 128) : Option Nat := if v.getLsbD 99 then some (v.extractLsb' 100 12).toNat else none

/-- Check a flit (R364). -/
def receiveFlit (bs : List Byte) : Received :=
  let head := bs.take 16
  let body := bs.take 272
  let v := BitVec.ofNat 128 (natLE head)
  if bs.length != 288 || natLE ((bs.drop 272).take 8) != (crc64 head).toNat then .nothing
  else if natLE (bs.drop 280) != (crc64 body).toNat then .bad (ackOf v)
  else match FlitHead.of v with
    | none => .bad (ackOf v)
    | some h => .good h ((body.drop 16).take h.plen)

/-! Messages. -/

/-- The 32 bytes of a message's fixed part (R367). -/
def fixedPart (token : Word) (obj lenM1 off : Nat) (arg : Word) : List Byte :=
  (bytesLE 8 token.toNat ++ bytesLE 8 (obj % 2 ^ 48 * 65536 + lenM1 % 65536)) ++ (bytesLE 8 off ++ bytesLE 8 arg.toNat)

/-- The runs of consecutive addresses of a list of writes in rising order. -/
def runsOf : List (Nat × Byte) → List (Nat × List Byte)
  | [] => []
  | (a, b) :: r => match runsOf r with
    | (a', l) :: rs => if a' = a + 1 then (a, b :: l) :: rs else (a, [b]) :: (a', l) :: rs
    | [] => [(a, [b])]

/-- A message as opcode, tag and payload; a unit written with gaps goes as one WRITE for each run of bytes, and a
compare-and-swap as an atomic of code 7 with the compare value as data (log entry 36). A PTP message's bytes are those
of IEEE 1588, which the model leaves out of flits. -/
def Sent.messages (token : Word) : Sent → List (BitVec 8 × Nat × List Byte)
  | .read tag _ obj off len ms t => [(0x02, tag, fixedPart t obj (len - 1) off (BitVec.ofNat 64 ms))]
  | .write tag _ obj _ bytes t =>
    (runsOf bytes).map (fun r => (0x03, tag, fixedPart t obj (r.2.length - 1) (r.1 % 2 ^ 48) 0 ++ r.2))
  | .atomic tag _ obj off size op operand compare cas t =>
    let code := if cas then 7 else op.toNat
    [(0x04, tag, fixedPart t obj (code * 4096 + (size - 1)) off operand ++ (if cas then bytesLE size compare.toNat else []))]
  | .renew tag _ obj page ms t => [(0x05, tag, fixedPart t obj 65535 (page * 65536) (BitVec.ofNat 64 ms))]
  | .revokeAck tag obj page => [(0x06, tag, fixedPart token obj 65535 (page * 65536) 0)]
  | .put tag _ off bytes none => [(0x07, tag, fixedPart token 0 (bytes.length - 1) off 0 ++ bytes)]
  | .put tag _ off bytes (some (c, dec)) =>
    [(0x08, tag, fixedPart token 0 (bytes.length - 1) off (BitVec.ofNat 64 (dec % 65536 * 2 ^ 48 + c % 2 ^ 48)) ++ bytes)]
  | .putAck tag _ status => [(0x87, tag, fixedPart token 0 0 0 (status.setWidth 64))]
  | .session tag => [(0x01, tag, fixedPart token 0 0 0 0)]
  | .sessionClosed _ => []
  | .released _ _ => []
  | .delayReq _ => []
  | .train _ _ _ => []
  | .flit _ _ => []

/-- The flits of a message (R367). -/
def flitsOf (m : BitVec 8 × Nat × List Byte) : List FlitBody :=
  let bs := blocksOf 256 (m.2.2.length / 256 + 1) m.2.2
  (List.zip (List.range bs.length) bs).map (fun e =>
    { first := e.1 == 0, last := e.1 + 1 == bs.length, opc := m.1, tag := m.2.1, data := e.2 : FlitBody })

/-! Training messages. -/

/-- The first 48 payload bytes of a TRAIN flit that carries message `kind` (R370). -/
def trainBytes (kind : Nat) (m : TrainMsg) : List Byte :=
  bytesLE 8 (kind % 16 * 2 ^ 60 + m.trate.toNat * 2 ^ 58 + m.tseq.toNat * 2 ^ 44 + m.txset.toNat) ++
  (bytesLE 8 (m.rxset.toNat * 2 ^ 48 + m.usea.toNat * 2 ^ 32 + m.useb.toNat * 2 ^ 16) ++ (bytesLE 8 m.pid.toNat ++ List.replicate 24 0))

/-- The message number and the message in a TRAIN flit's payload; none where a reserved field is not 0. -/
def trainOf (payload : List Byte) : Option (Nat × TrainMsg) :=
  let w := fun i => BitVec.ofNat 64 (natLE ((payload.drop (8 * i)).take 8))
  let m : TrainMsg :=
    { trate := (w 0).extractLsb' 58 2, tseq := (w 0).extractLsb' 44 8, txset := (w 0).extractLsb' 0 16,
      rxset := (w 1).extractLsb' 48 16, usea := (w 1).extractLsb' 32 16, useb := (w 1).extractLsb' 16 16, pid := w 2 }
  if trainBytes (bitsOf (w 0) 60 4) m == payload.take 48 then some (bitsOf (w 0) 60 4, m) else none

/-! The sender. -/

/-- The port carries messages. -/
def Port.up (p : Port) : Bool := p.st == .active || p.st == .degraded

/-- A DATA flit with its number. -/
def FlitBody.bytes (b : FlitBody) (seq credit : Nat) : List Byte :=
  flitBytes { kind := 1, seq := seq, first := b.first, last := b.last, opc := b.opc, tag := b.tag, plen := b.data.length,
              credit := credit } b.data

/-- A flit that carries no message: IDLE or NAK, with the acknowledgement (R366). -/
def State.sendAck (s : State) (p kind : Nat) : State :=
  let q := s.portAt p
  (s.setPort p { q with credit := 0, unacked := 0 }).send
    (.flit p (flitBytes { kind := kind, ackseq := q.rxSeq, ackv := true, credit := q.credit } []))

/-- The flit is one of a request that expects a response (R367). -/
def FlitBody.request (b : FlitBody) : Bool := [1, 2, 3, 4, 5, 7, 8].contains b.opc.toNat
/-- Flits of a request still wait for their turn at the port. -/
def Port.unsent (q : Port) (tag : Nat) : Bool := q.outq.any (fun b => b.request && b.tag == tag)

/-- A flit of an attempt leaves: the attempt times out 4 µs after its last one (R368). -/
def State.flitLeft (s : State) (p : Nat) (b : FlitBody) : State :=
  if b.request then
    { s with pool := { s.pool with remotes := s.pool.remotes.upd b.tag (fun r =>
        if r.port = p ∧ !r.backoff then { r with deadline := s.pkg.up + 4000 } else r) } }
  else s

/-- Number a new flit, keep it for replay and send it (R366). -/
def State.sendFlit (s : State) (p : Nat) (b : FlitBody) : State :=
  let q := s.portAt p
  let q' : Port := { q with txSeq := (q.txSeq + 1) % 4096, replay := q.replay ++ [(q.txSeq, b)], credit := 0,
                            lastProgress := if q.replay.isEmpty then s.pkg.up else q.lastProgress }
  ((s.setPort p q').flitLeft p b).send (.flit p (b.bytes q.txSeq q.credit))

/-- Send what waits, up to 512 flits unacknowledged, and IDLE flits with so many (R366); a direction that restripes sends no
new flits (R372). -/
def State.pump (s : State) (p : Nat) : State :=
  let q := s.portAt p
  if q.up && q.txRestripe.isNone && s.pkg.st != .failed then
    let n := 512 - q.replay.length
    let s := (q.outq.take n).foldl (fun s b => s.sendFlit p b) (s.setPort p { q with outq := q.outq.drop n })
    if (s.portAt p).replay.length < 512 then s else s.sendAck p 0
  else s

/-- Send a message on a port: it is noted, and its flits wait for their turn. -/
def State.transmit (s : State) (p : Nat) (m : Sent) : State :=
  let fs := (m.messages (s.pool.token.getD 0)).flatMap flitsOf
  ((s.send m).modPort p (fun q => { q with outq := q.outq ++ fs })).pump p

/-- Resend everything unacknowledged in order (R366). -/
def State.replayAll (s : State) (p : Nat) : State :=
  let s := s.modPort p (fun q => { q with lastProgress := s.pkg.up })
  (s.portAt p).replay.foldl (fun s e => s.send (.flit p (e.2.bytes e.1 0))) s

/-- An `ACKSEQ` arrives: the flits before it are freed; the flag tells whether it lay in the unacknowledged window
(R366). -/
def State.acked (s : State) (p ackseq : Nat) : Bool × State :=
  let q := s.portAt p
  let oldest := (q.txSeq + 4096 - q.replay.length) % 4096
  let d := (ackseq + 4096 - oldest) % 4096
  if q.replay.length < d then (false, s)
  else if d = 0 then (true, s)
  else (true, s.setPort p { q with replay := q.replay.drop d, lastProgress := s.pkg.up })

/-- The flits of messages not yet begun that carry one of the tags are taken back (spec/18_link.md R378). -/
def Port.takeBack (q : Port) (tags : List Nat) : Port :=
  let waiting := (q.outq.filter (fun b => b.first)).map (fun b => b.tag)
  { q with outq := q.outq.filter (fun b => !(tags.contains b.tag && waiting.contains b.tag)) }

end Sys2Proof.Machine
end

