-- ==== Sys2Proof/WellFormed.lean ====
section
/-! DEFINITION. Which instructions are well formed: the operand namespaces of spec/02_encoding.md
R29 and R30, the field limits of R31 to R39 and of each instruction's entry, and the ranges of the
indices that an event or a host operation names. -/

namespace Sys2Proof

/-- Bits [31:28] of a first word are never 0b1111 (spec/02_encoding.md R27). -/
def Pre.ok (p : Pre) : Bool := !(p.wp && p.wn && p.sp && p.sn)

/-- `tokpush` sets a push bit and no wait bit (spec/13_barrier.md R268). -/
def Pre.pushOnly (p : Pre) : Bool := (p.sp || p.sn) && !p.wp && !p.wn

/-- `tokpop` sets a wait bit and no push bit (spec/13_barrier.md R268). -/
def Pre.takeOnly (p : Pre) : Bool := (p.wp || p.wn) && !p.sp && !p.sn

/-- A scalar source: x0 to x47, o0 to o7, l0 to l3, zero (R29). -/
def ssrc (v : BitVec 6) : Bool := decide (v.toNat ≤ 60)
/-- A scalar destination: x0 to x47, o0 to o7, zero (R29). -/
def sdst (v : BitVec 6) : Bool := decide (v.toNat ≤ 55) || v == 60
/-- A vector source: v, w and z registers, a broadcast o or l register, zero (R29). -/
def vsrc (v : BitVec 6) : Bool := decide (v.toNat ≤ 41) || (decide (48 ≤ v.toNat) && decide (v.toNat ≤ 60))
/-- A vector destination: v and w registers, zero (R29). -/
def vdst (v : BitVec 6) : Bool := decide (v.toNat ≤ 39) || v == 60
/-- A predicate p0 to p15 in a 6-bit field (R30). -/
def predIx (v : BitVec 6) : Bool := decide (v.toNat ≤ 15)
/-- A mask m0 to m7 (R30). -/
def maskIx (v : BitVec 6) : Bool := decide (v.toNat ≤ 7)
/-- A branch-target register b0 to b7 (R30). -/
def btr (v : BitVec 6) : Bool := decide (v.toNat ≤ 7)
/-- A capability register c0 to c15 (R30). -/
def capIx (v : BitVec 6) : Bool := decide (v.toNat ≤ 15)
/-- A tile a0 to a3 (R30). -/
def tileIx (v : BitVec 6) : Bool := decide (v.toNat ≤ 3)
/-- A semaphore k0 to k15 (R30). -/
def semIx (v : BitVec 6) : Bool := decide (v.toNat ≤ 15)
/-- A copy channel 0 to 7 (R30). -/
def chanIx (v : BitVec 6) : Bool := decide (v.toNat ≤ 7)
/-- A group barrier 0 to 3 (spec/13_barrier.md R264), and `gsize`'s selector (spec/12_group.md R257). -/
def barIx (v : BitVec 6) : Bool := decide (v.toNat ≤ 3)
/-- A selector 0 to 4 (spec/12_group.md R257, spec/14_kernel.md R291, spec/17_refinement.md R354). -/
def upTo4 (v : BitVec 6) : Bool := decide (v.toNat ≤ 4)
/-- A system register 0 to 9 (spec/16_context.md R346). -/
def sysReg (v : BitVec 6) : Bool := decide (v.toNat ≤ 9)
/-- `lsetup`'s immediate count is not negative (spec/05_strand.md R106). -/
def nonneg12 (v : BitVec 12) : Bool := decide (v.toNat ≤ 2047)
/-- A count that must not be 0. -/
def nonzero6 (v : BitVec 6) : Bool := v != 0
/-- A token count 1 to 15 (spec/13_barrier.md R268). -/
def tokenCount (v : BitVec 6) : Bool := decide (1 ≤ v.toNat) && decide (v.toNat ≤ 15)
/-- A bit field lies in the register: `POS` + W ≤ 64 (spec/06_scalar.md R123). -/
def fieldFits (pos wm : BitVec 6) : Bool := decide (pos.toNat + wm.toNat + 1 ≤ 64)
/-- `vcvt`'s format code (spec/07_vector.md R141). -/
def cvtFmt (f : BitVec 4) : Bool := decide (f.toNat ≤ 9) && f != 3
/-- A vector register v0 to v31. -/
def vmain (v : BitVec 6) : Bool := decide (v.toNat ≤ 31)
/-- The base of a register pair (spec/07_vector.md R143). -/
def vpair (v : BitVec 6) : Bool := decide (v.toNat ≤ 30) && v.toNat % 2 == 0
/-- The base of an eight-register group (spec/07_vector.md R147). -/
def voct (v : BitVec 6) : Bool := decide (v.toNat ≤ 24) && v.toNat % 8 == 0
/-- `vtrn`'s unit code (spec/07_vector.md R147). -/
def trnUnit (n : BitVec 2) : Bool := n != 3
/-- The one-word form of a memory access (spec/02_encoding.md R32). -/
def oneWord (e : BitVec 4) : Bool := e.extractLsb' 2 2 != 2
/-- A semaphore field is 0 when its count is 0 (spec/08_tile.md R167). -/
def semUse (k n : BitVec 4) : Bool := n != 0 || k == 0
/-- A load's ordering is plain or acquire (spec/02_encoding.md R34). -/
def ldOrd (o : BitVec 2) : Bool := o == 0 || o == 1
/-- A store's ordering is plain or release (spec/02_encoding.md R34). -/
def stOrd (o : BitVec 2) : Bool := o == 0 || o == 2
/-- An atomic without return names destination 60 (spec/02_encoding.md R36). -/
def retUse (ret : BitVec 1) (d : BitVec 6) : Bool := ret == 1 || d == 60
/-- `AOP` 0b111 is illegal (spec/02_encoding.md R36). -/
def amoOp (op : BitVec 3) : Bool := op != 7
/-- `probe`'s access kind (spec/02_encoding.md R43). -/
def probeKind (k : BitVec 2) : Bool := k != 3
/-- `qfence` names at least one queue (spec/10_phase.md R224). -/
def someQueue (q : BitVec 3) : Bool := q != 0
/-- `enq`'s first spore register (spec/15_queue.md R318). -/
def sporeReg (a : BitVec 6) : Bool := decide (a.toNat ≤ 40) && a.toNat % 8 == 0
/-- `sq.cfg`'s field and, for `kind`, its value's zero bits (spec/18_link.md R379). -/
def sqField (f : BitVec 4) (v : BitVec 48) : Bool :=
  decide (f.toNat ≤ 2) || (f == 3 && v.extractLsb' 2 2 == 0 && v.extractLsb' 8 40 == 0)

/-- A physical core number (spec/16_context.md R341). -/
def coreIx (c : Nat) : Bool := decide (c < 512)
/-- A strand of a core (spec/05_strand.md). -/
def strandIx (k : Nat) : Bool := decide (k < 8)
/-- An optical port (spec/18_link.md R361). -/
def portIx (p : Nat) : Bool := decide (p < 80)
/-- A queue (spec/15_queue.md R298). -/
def queueIx (q : Nat) : Bool := decide (q < 1024)
/-- A context (spec/16_context.md R320). -/
def ctxIx (n : Nat) : Bool := decide (n < 4096)
/-- A copy channel. -/
def channelIx (ch : Nat) : Bool := decide (ch < 8)
/-- A compute die (spec/01_package.md R13). -/
def dieIx (d : Nat) : Bool := decide (d < 4)
/-- An HBM stack (spec/01_package.md R13). -/
def stackIx (n : Nat) : Bool := decide (n < 16)
/-- A lane of a port (spec/18_link.md R361). -/
def laneIx (n : Nat) : Bool := decide (n < 16)

/-- The well-formed instructions: those whose words are legal (spec/02_encoding.md R46), and the
events whose indices name something the package has. -/
def Instr.wf : Instr → Bool
  | .bprep pre _ _ => pre.ok
  | .bprepi pre b a => pre.ok && btr b && ssrc a
  | .bprepiMeta pre b a => pre.ok && btr b && ssrc a
  | .bget pre d b => pre.ok && sdst d && btr b
  | .bgetMeta pre d b => pre.ok && sdst d && btr b
  | .binv pre _ => pre.ok
  | .jmp pre _ _ _ => pre.ok
  | .call pre _ _ _ => pre.ok
  | .lsetupReg pre _ _ a => pre.ok && ssrc a
  | .lsetupImm pre _ _ i => pre.ok && nonneg12 i
  | .lclose pre => pre.ok
  | .lbreak pre _ _ => pre.ok
  | .nop pre => pre.ok
  | .ifence pre => pre.ok
  | .sdone pre => pre.ok
  | .trap pre _ => pre.ok
  | .brk pre _ => pre.ok
  | .eret pre => pre.ok
  | .sysrd pre d r => pre.ok && sdst d && sysReg r
  | .syswr pre r a => pre.ok && sysReg r && ssrc a
  | .pcrd pre d _ _ => pre.ok && sdst d
  | .yield pre d => pre.ok && sdst d
  | .add pre d a b => pre.ok && sdst d && ssrc a && ssrc b
  | .sub pre d a b => pre.ok && sdst d && ssrc a && ssrc b
  | .mul pre d a b => pre.ok && sdst d && ssrc a && ssrc b
  | .mulh pre d a b => pre.ok && sdst d && ssrc a && ssrc b
  | .mulhu pre d a b => pre.ok && sdst d && ssrc a && ssrc b
  | .min pre d a b => pre.ok && sdst d && ssrc a && ssrc b
  | .max pre d a b => pre.ok && sdst d && ssrc a && ssrc b
  | .minu pre d a b => pre.ok && sdst d && ssrc a && ssrc b
  | .maxu pre d a b => pre.ok && sdst d && ssrc a && ssrc b
  | .and pre d a b => pre.ok && sdst d && ssrc a && ssrc b
  | .or pre d a b => pre.ok && sdst d && ssrc a && ssrc b
  | .xor pre d a b => pre.ok && sdst d && ssrc a && ssrc b
  | .andn pre d a b => pre.ok && sdst d && ssrc a && ssrc b
  | .orn pre d a b => pre.ok && sdst d && ssrc a && ssrc b
  | .sll pre d a b => pre.ok && sdst d && ssrc a && ssrc b
  | .srl pre d a b => pre.ok && sdst d && ssrc a && ssrc b
  | .sra pre d a b => pre.ok && sdst d && ssrc a && ssrc b
  | .rotr pre d a b => pre.ok && sdst d && ssrc a && ssrc b
  | .addi pre d a _ => pre.ok && sdst d && ssrc a
  | .slli pre d a _ => pre.ok && sdst d && ssrc a
  | .srli pre d a _ => pre.ok && sdst d && ssrc a
  | .srai pre d a _ => pre.ok && sdst d && ssrc a
  | .clz pre d a => pre.ok && sdst d && ssrc a
  | .ctz pre d a => pre.ok && sdst d && ssrc a
  | .popc pre d a => pre.ok && sdst d && ssrc a
  | .sextB pre d a => pre.ok && sdst d && ssrc a
  | .sextH pre d a => pre.ok && sdst d && ssrc a
  | .sextW pre d a => pre.ok && sdst d && ssrc a
  | .zextB pre d a => pre.ok && sdst d && ssrc a
  | .zextH pre d a => pre.ok && sdst d && ssrc a
  | .zextW pre d a => pre.ok && sdst d && ssrc a
  | .pget pre d => pre.ok && sdst d
  | .pset pre a => pre.ok && ssrc a
  | .movi pre d _ => pre.ok && sdst d
  | .movhi pre d _ => pre.ok && sdst d
  | .cmp pre _ _ a b => pre.ok && ssrc a && ssrc b
  | .cmpUnsignedTest pre _ _ a b => pre.ok && ssrc a && ssrc b
  | .cmpi pre _ _ a _ => pre.ok && ssrc a
  | .cmpiUnsignedTest pre _ _ a _ => pre.ok && ssrc a
  | .pand pre _ a b => pre.ok && predIx a && predIx b
  | .por pre _ a b => pre.ok && predIx a && predIx b
  | .pxor pre _ a b => pre.ok && predIx a && predIx b
  | .pandn pre _ a b => pre.ok && predIx a && predIx b
  | .lea pre d b x _ _ => pre.ok && sdst d && ssrc b && ssrc x
  | .div pre d a b => pre.ok && sdst d && ssrc a && ssrc b
  | .divu pre d a b => pre.ok && sdst d && ssrc a && ssrc b
  | .rem pre d a b => pre.ok && sdst d && ssrc a && ssrc b
  | .remu pre d a b => pre.ok && sdst d && ssrc a && ssrc b
  | .sel pre d a b _ _ => pre.ok && sdst d && ssrc a && ssrc b
  | .bfx pre d a pos wm => pre.ok && sdst d && ssrc a && fieldFits pos wm
  | .bfxS pre d a pos wm => pre.ok && sdst d && ssrc a && fieldFits pos wm
  | .bfi pre d a b pos wm => pre.ok && sdst d && ssrc a && ssrc b && fieldFits pos wm
  | .ldlit pre d _ => pre.ok && sdst d
  | .vadd pre d a b => pre.ok && vdst d && vsrc a && vsrc b
  | .vsub pre d a b => pre.ok && vdst d && vsrc a && vsrc b
  | .vmul pre d a b => pre.ok && vdst d && vsrc a && vsrc b
  | .vfma pre d a b => pre.ok && vdst d && vsrc a && vsrc b
  | .vfms pre d a b => pre.ok && vdst d && vsrc a && vsrc b
  | .vfnma pre d a b => pre.ok && vdst d && vsrc a && vsrc b
  | .vmin pre d a b => pre.ok && vdst d && vsrc a && vsrc b
  | .vmax pre d a b => pre.ok && vdst d && vsrc a && vsrc b
  | .vand pre d a b => pre.ok && vdst d && vsrc a && vsrc b
  | .vor pre d a b => pre.ok && vdst d && vsrc a && vsrc b
  | .vxor pre d a b => pre.ok && vdst d && vsrc a && vsrc b
  | .vsll pre d a b => pre.ok && vdst d && vsrc a && vsrc b
  | .vsrl pre d a b => pre.ok && vdst d && vsrc a && vsrc b
  | .vsra pre d a b => pre.ok && vdst d && vsrc a && vsrc b
  | .vcmp pre _ _ a b => pre.ok && vsrc a && vsrc b
  | .vsel pre d a b _ => pre.ok && vdst d && vsrc a && vsrc b
  | .vcvtTo pre d a f => pre.ok && vmain d && vsrc a && cvtFmt f
  | .vcvtFrom pre d a f => pre.ok && vmain d && vsrc a && cvtFmt f
  | .vpack pre d a _ => pre.ok && vpair d && vpair a
  | .vunpack pre d a _ => pre.ok && vpair d && vpair a
  | .vmov pre d a => pre.ok && vdst d && vsrc a
  | .vsplat pre d a => pre.ok && vdst d && ssrc a
  | .vext pre d a b => pre.ok && sdst d && vsrc a && ssrc b
  | .vins pre d a b => pre.ok && vdst d && ssrc a && ssrc b
  | .vperm pre d a b => pre.ok && vdst d && vsrc a && vsrc b
  | .vtrn pre d a n => pre.ok && voct d && voct a && trnUnit n
  | .vredSum pre d a => pre.ok && vdst d && vsrc a
  | .vredMax pre d a => pre.ok && vdst d && vsrc a
  | .vredMin pre d a => pre.ok && vdst d && vsrc a
  | .vredAnd pre d a => pre.ok && vdst d && vsrc a
  | .vredOr pre d a => pre.ok && vdst d && vsrc a
  | .vscanSum pre d a => pre.ok && vdst d && vsrc a
  | .vscanMax pre d a => pre.ok && vdst d && vsrc a
  | .vscanMin pre d a => pre.ok && vdst d && vsrc a
  | .vscanAnd pre d a => pre.ok && vdst d && vsrc a
  | .vscanOr pre d a => pre.ok && vdst d && vsrc a
  | .vfnExp2 pre d a => pre.ok && vdst d && vsrc a
  | .vfnLog2 pre d a => pre.ok && vdst d && vsrc a
  | .vfnRcp pre d a => pre.ok && vdst d && vsrc a
  | .vfnRsqrt pre d a => pre.ok && vdst d && vsrc a
  | .vfnSqrt pre d a => pre.ok && vdst d && vsrc a
  | .mand pre d a _ => pre.ok && maskIx d && maskIx a
  | .mor pre d a _ => pre.ok && maskIx d && maskIx a
  | .mnot pre d a => pre.ok && maskIx d && maskIx a
  | .mpopc pre d a => pre.ok && sdst d && maskIx a
  | .mfirst pre d a => pre.ok && sdst d && maskIx a
  | .vcfg pre d a _ => pre.ok && sdst d && ssrc a
  | .vldSOneWord pre d b e => pre.ok && vdst d && ssrc b && oneWord e
  | .vldSTwoWord pre d b x _ _ => pre.ok && vdst d && ssrc b && ssrc x
  | .vstSOneWord pre d b e => pre.ok && vsrc d && ssrc b && oneWord e
  | .vstSTwoWord pre d b x _ _ => pre.ok && vsrc d && ssrc b && ssrc x
  | .vgathS pre d a b => pre.ok && vdst d && vsrc a && ssrc b
  | .vscatS pre d a b => pre.ok && vsrc d && vsrc a && ssrc b
  | .fpush pre a => pre.ok && ssrc a
  | .tstat pre d => pre.ok && sdst d
  | .tstatClr pre d a => pre.ok && sdst d && ssrc a
  | .tcfg pre d a ws wc ss sc => pre.ok && tileIx d && semUse ws wc && semUse ss sc && ssrc a
  | .wload pre d a b ws wc ss sc _ => pre.ok && tileIx d && semUse ws wc && semUse ss sc && ssrc a && ssrc b
  | .wswap pre d ws wc ss sc => pre.ok && tileIx d && semUse ws wc && semUse ss sc
  | .tmma pre d a b ws wc ss sc _ => pre.ok && tileIx d && semUse ws wc && semUse ss sc && ssrc a && ssrc b
  | .tmmaZ pre d a b ws wc ss sc _ => pre.ok && tileIx d && semUse ws wc && semUse ss sc && ssrc a && ssrc b
  | .tzero pre d ws wc ss sc => pre.ok && tileIx d && semUse ws wc && semUse ss sc
  | .tnorm pre d ws wc ss sc => pre.ok && tileIx d && semUse ws wc && semUse ss sc
  | .tdrain pre d a ws wc ss sc _ _ => pre.ok && tileIx d && semUse ws wc && semUse ss sc && ssrc a
  | .ldSOneWord pre d b e => pre.ok && sdst d && ssrc b && oneWord e
  | .ldSTwoWord pre d b _ x _ _ => pre.ok && sdst d && ssrc b && ssrc x
  | .stSOneWord pre d b e => pre.ok && ssrc d && ssrc b && oneWord e
  | .stSTwoWord pre d b _ x _ _ => pre.ok && ssrc d && ssrc b && ssrc x
  | .ldHOneWord pre d b _ e => pre.ok && sdst d && ssrc b && oneWord e
  | .ldHTwoWord pre d b _ _ x _ _ => pre.ok && sdst d && ssrc b && ssrc x
  | .stHOneWord pre d b _ e => pre.ok && ssrc d && ssrc b && oneWord e
  | .stHTwoWord pre d b _ _ x _ _ => pre.ok && ssrc d && ssrc b && ssrc x
  | .ldPOneWord pre d o _ _ e => pre.ok && sdst d && ldOrd o && oneWord e
  | .ldPTwoWord pre d o _ _ _ x _ _ => pre.ok && sdst d && ldOrd o && ssrc x
  | .stPOneWord pre d o _ _ e => pre.ok && ssrc d && stOrd o && oneWord e
  | .stPTwoWord pre d o _ _ _ x _ _ => pre.ok && ssrc d && stOrd o && ssrc x
  | .ldWOneWord pre d b _ e => pre.ok && sdst d && ssrc b && oneWord e
  | .ldWTwoWord pre d b _ _ x _ _ => pre.ok && sdst d && ssrc b && ssrc x
  | .amoS pre d a b x _ op ret _ _ => pre.ok && sdst d && retUse ret d && amoOp op && ssrc b && ssrc x && ssrc a
  | .amoH pre d a b x _ op ret _ _ _ => pre.ok && sdst d && retUse ret d && amoOp op && ssrc b && ssrc x && ssrc a
  | .amoP pre d a b x _ op ret _ _ _ => pre.ok && sdst d && retUse ret d && amoOp op && ssrc b && ssrc x && capIx a
  | .casH pre d a b n x _ _ _ => pre.ok && sdst d && ssrc a && ssrc b && ssrc n && ssrc x
  | .casP pre d a b n x _ _ _ => pre.ok && sdst d && capIx a && ssrc b && ssrc n && ssrc x
  | .probeH pre d b k x _ _ => pre.ok && sdst d && ssrc b && probeKind k && ssrc x
  | .probeP pre d _ k x _ _ => pre.ok && sdst d && probeKind k && ssrc x
  | .pfP pre d _ _ x _ _ => pre.ok && ssrc d && ssrc x
  | .capld pre d a _ => pre.ok && capIx d && ssrc a
  | .capderive pre d a xo xl _ => pre.ok && capIx d && capIx a && ssrc xo && ssrc xl
  | .capinfo pre d a _ => pre.ok && sdst d && capIx a
  | .commit pre => pre.ok
  | .xfence pre => pre.ok
  | .qfence pre q => pre.ok && someQueue q
  | .sfence pre => pre.ok
  | .stCpaOneWord pre d b e => pre.ok && ssrc d && ssrc b && oneWord e
  | .stCpaTwoWord pre d b x _ _ => pre.ok && ssrc d && ssrc b && ssrc x
  | .cdrain pre c => pre.ok && chanIx c
  | .ckick pre c a => pre.ok && chanIx c && ssrc a
  | .clink pre c a => pre.ok && chanIx c && ssrc a
  | .cresume pre c a => pre.ok && chanIx c && ssrc a
  | .cstat pre d a => pre.ok && sdst d && ssrc a
  | .bar pre j => pre.ok && barIx j
  | .barArr pre d j => pre.ok && sdst d && barIx j
  | .barWait pre a j => pre.ok && ssrc a && barIx j
  | .barExp pre a j => pre.ok && ssrc a && barIx j
  | .tokpush pre n _ => pre.ok && tokenCount n && pre.pushOnly
  | .tokpop pre n _ => pre.ok && tokenCount n && pre.takeOnly
  | .ksig pre k n _ => pre.ok && semIx k && nonzero6 n
  | .kwait pre k n _ => pre.ok && semIx k && nonzero6 n
  | .cntWait pre b a => pre.ok && ssrc b && ssrc a
  | .cntAdd pre b a => pre.ok && ssrc b && ssrc a
  | .park pre k a => pre.ok && predIx k && ssrc a
  | .fset pre b a => pre.ok && ssrc b && ssrc a
  | .gid pre d s => pre.ok && sdst d && upTo4 s
  | .gsize pre d s => pre.ok && sdst d && barIx s
  | .gsplit pre a => pre.ok && ssrc a
  | .gyield pre d => pre.ok && sdst d
  | .gexit pre => pre.ok
  | .qpop pre d a => pre.ok && sdst d && ssrc a
  | .qpush pre b a => pre.ok && ssrc b && ssrc a
  | .qtry pre d a => pre.ok && sdst d && ssrc a
  | .qclose pre b a => pre.ok && ssrc b && ssrc a
  | .pid pre d s => pre.ok && sdst d && upTo4 s
  | .enq pre _ a => pre.ok && sporeReg a
  | .rlcRun pre a => pre.ok && ssrc a
  | .rlcNext pre n k => pre.ok && btr n && predIx k
  | .rlcTest pre d a => pre.ok && sdst d && ssrc a
  | .rlcStat pre d s => pre.ok && sdst d && upTo4 s
  | .rlcEnd pre => pre.ok
  | .lnkStart pre d a => pre.ok && sdst d && ssrc a
  | .lnkStep pre n a => pre.ok && nonzero6 n && ssrc a
  | .lnkWait pre a => pre.ok && ssrc a
  | .lnkStat pre d a => pre.ok && sdst d && ssrc a
  | .sqNop => true
  | .sqCfg _ f v => sqField f v
  | .sqLoop _ _ => true
  | .sqEndl _ _ => true
  | .sqGet _ _ _ _ n => (n != 0)
  | .sqPut _ _ _ _ n => (n != 0)
  | .sqPutsig _ _ _ _ _ dec n => (n != 0) && (dec != 0)
  | .sqWait n => (n != 0)
  | .sqPost n => (n != 0)
  | .sqFence => true
  | .sqEv _ => true
  | .sqHalt => true
  | .cntWaitReread c k => coreIx c && strandIx k
  | .gsplitRendezvous _ => true
  | .sequencerWaitEnd port => portIx port
  | .sequencerWordFetch port => portIx port
  | .strandWaitSatisfied c k => coreIx c && strandIx k
  | .syncRendezvous c => coreIx c
  | .frondGroupRestart _ => true
  | .launchEnd _ => true
  | .btrPrefetchDone c k _ => coreIx c && strandIx k
  | .copyFaultTaken c k => coreIx c && strandIx k
  | .instructionBreakpoint c k => coreIx c && strandIx k
  | .watchpoint c k => coreIx c && strandIx k
  | .strandStopTimeout c k => coreIx c && strandIx k
  | .vectorEntryStart c _ _ => coreIx c
  | .vectorEntryComplete c k => coreIx c && strandIx k
  | .matrixCommandStart c => coreIx c
  | .matrixCommandComplete c _ => coreIx c
  | .matrixEntryRetire c => coreIx c
  | .copyQueueHandover c => coreIx c
  | .transferStart c ch => coreIx c && channelIx ch
  | .transferElementLand c ch _ _ => coreIx c && channelIx ch
  | .transferSignal c ch => coreIx c && channelIx ch
  | .chainEntryFetch c ch => coreIx c && channelIx ch
  | .chainEntryReady c ch => coreIx c && channelIx ch
  | .boundaryComplete _ _ => true
  | .taskRetire _ => true
  | .groupPlace _ _ => true
  | .groupLoaded _ => true
  | .preemptionRequest _ _ => true
  | .groupSaved _ => true
  | .groupResume _ _ => true
  | .groupRetire _ => true
  | .tileScan c _ => coreIx c
  | .pieceClaim c _ => coreIx c
  | .pieceReadback _ _ => true
  | .frondRebalance _ => true
  | .feedItemEnter _ => true
  | .powerGood => true
  | .identityDerived _ => true
  | .pufFail => true
  | .configurationLoaded => true
  | .configurationFail => true
  | .sessionTimeout => true
  | .pkgCtlDrain _ _ => true
  | .pkgCtlResume _ => true
  | .pkgCtlReset _ => true
  | .pkgPwrWrite _ _ => true
  | .drainDeadline => true
  | .fatalPackageError => true
  | .qlaunchWrite _ q _ _ => queueIx q
  | .qtailWrite _ q _ => queueIx q
  | .qctlEnable _ q => queueIx q
  | .qctlStop _ q => queueIx q
  | .qctlDisable _ q => queueIx q
  | .qctlResync _ q => queueIx q
  | .qctlRekeyed _ q => queueIx q
  | .qdescWrite _ q _ _ => queueIx q
  | .sporeConsume q => queueIx q
  | .sporeRelease q => queueIx q
  | .ctxctlCreate _ ctx => ctxIx ctx
  | .ctxctlCodeload _ ctx => ctxIx ctx
  | .codeloadComplete ctx => ctxIx ctx
  | .ctxctlInval _ ctx => ctxIx ctx
  | .invalComplete ctx => ctxIx ctx
  | .ctxctlEnd _ ctx => ctxIx ctx
  | .ctxctlBind _ ctx _ => ctxIx ctx
  | .ctxreqRead _ ctx => ctxIx ctx
  | .ctxrspWrite _ ctx _ => ctxIx ctx
  | .keywWrite _ ctx _ => ctxIx ctx
  | .keyqnWrite _ ctx _ => ctxIx ctx
  | .dctlHalt _ c k _ => coreIx c && strandIx k
  | .dctlResume _ c k _ => coreIx c && strandIx k
  | .dctlStep _ c k _ => coreIx c && strandIx k
  | .dstateWrite _ c _ _ => coreIx c
  | .atctlWrite _ _ => true
  | .attestationDone => true
  | .flashUpdate _ _ => true
  | .registerWrite _ _ _ => true
  | .ucieDown die => dieIx die
  | .ucieUp die => dieIx die
  | .configReadbackPass _ _ => true
  | .hbmHourlyCount stack _ => stackIx stack
  | .vgHourlyMeasure die _ => dieIx die
  | .hbmScrub stack _ _ => stackIx stack
  | .laserBiasSample port lane _ => portIx port && laneIx lane
  | .laserRetire port _ => portIx port
  | .laserRetClear _ port lane => portIx port && laneIx lane
  | .ptpMessage _ => true
  | .syncMissed => true
  | .session _ => true
  | .readData _ _ _ _ _ => true
  | .writeAck _ _ => true
  | .atomicResult _ _ _ => true
  | .renewResponse _ _ _ => true
  | .revoke _ _ => true
  | .revokeDrained _ _ => true
  | .leaseExpiry _ _ => true
  | .leaseRenewal _ _ => true
  | .frameReclaim _ _ => true
  | .prefetchWalk q => queueIx q
  | .put port _ _ _ _ => portIx port
  | .putsig port _ _ _ _ _ _ => portIx port
  | .putAck _ _ => true
  | .remoteTimeout _ => true
  | .retryBackoff _ port => portIx port
  | .pctlEnable _ port _ => portIx port
  | .pctlDisable _ port => portIx port
  | .pctlRetrain _ port _ => portIx port
  | .pctlBypass _ port => portIx port
  | .pctlUnbypass _ port => portIx port
  | .offer port _ => portIx port
  | .accept port _ => portIx port
  | .ready port _ => portIx port
  | .retrainReq port _ => portIx port
  | .restripe port _ => portIx port
  | .trainTimeout port => portIx port
  | .lossOfLight port _ => portIx port
  | .dataFlit port _ => portIx port
  | .idleFlit port _ => portIx port
  | .nak port _ => portIx port
  | .ackTimer port => portIx port
  | .replayTimeout port => portIx port
  | .powerLoss => true
  | .illegalEncoding => true
  | .fetchFault => true
  | .codewordLockGained port lane => portIx port && laneIx lane
  | .delayReqInterval => true
  | .announceReceiptTimeout _ => true
  | .lasingMinute port lane => portIx port && laneIx lane

end Sys2Proof
end

