-- ==== Sys2Proof/Decode.lean ====
section
/-! DEFINITION. Decoding of Hexosh words and of sequencer words, total on any bits, and the encoder
beside it: spec/02_encoding.md R25 to R46 and spec/18_link.md R379. A word is an instruction when
the map of R43 and R44 names a row for it, the row's operands are legal, and every bit that the row
fixes has its fixed value. -/

namespace Sys2Proof

/-- The words of an instruction. -/
inductive Code
  /-- one 32-bit word -/
  | one (w : BitVec 32)
  /-- a first word and its extension word -/
  | two (w x : BitVec 32)
  /-- a sequencer word -/
  | sq (w : BitVec 64)
  /-- an event or host operation: it has no word -/
  | event
  deriving DecidableEq, Repr

/-- Why a word is no instruction. -/
inductive Reject
  /-- fewer bytes than a word needs -/
  | truncated
  /-- bits [31:28] mark an extension word (R27) -/
  | extensionFirst
  /-- a two-word first word is not followed by an extension word (R41) -/
  | noExtension
  /-- the major opcode or func value is not assigned (R43, R44) -/
  | unassigned
  /-- an operand is illegal for its field (R29, R30, R32 to R37) -/
  | badOperand
  /-- a fixed or reserved bit has another value (R46) -/
  | reservedField
  deriving DecidableEq, Repr

/-- What a word decodes to: an instruction, or the reason why it is none. -/
inductive Decoded
  | ok (i : Instr)
  | bad (r : Reject)
  deriving DecidableEq, Repr

/-- The instruction, where there is one. -/
def Decoded.instr? : Decoded → Option Instr
  | .ok i => some i
  | .bad _ => none

/-- The first word of R25: ring bits, sync bit, guard, major opcode, operands. -/
def firstWord (pre : Pre) (op : BitVec 7) (rest : BitVec 18) : BitVec 32 :=
  BitVec.ofBool pre.wp ++ (BitVec.ofBool pre.wn ++ (BitVec.ofBool pre.sp ++ (BitVec.ofBool pre.sn ++
    (BitVec.ofBool pre.sy ++ (pre.g ++ (op ++ rest))))))

/-- The extension word of R27: the mark 0b1111 and 28 payload bits. -/
def extWord (payload : BitVec 28) : BitVec 32 := 15#4 ++ payload

/-- The words that encode an instruction. -/
def encode : Instr → Code
  | .bprep pre b o => .one (firstWord pre 1#7 (b ++ o))
  | .bprepi pre b a => .one (firstWord pre 2#7 (b ++ (a ++ 0#6)))
  | .bprepiMeta pre b a => .one (firstWord pre 2#7 (b ++ (a ++ 1#6)))
  | .bget pre d b => .one (firstWord pre 3#7 (d ++ (b ++ 0#6)))
  | .bgetMeta pre d b => .one (firstWord pre 3#7 (d ++ (b ++ 1#6)))
  | .binv pre b => .one (firstWord pre 4#7 (b ++ 0#15))
  | .jmp pre b p e => .one (firstWord pre 5#7 (b ++ (p ++ (e ++ 0#10))))
  | .call pre b p e => .one (firstWord pre 6#7 (b ++ (p ++ (e ++ 0#10))))
  | .lsetupReg pre r e a => .one (firstWord pre 7#7 (0#3 ++ (r ++ (e ++ (a ++ 0#6)))))
  | .lsetupImm pre r e i => .one (firstWord pre 8#7 (0#3 ++ (r ++ (e ++ i))))
  | .lclose pre => .one (firstWord pre 9#7 (0#18))
  | .lbreak pre p e => .one (firstWord pre 10#7 (0#3 ++ (p ++ (e ++ 0#10))))
  | .nop pre => .one (firstWord pre 11#7 (0#12 ++ 0#6))
  | .ifence pre => .one (firstWord pre 11#7 (0#12 ++ 1#6))
  | .sdone pre => .one (firstWord pre 11#7 (0#12 ++ 2#6))
  | .trap pre n => .one (firstWord pre 11#7 (0#6 ++ (n ++ 8#6)))
  | .brk pre n => .one (firstWord pre 11#7 (0#6 ++ (n ++ 9#6)))
  | .eret pre => .one (firstWord pre 11#7 (0#12 ++ 10#6))
  | .sysrd pre d r => .one (firstWord pre 11#7 (d ++ (r ++ 11#6)))
  | .syswr pre r a => .one (firstWord pre 11#7 (r ++ (a ++ 12#6)))
  | .pcrd pre d c i => .one (firstWord pre 11#7 (d ++ (0#1 ++ (c ++ (i ++ 13#6)))))
  | .yield pre d => .one (firstWord pre 11#7 (d ++ (0#6 ++ 14#6)))
  | .add pre d a b => .one (firstWord pre 16#7 (d ++ (a ++ b)))
  | .sub pre d a b => .one (firstWord pre 17#7 (d ++ (a ++ b)))
  | .mul pre d a b => .one (firstWord pre 18#7 (d ++ (a ++ b)))
  | .mulh pre d a b => .one (firstWord pre 19#7 (d ++ (a ++ b)))
  | .mulhu pre d a b => .one (firstWord pre 20#7 (d ++ (a ++ b)))
  | .min pre d a b => .one (firstWord pre 21#7 (d ++ (a ++ b)))
  | .max pre d a b => .one (firstWord pre 22#7 (d ++ (a ++ b)))
  | .minu pre d a b => .one (firstWord pre 23#7 (d ++ (a ++ b)))
  | .maxu pre d a b => .one (firstWord pre 24#7 (d ++ (a ++ b)))
  | .and pre d a b => .one (firstWord pre 25#7 (d ++ (a ++ b)))
  | .or pre d a b => .one (firstWord pre 26#7 (d ++ (a ++ b)))
  | .xor pre d a b => .one (firstWord pre 27#7 (d ++ (a ++ b)))
  | .andn pre d a b => .one (firstWord pre 28#7 (d ++ (a ++ b)))
  | .orn pre d a b => .one (firstWord pre 29#7 (d ++ (a ++ b)))
  | .sll pre d a b => .one (firstWord pre 30#7 (d ++ (a ++ b)))
  | .srl pre d a b => .one (firstWord pre 31#7 (d ++ (a ++ b)))
  | .sra pre d a b => .one (firstWord pre 32#7 (d ++ (a ++ b)))
  | .rotr pre d a b => .one (firstWord pre 33#7 (d ++ (a ++ b)))
  | .addi pre d a i => .one (firstWord pre 34#7 (d ++ (a ++ i)))
  | .slli pre d a i => .one (firstWord pre 35#7 (d ++ (a ++ i)))
  | .srli pre d a i => .one (firstWord pre 36#7 (d ++ (a ++ i)))
  | .srai pre d a i => .one (firstWord pre 37#7 (d ++ (a ++ i)))
  | .clz pre d a => .one (firstWord pre 38#7 (d ++ (a ++ 0#6)))
  | .ctz pre d a => .one (firstWord pre 38#7 (d ++ (a ++ 1#6)))
  | .popc pre d a => .one (firstWord pre 38#7 (d ++ (a ++ 2#6)))
  | .sextB pre d a => .one (firstWord pre 38#7 (d ++ (a ++ 3#6)))
  | .sextH pre d a => .one (firstWord pre 38#7 (d ++ (a ++ 4#6)))
  | .sextW pre d a => .one (firstWord pre 38#7 (d ++ (a ++ 5#6)))
  | .zextB pre d a => .one (firstWord pre 38#7 (d ++ (a ++ 6#6)))
  | .zextH pre d a => .one (firstWord pre 38#7 (d ++ (a ++ 7#6)))
  | .zextW pre d a => .one (firstWord pre 38#7 (d ++ (a ++ 8#6)))
  | .pget pre d => .one (firstWord pre 38#7 (d ++ (0#6 ++ 16#6)))
  | .pset pre a => .one (firstWord pre 38#7 (0#6 ++ (a ++ 17#6)))
  | .movi pre d i => .one (firstWord pre 39#7 (d ++ i))
  | .movhi pre d i => .one (firstWord pre 40#7 (d ++ i))
  | .cmp pre c p a b => .one (firstWord pre 41#7 (c ++ (p ++ (a ++ b))))
  | .cmpUnsignedTest pre c p a b => .one (firstWord pre 42#7 (c ++ (p ++ (a ++ b))))
  | .cmpi pre c p a i => .one (firstWord pre 43#7 (c ++ (p ++ (a ++ i))))
  | .cmpiUnsignedTest pre c p a i => .one (firstWord pre 44#7 (c ++ (p ++ (a ++ i))))
  | .pand pre p a b => .one (firstWord pre 45#7 (0#2 ++ (p ++ (a ++ b))))
  | .por pre p a b => .one (firstWord pre 45#7 (1#2 ++ (p ++ (a ++ b))))
  | .pxor pre p a b => .one (firstWord pre 45#7 (2#2 ++ (p ++ (a ++ b))))
  | .pandn pre p a b => .one (firstWord pre 45#7 (3#2 ++ (p ++ (a ++ b))))
  | .lea pre d b x sc disp =>
    .two (firstWord pre 46#7 (d ++ (b ++ 0#6))) (extWord (x ++ (sc ++ disp)))
  | .div pre d a b =>
    .two (firstWord pre 47#7 (d ++ (a ++ b))) (extWord (0#6 ++ 0#22))
  | .divu pre d a b =>
    .two (firstWord pre 47#7 (d ++ (a ++ b))) (extWord (1#6 ++ 0#22))
  | .rem pre d a b =>
    .two (firstWord pre 47#7 (d ++ (a ++ b))) (extWord (2#6 ++ 0#22))
  | .remu pre d a b =>
    .two (firstWord pre 47#7 (d ++ (a ++ b))) (extWord (3#6 ++ 0#22))
  | .sel pre d a b p e =>
    .two (firstWord pre 47#7 (d ++ (a ++ b))) (extWord (4#6 ++ (p ++ (e ++ 0#17))))
  | .bfx pre d a pos wm =>
    .two (firstWord pre 47#7 (d ++ (a ++ 0#6))) (extWord (5#6 ++ (pos ++ (0#1 ++ (wm ++ 0#9)))))
  | .bfxS pre d a pos wm =>
    .two (firstWord pre 47#7 (d ++ (a ++ 0#6))) (extWord (5#6 ++ (pos ++ (1#1 ++ (wm ++ 0#9)))))
  | .bfi pre d a b pos wm =>
    .two (firstWord pre 47#7 (d ++ (a ++ b))) (extWord (6#6 ++ (pos ++ (0#1 ++ (wm ++ 0#9)))))
  | .ldlit pre d i => .one (firstWord pre 99#7 (d ++ i))
  | .vadd pre d a b => .one (firstWord pre 48#7 (d ++ (a ++ b)))
  | .vsub pre d a b => .one (firstWord pre 49#7 (d ++ (a ++ b)))
  | .vmul pre d a b => .one (firstWord pre 50#7 (d ++ (a ++ b)))
  | .vfma pre d a b => .one (firstWord pre 51#7 (d ++ (a ++ b)))
  | .vfms pre d a b => .one (firstWord pre 52#7 (d ++ (a ++ b)))
  | .vfnma pre d a b => .one (firstWord pre 53#7 (d ++ (a ++ b)))
  | .vmin pre d a b => .one (firstWord pre 54#7 (d ++ (a ++ b)))
  | .vmax pre d a b => .one (firstWord pre 55#7 (d ++ (a ++ b)))
  | .vand pre d a b => .one (firstWord pre 56#7 (d ++ (a ++ b)))
  | .vor pre d a b => .one (firstWord pre 57#7 (d ++ (a ++ b)))
  | .vxor pre d a b => .one (firstWord pre 58#7 (d ++ (a ++ b)))
  | .vsll pre d a b => .one (firstWord pre 59#7 (d ++ (a ++ b)))
  | .vsrl pre d a b => .one (firstWord pre 60#7 (d ++ (a ++ b)))
  | .vsra pre d a b => .one (firstWord pre 61#7 (d ++ (a ++ b)))
  | .vcmp pre c m a b => .one (firstWord pre 62#7 (c ++ (0#1 ++ (m ++ (a ++ b)))))
  | .vsel pre d a b m =>
    .two (firstWord pre 63#7 (d ++ (a ++ b))) (extWord (m ++ 0#25))
  | .vcvtTo pre d a f => .one (firstWord pre 64#7 (d ++ (a ++ (0#2 ++ f))))
  | .vcvtFrom pre d a f => .one (firstWord pre 64#7 (d ++ (a ++ (2#2 ++ f))))
  | .vpack pre d a n => .one (firstWord pre 65#7 (d ++ (a ++ (0#4 ++ n))))
  | .vunpack pre d a n => .one (firstWord pre 66#7 (d ++ (a ++ (0#4 ++ n))))
  | .vmov pre d a => .one (firstWord pre 67#7 (d ++ (a ++ 0#6)))
  | .vsplat pre d a => .one (firstWord pre 67#7 (d ++ (a ++ 1#6)))
  | .vext pre d a b => .one (firstWord pre 68#7 (d ++ (a ++ b)))
  | .vins pre d a b => .one (firstWord pre 69#7 (d ++ (a ++ b)))
  | .vperm pre d a b => .one (firstWord pre 70#7 (d ++ (a ++ b)))
  | .vtrn pre d a n => .one (firstWord pre 71#7 (d ++ (a ++ (0#4 ++ n))))
  | .vredSum pre d a => .one (firstWord pre 72#7 (d ++ (a ++ 0#6)))
  | .vredMax pre d a => .one (firstWord pre 72#7 (d ++ (a ++ 1#6)))
  | .vredMin pre d a => .one (firstWord pre 72#7 (d ++ (a ++ 2#6)))
  | .vredAnd pre d a => .one (firstWord pre 72#7 (d ++ (a ++ 3#6)))
  | .vredOr pre d a => .one (firstWord pre 72#7 (d ++ (a ++ 4#6)))
  | .vscanSum pre d a => .one (firstWord pre 72#7 (d ++ (a ++ 8#6)))
  | .vscanMax pre d a => .one (firstWord pre 72#7 (d ++ (a ++ 9#6)))
  | .vscanMin pre d a => .one (firstWord pre 72#7 (d ++ (a ++ 10#6)))
  | .vscanAnd pre d a => .one (firstWord pre 72#7 (d ++ (a ++ 11#6)))
  | .vscanOr pre d a => .one (firstWord pre 72#7 (d ++ (a ++ 12#6)))
  | .vfnExp2 pre d a => .one (firstWord pre 73#7 (d ++ (a ++ 0#6)))
  | .vfnLog2 pre d a => .one (firstWord pre 73#7 (d ++ (a ++ 1#6)))
  | .vfnRcp pre d a => .one (firstWord pre 73#7 (d ++ (a ++ 2#6)))
  | .vfnRsqrt pre d a => .one (firstWord pre 73#7 (d ++ (a ++ 3#6)))
  | .vfnSqrt pre d a => .one (firstWord pre 73#7 (d ++ (a ++ 4#6)))
  | .mand pre d a b => .one (firstWord pre 74#7 (d ++ (a ++ (b ++ 0#3))))
  | .mor pre d a b => .one (firstWord pre 74#7 (d ++ (a ++ (b ++ 1#3))))
  | .mnot pre d a => .one (firstWord pre 74#7 (d ++ (a ++ 2#6)))
  | .mpopc pre d a => .one (firstWord pre 74#7 (d ++ (a ++ 3#6)))
  | .mfirst pre d a => .one (firstWord pre 74#7 (d ++ (a ++ 4#6)))
  | .vcfg pre d a s => .one (firstWord pre 75#7 (d ++ (a ++ (0#1 ++ s))))
  | .vldSOneWord pre d b e => .one (firstWord pre 76#7 (d ++ (b ++ (0#2 ++ e))))
  | .vldSTwoWord pre d b x sc disp =>
    .two (firstWord pre 76#7 (d ++ (b ++ 8#6))) (extWord (x ++ (sc ++ disp)))
  | .vstSOneWord pre d b e => .one (firstWord pre 77#7 (d ++ (b ++ (0#2 ++ e))))
  | .vstSTwoWord pre d b x sc disp =>
    .two (firstWord pre 77#7 (d ++ (b ++ 8#6))) (extWord (x ++ (sc ++ disp)))
  | .vgathS pre d a b => .one (firstWord pre 78#7 (d ++ (a ++ b)))
  | .vscatS pre d a b => .one (firstWord pre 79#7 (d ++ (a ++ b)))
  | .fpush pre a => .one (firstWord pre 80#7 (0#6 ++ (a ++ 0#6)))
  | .tstat pre d => .one (firstWord pre 81#7 (d ++ 0#12))
  | .tstatClr pre d a => .one (firstWord pre 81#7 (d ++ (a ++ 1#6)))
  | .tcfg pre d a ws wc ss sc =>
    .two (firstWord pre 82#7 (d ++ (a ++ 60#6))) (extWord (ws ++ (wc ++ (ss ++ (sc ++ 0#12)))))
  | .wload pre d a b ws wc ss sc st =>
    .two (firstWord pre 83#7 (d ++ (a ++ b))) (extWord (ws ++ (wc ++ (ss ++ (sc ++ (st ++ 0#2))))))
  | .wswap pre d ws wc ss sc =>
    .two (firstWord pre 84#7 (d ++ (60#6 ++ 60#6))) (extWord (ws ++ (wc ++ (ss ++ (sc ++ 0#12)))))
  | .tmma pre d a b ws wc ss sc st =>
    .two (firstWord pre 85#7 (d ++ (a ++ b))) (extWord (ws ++ (wc ++ (ss ++ (sc ++ (st ++ 0#2))))))
  | .tmmaZ pre d a b ws wc ss sc st =>
    .two (firstWord pre 86#7 (d ++ (a ++ b))) (extWord (ws ++ (wc ++ (ss ++ (sc ++ (st ++ 0#2))))))
  | .tzero pre d ws wc ss sc =>
    .two (firstWord pre 87#7 (d ++ (60#6 ++ 60#6))) (extWord (ws ++ (wc ++ (ss ++ (sc ++ 0#12)))))
  | .tnorm pre d ws wc ss sc =>
    .two (firstWord pre 88#7 (d ++ (60#6 ++ 60#6))) (extWord (ws ++ (wc ++ (ss ++ (sc ++ 0#12)))))
  | .tdrain pre d a ws wc ss sc st z =>
    .two (firstWord pre 89#7 (d ++ (a ++ 60#6))) (extWord (ws ++ (wc ++ (ss ++ (sc ++ (st ++ (0#1 ++ z)))))))
  | .ldSOneWord pre d b e => .one (firstWord pre 92#7 (d ++ (b ++ (0#2 ++ e))))
  | .ldSTwoWord pre d b sz x sc disp =>
    .two (firstWord pre 92#7 (d ++ (b ++ (0#2 ++ (2#2 ++ sz))))) (extWord (x ++ (sc ++ disp)))
  | .stSOneWord pre d b e => .one (firstWord pre 93#7 (d ++ (b ++ (0#2 ++ e))))
  | .stSTwoWord pre d b sz x sc disp =>
    .two (firstWord pre 93#7 (d ++ (b ++ (0#2 ++ (2#2 ++ sz))))) (extWord (x ++ (sc ++ disp)))
  | .ldHOneWord pre d b r e => .one (firstWord pre 94#7 (d ++ (b ++ (r ++ e))))
  | .ldHTwoWord pre d b r sz x sc disp =>
    .two (firstWord pre 94#7 (d ++ (b ++ (r ++ (2#2 ++ sz))))) (extWord (x ++ (sc ++ disp)))
  | .stHOneWord pre d b r e => .one (firstWord pre 95#7 (d ++ (b ++ (r ++ e))))
  | .stHTwoWord pre d b r sz x sc disp =>
    .two (firstWord pre 95#7 (d ++ (b ++ (r ++ (2#2 ++ sz))))) (extWord (x ++ (sc ++ disp)))
  | .ldPOneWord pre d o c r e => .one (firstWord pre 96#7 (d ++ (o ++ (c ++ (r ++ e)))))
  | .ldPTwoWord pre d o c r sz x sc disp =>
    .two (firstWord pre 96#7 (d ++ (o ++ (c ++ (r ++ (2#2 ++ sz)))))) (extWord (x ++ (sc ++ disp)))
  | .stPOneWord pre d o c r e => .one (firstWord pre 97#7 (d ++ (o ++ (c ++ (r ++ e)))))
  | .stPTwoWord pre d o c r sz x sc disp =>
    .two (firstWord pre 97#7 (d ++ (o ++ (c ++ (r ++ (2#2 ++ sz)))))) (extWord (x ++ (sc ++ disp)))
  | .ldWOneWord pre d b r e => .one (firstWord pre 98#7 (d ++ (b ++ (r ++ e))))
  | .ldWTwoWord pre d b r sz x sc disp =>
    .two (firstWord pre 98#7 (d ++ (b ++ (r ++ (2#2 ++ sz))))) (extWord (x ++ (sc ++ disp)))
  | .amoS pre d a b x sc op ret sz disp =>
    .two (firstWord pre 100#7 (d ++ (a ++ b))) (extWord (x ++ (sc ++ (op ++ (ret ++ (0#2 ++ (sz ++ disp)))))))
  | .amoH pre d a b x sc op ret ord sz disp =>
    .two (firstWord pre 101#7 (d ++ (a ++ b))) (extWord (x ++ (sc ++ (op ++ (ret ++ (ord ++ (sz ++ disp)))))))
  | .amoP pre d a b x sc op ret ord sz disp =>
    .two (firstWord pre 102#7 (d ++ (a ++ b))) (extWord (x ++ (sc ++ (op ++ (ret ++ (ord ++ (sz ++ disp)))))))
  | .casH pre d a b n x ord sz disp =>
    .two (firstWord pre 103#7 (d ++ (a ++ b))) (extWord (n ++ (x ++ (ord ++ (sz ++ disp)))))
  | .casP pre d a b n x ord sz disp =>
    .two (firstWord pre 104#7 (d ++ (a ++ b))) (extWord (n ++ (x ++ (ord ++ (sz ++ disp)))))
  | .probeH pre d b k x sc disp =>
    .two (firstWord pre 105#7 (d ++ (b ++ (0#4 ++ k)))) (extWord (x ++ (sc ++ disp)))
  | .probeP pre d c k x sc disp =>
    .two (firstWord pre 105#7 (d ++ (0#2 ++ (c ++ (1#4 ++ k))))) (extWord (x ++ (sc ++ disp)))
  | .pfP pre d c r x sc disp =>
    .two (firstWord pre 106#7 (d ++ (0#2 ++ (c ++ (r ++ 0#4))))) (extWord (x ++ (sc ++ disp)))
  | .capld pre d a i =>
    .two (firstWord pre 107#7 (d ++ (a ++ 0#6))) (extWord (i ++ 0#16))
  | .capderive pre d a xo xl rt =>
    .two (firstWord pre 107#7 (d ++ (a ++ 1#6))) (extWord (xo ++ (xl ++ (rt ++ 0#12))))
  | .capinfo pre d a s =>
    .two (firstWord pre 107#7 (d ++ (a ++ 2#6))) (extWord (s ++ 0#26))
  | .commit pre => .one (firstWord pre 108#7 (0#12 ++ 0#6))
  | .xfence pre => .one (firstWord pre 108#7 (0#12 ++ 1#6))
  | .qfence pre q => .one (firstWord pre 108#7 (0#3 ++ (q ++ (0#6 ++ 2#6))))
  | .sfence pre => .one (firstWord pre 108#7 (0#12 ++ 3#6))
  | .stCpaOneWord pre d b e => .one (firstWord pre 109#7 (d ++ (b ++ (0#2 ++ e))))
  | .stCpaTwoWord pre d b x sc disp =>
    .two (firstWord pre 109#7 (d ++ (b ++ 11#6))) (extWord (x ++ (sc ++ disp)))
  | .cdrain pre c => .one (firstWord pre 110#7 (c ++ (0#6 ++ 0#6)))
  | .ckick pre c a => .one (firstWord pre 110#7 (c ++ (a ++ 1#6)))
  | .clink pre c a => .one (firstWord pre 110#7 (c ++ (a ++ 2#6)))
  | .cresume pre c a => .one (firstWord pre 110#7 (c ++ (a ++ 3#6)))
  | .cstat pre d a => .one (firstWord pre 110#7 (d ++ (a ++ 4#6)))
  | .bar pre j => .one (firstWord pre 111#7 (0#6 ++ (j ++ 0#6)))
  | .barArr pre d j => .one (firstWord pre 111#7 (d ++ (j ++ 1#6)))
  | .barWait pre a j => .one (firstWord pre 111#7 (a ++ (j ++ 2#6)))
  | .barExp pre a j => .one (firstWord pre 111#7 (a ++ (j ++ 3#6)))
  | .tokpush pre n e => .one (firstWord pre 112#7 (0#6 ++ (n ++ (1#4 ++ e))))
  | .tokpop pre n e => .one (firstWord pre 112#7 (0#6 ++ (n ++ (2#4 ++ e))))
  | .ksig pre k n e => .one (firstWord pre 112#7 (k ++ (n ++ (4#4 ++ e))))
  | .kwait pre k n e => .one (firstWord pre 112#7 (k ++ (n ++ (5#4 ++ e))))
  | .cntWait pre b a => .one (firstWord pre 113#7 (b ++ (a ++ 0#6)))
  | .cntAdd pre b a => .one (firstWord pre 113#7 (b ++ (a ++ 1#6)))
  | .park pre k a => .one (firstWord pre 114#7 (k ++ (a ++ 0#6)))
  | .fset pre b a => .one (firstWord pre 114#7 (b ++ (a ++ 1#6)))
  | .gid pre d s => .one (firstWord pre 120#7 (d ++ (s ++ 0#6)))
  | .gsize pre d s => .one (firstWord pre 120#7 (d ++ (s ++ 1#6)))
  | .gsplit pre a => .one (firstWord pre 120#7 (0#6 ++ (a ++ 2#6)))
  | .gyield pre d => .one (firstWord pre 120#7 (d ++ (0#6 ++ 3#6)))
  | .gexit pre => .one (firstWord pre 120#7 (0#12 ++ 4#6))
  | .qpop pre d a => .one (firstWord pre 121#7 (d ++ (a ++ 0#6)))
  | .qpush pre b a => .one (firstWord pre 121#7 (b ++ (a ++ 1#6)))
  | .qtry pre d a => .one (firstWord pre 121#7 (d ++ (a ++ 2#6)))
  | .qclose pre b a => .one (firstWord pre 121#7 (b ++ (a ++ 3#6)))
  | .pid pre d s => .one (firstWord pre 121#7 (d ++ (s ++ 4#6)))
  | .enq pre p a => .one (firstWord pre 122#7 (0#2 ++ (p ++ (a ++ 0#6))))
  | .rlcRun pre a => .one (firstWord pre 123#7 (0#6 ++ (a ++ 0#6)))
  | .rlcNext pre n k => .one (firstWord pre 123#7 (n ++ (k ++ 1#6)))
  | .rlcTest pre d a => .one (firstWord pre 123#7 (d ++ (a ++ 2#6)))
  | .rlcStat pre d s => .one (firstWord pre 123#7 (d ++ (s ++ 3#6)))
  | .rlcEnd pre => .one (firstWord pre 123#7 (0#12 ++ 4#6))
  | .lnkStart pre d a => .one (firstWord pre 124#7 (d ++ (a ++ 0#6)))
  | .lnkStep pre n a => .one (firstWord pre 124#7 (n ++ (a ++ 1#6)))
  | .lnkWait pre a => .one (firstWord pre 124#7 (0#6 ++ (a ++ 2#6)))
  | .lnkStat pre d a => .one (firstWord pre 124#7 (d ++ (a ++ 3#6)))
  | .sqNop => .sq (1#6 ++ (0#58))
  | .sqCfg gi f v => .sq (2#6 ++ (gi ++ (f ++ (0#4 ++ v))))
  | .sqLoop k n => .sq (3#6 ++ (k ++ (0#24 ++ n)))
  | .sqEndl k m => .sq (4#6 ++ (k ++ (0#4 ++ (m ++ 0#48))))
  | .sqGet gl gr bl br n => .sq (5#6 ++ (gl ++ (gr ++ (bl ++ (br ++ (0#32 ++ n))))))
  | .sqPut gl gr bl br n => .sq (6#6 ++ (gl ++ (gr ++ (bl ++ (br ++ (0#32 ++ n))))))
  | .sqPutsig gl gr bl br o dec n => .sq (7#6 ++ (gl ++ (gr ++ (bl ++ (br ++ (0#4 ++ (o ++ (dec ++ n))))))))
  | .sqWait n => .sq (8#6 ++ (0#42 ++ n))
  | .sqPost n => .sq (9#6 ++ (0#42 ++ n))
  | .sqFence => .sq (10#6 ++ (0#58))
  | .sqEv v => .sq (11#6 ++ (0#42 ++ v))
  | .sqHalt => .sq (12#6 ++ (0#58))
  | .cntWaitReread _ _ => .event
  | .gsplitRendezvous _ => .event
  | .sequencerWaitEnd _ => .event
  | .sequencerWordFetch _ => .event
  | .strandWaitSatisfied _ _ => .event
  | .syncRendezvous _ => .event
  | .frondGroupRestart _ => .event
  | .launchEnd _ => .event
  | .btrPrefetchDone _ _ _ => .event
  | .copyFaultTaken _ _ => .event
  | .instructionBreakpoint _ _ => .event
  | .watchpoint _ _ => .event
  | .strandStopTimeout _ _ => .event
  | .vectorEntryStart _ _ _ => .event
  | .vectorEntryComplete _ _ => .event
  | .matrixCommandStart _ => .event
  | .matrixCommandComplete _ _ => .event
  | .matrixEntryRetire _ => .event
  | .copyQueueHandover _ => .event
  | .transferStart _ _ => .event
  | .transferElementLand _ _ _ _ => .event
  | .transferSignal _ _ => .event
  | .chainEntryFetch _ _ => .event
  | .chainEntryReady _ _ => .event
  | .boundaryComplete _ _ => .event
  | .taskRetire _ => .event
  | .groupPlace _ _ => .event
  | .groupLoaded _ => .event
  | .preemptionRequest _ _ => .event
  | .groupSaved _ => .event
  | .groupResume _ _ => .event
  | .groupRetire _ => .event
  | .tileScan _ _ => .event
  | .pieceClaim _ _ => .event
  | .pieceReadback _ _ => .event
  | .frondRebalance _ => .event
  | .feedItemEnter _ => .event
  | .powerGood => .event
  | .identityDerived _ => .event
  | .pufFail => .event
  | .configurationLoaded => .event
  | .configurationFail => .event
  | .sessionTimeout => .event
  | .pkgCtlDrain _ _ => .event
  | .pkgCtlResume _ => .event
  | .pkgCtlReset _ => .event
  | .pkgPwrWrite _ _ => .event
  | .drainDeadline => .event
  | .fatalPackageError => .event
  | .qlaunchWrite _ _ _ _ => .event
  | .qtailWrite _ _ _ => .event
  | .qctlEnable _ _ => .event
  | .qctlStop _ _ => .event
  | .qctlDisable _ _ => .event
  | .qctlResync _ _ => .event
  | .qctlRekeyed _ _ => .event
  | .qdescWrite _ _ _ _ => .event
  | .sporeConsume _ => .event
  | .sporeRelease _ => .event
  | .ctxctlCreate _ _ => .event
  | .ctxctlCodeload _ _ => .event
  | .codeloadComplete _ => .event
  | .ctxctlInval _ _ => .event
  | .invalComplete _ => .event
  | .ctxctlEnd _ _ => .event
  | .ctxctlBind _ _ _ => .event
  | .ctxreqRead _ _ => .event
  | .ctxrspWrite _ _ _ => .event
  | .keywWrite _ _ _ => .event
  | .keyqnWrite _ _ _ => .event
  | .dctlHalt _ _ _ _ => .event
  | .dctlResume _ _ _ _ => .event
  | .dctlStep _ _ _ _ => .event
  | .dstateWrite _ _ _ _ => .event
  | .atctlWrite _ _ => .event
  | .attestationDone => .event
  | .flashUpdate _ _ => .event
  | .registerWrite _ _ _ => .event
  | .ucieDown _ => .event
  | .ucieUp _ => .event
  | .configReadbackPass _ _ => .event
  | .hbmHourlyCount _ _ => .event
  | .vgHourlyMeasure _ _ => .event
  | .hbmScrub _ _ _ => .event
  | .laserBiasSample _ _ _ => .event
  | .laserRetire _ _ => .event
  | .laserRetClear _ _ _ => .event
  | .ptpMessage _ => .event
  | .syncMissed => .event
  | .session _ => .event
  | .readData _ _ _ _ _ => .event
  | .writeAck _ _ => .event
  | .atomicResult _ _ _ => .event
  | .renewResponse _ _ _ => .event
  | .revoke _ _ => .event
  | .revokeDrained _ _ => .event
  | .leaseExpiry _ _ => .event
  | .leaseRenewal _ _ => .event
  | .frameReclaim _ _ => .event
  | .prefetchWalk _ => .event
  | .put _ _ _ _ _ => .event
  | .putsig _ _ _ _ _ _ _ => .event
  | .putAck _ _ => .event
  | .remoteTimeout _ => .event
  | .retryBackoff _ _ => .event
  | .pctlEnable _ _ _ => .event
  | .pctlDisable _ _ => .event
  | .pctlRetrain _ _ _ => .event
  | .pctlBypass _ _ => .event
  | .pctlUnbypass _ _ => .event
  | .offer _ _ => .event
  | .accept _ _ => .event
  | .ready _ _ => .event
  | .retrainReq _ _ => .event
  | .restripe _ _ => .event
  | .trainTimeout _ => .event
  | .lossOfLight _ _ => .event
  | .dataFlit _ _ => .event
  | .idleFlit _ _ => .event
  | .nak _ _ => .event
  | .ackTimer _ => .event
  | .replayTimeout _ => .event
  | .powerLoss => .event
  | .illegalEncoding => .event
  | .fetchFault => .event
  | .codewordLockGained _ _ => .event
  | .delayReqInterval => .event
  | .announceReceiptTimeout _ => .event
  | .lasingMinute _ _ => .event

/-- `wd` bits of a word from bit `lo`. -/
def fld (w : BitVec 32) (lo wd : Nat) : BitVec wd := w.extractLsb' lo wd

/-- The common bits of a first word (R25). -/
def preOf (w : BitVec 32) : Pre :=
  { wp := w.getLsbD 31, wn := w.getLsbD 30, sp := w.getLsbD 29, sn := w.getLsbD 28,
    sy := w.getLsbD 27, g := fld w 25 2 }

/-- The major opcode (R25). -/
def majorOf (w : BitVec 32) : Nat := (fld w 18 7).toNat

/-- The M displacement field selects the two-word form (R32). -/
def twoForm (w : BitVec 32) : Bool := fld w 2 2 == 2

/-- The first word starts a two-word instruction (R43, R32). -/
def isTwoWord (w : BitVec 32) : Bool :=
  let m := majorOf w
  (m == 0x2E) || (m == 0x2F) || (m == 0x3F) || (decide (0x52 ≤ m) && decide (m ≤ 0x59)) ||
  (decide (0x64 ≤ m) && decide (m ≤ 0x6B)) ||
  (((m == 0x4C) || (m == 0x4D) || (decide (0x5C ≤ m) && decide (m ≤ 0x62)) || (m == 0x6D)) && twoForm w)

/-- The word carries the extension mark 0b1111 in [31:28] (R27). -/
def isExtWord (w : BitVec 32) : Bool := fld w 28 4 == 15

/-- The row that the map of R43 and R44 names for a first word `w` (and extension word `x`), with
the fields at the places the row gives them. -/
def candidate (w x : BitVec 32) : Option Instr :=
  match majorOf w with
  | 1 => some (.bprep (preOf w) (fld w 15 3) (fld w 0 15))
  | 2 => (match (fld w 0 6).toNat with
      | 0 => some (.bprepi (preOf w) (fld w 12 6) (fld w 6 6))
      | 1 => some (.bprepiMeta (preOf w) (fld w 12 6) (fld w 6 6))
      | _ => none)
  | 3 => (match (fld w 0 6).toNat with
      | 0 => some (.bget (preOf w) (fld w 12 6) (fld w 6 6))
      | 1 => some (.bgetMeta (preOf w) (fld w 12 6) (fld w 6 6))
      | _ => none)
  | 4 => some (.binv (preOf w) (fld w 15 3))
  | 5 => some (.jmp (preOf w) (fld w 15 3) (fld w 11 4) (fld w 10 1))
  | 6 => some (.call (preOf w) (fld w 15 3) (fld w 11 4) (fld w 10 1))
  | 7 => some (.lsetupReg (preOf w) (fld w 14 1) (fld w 12 2) (fld w 6 6))
  | 8 => some (.lsetupImm (preOf w) (fld w 14 1) (fld w 12 2) (fld w 0 12))
  | 9 => some (.lclose (preOf w))
  | 10 => some (.lbreak (preOf w) (fld w 11 4) (fld w 10 1))
  | 11 => (match (fld w 0 6).toNat with
      | 0 => some (.nop (preOf w))
      | 1 => some (.ifence (preOf w))
      | 2 => some (.sdone (preOf w))
      | 8 => some (.trap (preOf w) (fld w 6 6))
      | 9 => some (.brk (preOf w) (fld w 6 6))
      | 10 => some (.eret (preOf w))
      | 11 => some (.sysrd (preOf w) (fld w 12 6) (fld w 6 6))
      | 12 => some (.syswr (preOf w) (fld w 12 6) (fld w 6 6))
      | 13 => some (.pcrd (preOf w) (fld w 12 6) (fld w 10 1) (fld w 6 4))
      | 14 => some (.yield (preOf w) (fld w 12 6))
      | _ => none)
  | 16 => some (.add (preOf w) (fld w 12 6) (fld w 6 6) (fld w 0 6))
  | 17 => some (.sub (preOf w) (fld w 12 6) (fld w 6 6) (fld w 0 6))
  | 18 => some (.mul (preOf w) (fld w 12 6) (fld w 6 6) (fld w 0 6))
  | 19 => some (.mulh (preOf w) (fld w 12 6) (fld w 6 6) (fld w 0 6))
  | 20 => some (.mulhu (preOf w) (fld w 12 6) (fld w 6 6) (fld w 0 6))
  | 21 => some (.min (preOf w) (fld w 12 6) (fld w 6 6) (fld w 0 6))
  | 22 => some (.max (preOf w) (fld w 12 6) (fld w 6 6) (fld w 0 6))
  | 23 => some (.minu (preOf w) (fld w 12 6) (fld w 6 6) (fld w 0 6))
  | 24 => some (.maxu (preOf w) (fld w 12 6) (fld w 6 6) (fld w 0 6))
  | 25 => some (.and (preOf w) (fld w 12 6) (fld w 6 6) (fld w 0 6))
  | 26 => some (.or (preOf w) (fld w 12 6) (fld w 6 6) (fld w 0 6))
  | 27 => some (.xor (preOf w) (fld w 12 6) (fld w 6 6) (fld w 0 6))
  | 28 => some (.andn (preOf w) (fld w 12 6) (fld w 6 6) (fld w 0 6))
  | 29 => some (.orn (preOf w) (fld w 12 6) (fld w 6 6) (fld w 0 6))
  | 30 => some (.sll (preOf w) (fld w 12 6) (fld w 6 6) (fld w 0 6))
  | 31 => some (.srl (preOf w) (fld w 12 6) (fld w 6 6) (fld w 0 6))
  | 32 => some (.sra (preOf w) (fld w 12 6) (fld w 6 6) (fld w 0 6))
  | 33 => some (.rotr (preOf w) (fld w 12 6) (fld w 6 6) (fld w 0 6))
  | 34 => some (.addi (preOf w) (fld w 12 6) (fld w 6 6) (fld w 0 6))
  | 35 => some (.slli (preOf w) (fld w 12 6) (fld w 6 6) (fld w 0 6))
  | 36 => some (.srli (preOf w) (fld w 12 6) (fld w 6 6) (fld w 0 6))
  | 37 => some (.srai (preOf w) (fld w 12 6) (fld w 6 6) (fld w 0 6))
  | 38 => (match (fld w 0 6).toNat with
      | 0 => some (.clz (preOf w) (fld w 12 6) (fld w 6 6))
      | 1 => some (.ctz (preOf w) (fld w 12 6) (fld w 6 6))
      | 2 => some (.popc (preOf w) (fld w 12 6) (fld w 6 6))
      | 3 => some (.sextB (preOf w) (fld w 12 6) (fld w 6 6))
      | 4 => some (.sextH (preOf w) (fld w 12 6) (fld w 6 6))
      | 5 => some (.sextW (preOf w) (fld w 12 6) (fld w 6 6))
      | 6 => some (.zextB (preOf w) (fld w 12 6) (fld w 6 6))
      | 7 => some (.zextH (preOf w) (fld w 12 6) (fld w 6 6))
      | 8 => some (.zextW (preOf w) (fld w 12 6) (fld w 6 6))
      | 16 => some (.pget (preOf w) (fld w 12 6))
      | 17 => some (.pset (preOf w) (fld w 6 6))
      | _ => none)
  | 39 => some (.movi (preOf w) (fld w 12 6) (fld w 0 12))
  | 40 => some (.movhi (preOf w) (fld w 12 6) (fld w 0 12))
  | 41 => some (.cmp (preOf w) (fld w 16 2) (fld w 12 4) (fld w 6 6) (fld w 0 6))
  | 42 => some (.cmpUnsignedTest (preOf w) (fld w 16 2) (fld w 12 4) (fld w 6 6) (fld w 0 6))
  | 43 => some (.cmpi (preOf w) (fld w 16 2) (fld w 12 4) (fld w 6 6) (fld w 0 6))
  | 44 => some (.cmpiUnsignedTest (preOf w) (fld w 16 2) (fld w 12 4) (fld w 6 6) (fld w 0 6))
  | 45 => (match (fld w 16 2).toNat with
      | 0 => some (.pand (preOf w) (fld w 12 4) (fld w 6 6) (fld w 0 6))
      | 1 => some (.por (preOf w) (fld w 12 4) (fld w 6 6) (fld w 0 6))
      | 2 => some (.pxor (preOf w) (fld w 12 4) (fld w 6 6) (fld w 0 6))
      | 3 => some (.pandn (preOf w) (fld w 12 4) (fld w 6 6) (fld w 0 6))
      | _ => none)
  | 46 => some (.lea (preOf w) (fld w 12 6) (fld w 6 6) (fld x 22 6) (fld x 20 2) (fld x 0 20))
  | 47 => (match (fld x 22 6).toNat with
      | 0 => some (.div (preOf w) (fld w 12 6) (fld w 6 6) (fld w 0 6))
      | 1 => some (.divu (preOf w) (fld w 12 6) (fld w 6 6) (fld w 0 6))
      | 2 => some (.rem (preOf w) (fld w 12 6) (fld w 6 6) (fld w 0 6))
      | 3 => some (.remu (preOf w) (fld w 12 6) (fld w 6 6) (fld w 0 6))
      | 4 => some (.sel (preOf w) (fld w 12 6) (fld w 6 6) (fld w 0 6) (fld x 18 4) (fld x 17 1))
      | 5 => if fld x 15 1 = 0#1 then some (.bfx (preOf w) (fld w 12 6) (fld w 6 6) (fld x 16 6) (fld x 9 6))
          else some (.bfxS (preOf w) (fld w 12 6) (fld w 6 6) (fld x 16 6) (fld x 9 6))
      | 6 => some (.bfi (preOf w) (fld w 12 6) (fld w 6 6) (fld w 0 6) (fld x 16 6) (fld x 9 6))
      | _ => none)
  | 99 => some (.ldlit (preOf w) (fld w 12 6) (fld w 0 12))
  | 48 => some (.vadd (preOf w) (fld w 12 6) (fld w 6 6) (fld w 0 6))
  | 49 => some (.vsub (preOf w) (fld w 12 6) (fld w 6 6) (fld w 0 6))
  | 50 => some (.vmul (preOf w) (fld w 12 6) (fld w 6 6) (fld w 0 6))
  | 51 => some (.vfma (preOf w) (fld w 12 6) (fld w 6 6) (fld w 0 6))
  | 52 => some (.vfms (preOf w) (fld w 12 6) (fld w 6 6) (fld w 0 6))
  | 53 => some (.vfnma (preOf w) (fld w 12 6) (fld w 6 6) (fld w 0 6))
  | 54 => some (.vmin (preOf w) (fld w 12 6) (fld w 6 6) (fld w 0 6))
  | 55 => some (.vmax (preOf w) (fld w 12 6) (fld w 6 6) (fld w 0 6))
  | 56 => some (.vand (preOf w) (fld w 12 6) (fld w 6 6) (fld w 0 6))
  | 57 => some (.vor (preOf w) (fld w 12 6) (fld w 6 6) (fld w 0 6))
  | 58 => some (.vxor (preOf w) (fld w 12 6) (fld w 6 6) (fld w 0 6))
  | 59 => some (.vsll (preOf w) (fld w 12 6) (fld w 6 6) (fld w 0 6))
  | 60 => some (.vsrl (preOf w) (fld w 12 6) (fld w 6 6) (fld w 0 6))
  | 61 => some (.vsra (preOf w) (fld w 12 6) (fld w 6 6) (fld w 0 6))
  | 62 => some (.vcmp (preOf w) (fld w 16 2) (fld w 12 3) (fld w 6 6) (fld w 0 6))
  | 63 => some (.vsel (preOf w) (fld w 12 6) (fld w 6 6) (fld w 0 6) (fld x 25 3))
  | 64 => (match (fld w 4 2).toNat with
      | 0 => some (.vcvtTo (preOf w) (fld w 12 6) (fld w 6 6) (fld w 0 4))
      | 2 => some (.vcvtFrom (preOf w) (fld w 12 6) (fld w 6 6) (fld w 0 4))
      | _ => none)
  | 65 => some (.vpack (preOf w) (fld w 12 6) (fld w 6 6) (fld w 0 2))
  | 66 => some (.vunpack (preOf w) (fld w 12 6) (fld w 6 6) (fld w 0 2))
  | 67 => (match (fld w 0 6).toNat with
      | 0 => some (.vmov (preOf w) (fld w 12 6) (fld w 6 6))
      | 1 => some (.vsplat (preOf w) (fld w 12 6) (fld w 6 6))
      | _ => none)
  | 68 => some (.vext (preOf w) (fld w 12 6) (fld w 6 6) (fld w 0 6))
  | 69 => some (.vins (preOf w) (fld w 12 6) (fld w 6 6) (fld w 0 6))
  | 70 => some (.vperm (preOf w) (fld w 12 6) (fld w 6 6) (fld w 0 6))
  | 71 => some (.vtrn (preOf w) (fld w 12 6) (fld w 6 6) (fld w 0 2))
  | 72 => (match (fld w 0 6).toNat with
      | 0 => some (.vredSum (preOf w) (fld w 12 6) (fld w 6 6))
      | 1 => some (.vredMax (preOf w) (fld w 12 6) (fld w 6 6))
      | 2 => some (.vredMin (preOf w) (fld w 12 6) (fld w 6 6))
      | 3 => some (.vredAnd (preOf w) (fld w 12 6) (fld w 6 6))
      | 4 => some (.vredOr (preOf w) (fld w 12 6) (fld w 6 6))
      | 8 => some (.vscanSum (preOf w) (fld w 12 6) (fld w 6 6))
      | 9 => some (.vscanMax (preOf w) (fld w 12 6) (fld w 6 6))
      | 10 => some (.vscanMin (preOf w) (fld w 12 6) (fld w 6 6))
      | 11 => some (.vscanAnd (preOf w) (fld w 12 6) (fld w 6 6))
      | 12 => some (.vscanOr (preOf w) (fld w 12 6) (fld w 6 6))
      | _ => none)
  | 73 => (match (fld w 0 6).toNat with
      | 0 => some (.vfnExp2 (preOf w) (fld w 12 6) (fld w 6 6))
      | 1 => some (.vfnLog2 (preOf w) (fld w 12 6) (fld w 6 6))
      | 2 => some (.vfnRcp (preOf w) (fld w 12 6) (fld w 6 6))
      | 3 => some (.vfnRsqrt (preOf w) (fld w 12 6) (fld w 6 6))
      | 4 => some (.vfnSqrt (preOf w) (fld w 12 6) (fld w 6 6))
      | _ => none)
  | 74 => (match (fld w 0 3).toNat with
      | 0 => some (.mand (preOf w) (fld w 12 6) (fld w 6 6) (fld w 3 3))
      | 1 => some (.mor (preOf w) (fld w 12 6) (fld w 6 6) (fld w 3 3))
      | 2 => some (.mnot (preOf w) (fld w 12 6) (fld w 6 6))
      | 3 => some (.mpopc (preOf w) (fld w 12 6) (fld w 6 6))
      | 4 => some (.mfirst (preOf w) (fld w 12 6) (fld w 6 6))
      | _ => none)
  | 75 => some (.vcfg (preOf w) (fld w 12 6) (fld w 6 6) (fld w 0 5))
  | 76 =>
    if twoForm w then some (.vldSTwoWord (preOf w) (fld w 12 6) (fld w 6 6) (fld x 22 6) (fld x 20 2) (fld x 0 20))
    else some (.vldSOneWord (preOf w) (fld w 12 6) (fld w 6 6) (fld w 0 4))
  | 77 =>
    if twoForm w then some (.vstSTwoWord (preOf w) (fld w 12 6) (fld w 6 6) (fld x 22 6) (fld x 20 2) (fld x 0 20))
    else some (.vstSOneWord (preOf w) (fld w 12 6) (fld w 6 6) (fld w 0 4))
  | 78 => some (.vgathS (preOf w) (fld w 12 6) (fld w 6 6) (fld w 0 6))
  | 79 => some (.vscatS (preOf w) (fld w 12 6) (fld w 6 6) (fld w 0 6))
  | 80 => some (.fpush (preOf w) (fld w 6 6))
  | 81 => (match (fld w 0 6).toNat with
      | 0 => some (.tstat (preOf w) (fld w 12 6))
      | 1 => some (.tstatClr (preOf w) (fld w 12 6) (fld w 6 6))
      | _ => none)
  | 82 => some (.tcfg (preOf w) (fld w 12 6) (fld w 6 6) (fld x 24 4) (fld x 20 4) (fld x 16 4) (fld x 12 4))
  | 83 => some (.wload (preOf w) (fld w 12 6) (fld w 6 6) (fld w 0 6) (fld x 24 4) (fld x 20 4) (fld x 16 4) (fld x 12 4) (fld x 2 10))
  | 84 => some (.wswap (preOf w) (fld w 12 6) (fld x 24 4) (fld x 20 4) (fld x 16 4) (fld x 12 4))
  | 85 => some (.tmma (preOf w) (fld w 12 6) (fld w 6 6) (fld w 0 6) (fld x 24 4) (fld x 20 4) (fld x 16 4) (fld x 12 4) (fld x 2 10))
  | 86 => some (.tmmaZ (preOf w) (fld w 12 6) (fld w 6 6) (fld w 0 6) (fld x 24 4) (fld x 20 4) (fld x 16 4) (fld x 12 4) (fld x 2 10))
  | 87 => some (.tzero (preOf w) (fld w 12 6) (fld x 24 4) (fld x 20 4) (fld x 16 4) (fld x 12 4))
  | 88 => some (.tnorm (preOf w) (fld w 12 6) (fld x 24 4) (fld x 20 4) (fld x 16 4) (fld x 12 4))
  | 89 => some (.tdrain (preOf w) (fld w 12 6) (fld w 6 6) (fld x 24 4) (fld x 20 4) (fld x 16 4) (fld x 12 4) (fld x 2 10) (fld x 0 1))
  | 92 =>
    if twoForm w then some (.ldSTwoWord (preOf w) (fld w 12 6) (fld w 6 6) (fld w 0 2) (fld x 22 6) (fld x 20 2) (fld x 0 20))
    else some (.ldSOneWord (preOf w) (fld w 12 6) (fld w 6 6) (fld w 0 4))
  | 93 =>
    if twoForm w then some (.stSTwoWord (preOf w) (fld w 12 6) (fld w 6 6) (fld w 0 2) (fld x 22 6) (fld x 20 2) (fld x 0 20))
    else some (.stSOneWord (preOf w) (fld w 12 6) (fld w 6 6) (fld w 0 4))
  | 94 =>
    if twoForm w then some (.ldHTwoWord (preOf w) (fld w 12 6) (fld w 6 6) (fld w 4 2) (fld w 0 2) (fld x 22 6) (fld x 20 2) (fld x 0 20))
    else some (.ldHOneWord (preOf w) (fld w 12 6) (fld w 6 6) (fld w 4 2) (fld w 0 4))
  | 95 =>
    if twoForm w then some (.stHTwoWord (preOf w) (fld w 12 6) (fld w 6 6) (fld w 4 2) (fld w 0 2) (fld x 22 6) (fld x 20 2) (fld x 0 20))
    else some (.stHOneWord (preOf w) (fld w 12 6) (fld w 6 6) (fld w 4 2) (fld w 0 4))
  | 96 =>
    if twoForm w then some (.ldPTwoWord (preOf w) (fld w 12 6) (fld w 10 2) (fld w 6 4) (fld w 4 2) (fld w 0 2) (fld x 22 6) (fld x 20 2) (fld x 0 20))
    else some (.ldPOneWord (preOf w) (fld w 12 6) (fld w 10 2) (fld w 6 4) (fld w 4 2) (fld w 0 4))
  | 97 =>
    if twoForm w then some (.stPTwoWord (preOf w) (fld w 12 6) (fld w 10 2) (fld w 6 4) (fld w 4 2) (fld w 0 2) (fld x 22 6) (fld x 20 2) (fld x 0 20))
    else some (.stPOneWord (preOf w) (fld w 12 6) (fld w 10 2) (fld w 6 4) (fld w 4 2) (fld w 0 4))
  | 98 =>
    if twoForm w then some (.ldWTwoWord (preOf w) (fld w 12 6) (fld w 6 6) (fld w 4 2) (fld w 0 2) (fld x 22 6) (fld x 20 2) (fld x 0 20))
    else some (.ldWOneWord (preOf w) (fld w 12 6) (fld w 6 6) (fld w 4 2) (fld w 0 4))
  | 100 => some (.amoS (preOf w) (fld w 12 6) (fld w 6 6) (fld w 0 6) (fld x 22 6) (fld x 20 2) (fld x 17 3) (fld x 16 1) (fld x 13 1) (fld x 0 13))
  | 101 => some (.amoH (preOf w) (fld w 12 6) (fld w 6 6) (fld w 0 6) (fld x 22 6) (fld x 20 2) (fld x 17 3) (fld x 16 1) (fld x 14 2) (fld x 13 1) (fld x 0 13))
  | 102 => some (.amoP (preOf w) (fld w 12 6) (fld w 6 6) (fld w 0 6) (fld x 22 6) (fld x 20 2) (fld x 17 3) (fld x 16 1) (fld x 14 2) (fld x 13 1) (fld x 0 13))
  | 103 => some (.casH (preOf w) (fld w 12 6) (fld w 6 6) (fld w 0 6) (fld x 22 6) (fld x 16 6) (fld x 14 2) (fld x 13 1) (fld x 0 13))
  | 104 => some (.casP (preOf w) (fld w 12 6) (fld w 6 6) (fld w 0 6) (fld x 22 6) (fld x 16 6) (fld x 14 2) (fld x 13 1) (fld x 0 13))
  | 105 => (match (fld w 2 2).toNat with
      | 0 => some (.probeH (preOf w) (fld w 12 6) (fld w 6 6) (fld w 0 2) (fld x 22 6) (fld x 20 2) (fld x 0 20))
      | 1 => some (.probeP (preOf w) (fld w 12 6) (fld w 6 4) (fld w 0 2) (fld x 22 6) (fld x 20 2) (fld x 0 20))
      | _ => none)
  | 106 => some (.pfP (preOf w) (fld w 12 6) (fld w 6 4) (fld w 4 2) (fld x 22 6) (fld x 20 2) (fld x 0 20))
  | 107 => (match (fld w 0 6).toNat with
      | 0 => some (.capld (preOf w) (fld w 12 6) (fld w 6 6) (fld x 16 12))
      | 1 => some (.capderive (preOf w) (fld w 12 6) (fld w 6 6) (fld x 22 6) (fld x 16 6) (fld x 12 4))
      | 2 => some (.capinfo (preOf w) (fld w 12 6) (fld w 6 6) (fld x 26 2))
      | _ => none)
  | 108 => (match (fld w 0 6).toNat with
      | 0 => some (.commit (preOf w))
      | 1 => some (.xfence (preOf w))
      | 2 => some (.qfence (preOf w) (fld w 12 3))
      | 3 => some (.sfence (preOf w))
      | _ => none)
  | 109 =>
    if twoForm w then some (.stCpaTwoWord (preOf w) (fld w 12 6) (fld w 6 6) (fld x 22 6) (fld x 20 2) (fld x 0 20))
    else some (.stCpaOneWord (preOf w) (fld w 12 6) (fld w 6 6) (fld w 0 4))
  | 110 => (match (fld w 0 6).toNat with
      | 0 => some (.cdrain (preOf w) (fld w 12 6))
      | 1 => some (.ckick (preOf w) (fld w 12 6) (fld w 6 6))
      | 2 => some (.clink (preOf w) (fld w 12 6) (fld w 6 6))
      | 3 => some (.cresume (preOf w) (fld w 12 6) (fld w 6 6))
      | 4 => some (.cstat (preOf w) (fld w 12 6) (fld w 6 6))
      | _ => none)
  | 111 => (match (fld w 0 6).toNat with
      | 0 => some (.bar (preOf w) (fld w 6 6))
      | 1 => some (.barArr (preOf w) (fld w 12 6) (fld w 6 6))
      | 2 => some (.barWait (preOf w) (fld w 12 6) (fld w 6 6))
      | 3 => some (.barExp (preOf w) (fld w 12 6) (fld w 6 6))
      | _ => none)
  | 112 => (match (fld w 2 4).toNat with
      | 1 => some (.tokpush (preOf w) (fld w 6 6) (fld w 0 2))
      | 2 => some (.tokpop (preOf w) (fld w 6 6) (fld w 0 2))
      | 4 => some (.ksig (preOf w) (fld w 12 6) (fld w 6 6) (fld w 0 2))
      | 5 => some (.kwait (preOf w) (fld w 12 6) (fld w 6 6) (fld w 0 2))
      | _ => none)
  | 113 => (match (fld w 0 6).toNat with
      | 0 => some (.cntWait (preOf w) (fld w 12 6) (fld w 6 6))
      | 1 => some (.cntAdd (preOf w) (fld w 12 6) (fld w 6 6))
      | _ => none)
  | 114 => (match (fld w 0 6).toNat with
      | 0 => some (.park (preOf w) (fld w 12 6) (fld w 6 6))
      | 1 => some (.fset (preOf w) (fld w 12 6) (fld w 6 6))
      | _ => none)
  | 120 => (match (fld w 0 6).toNat with
      | 0 => some (.gid (preOf w) (fld w 12 6) (fld w 6 6))
      | 1 => some (.gsize (preOf w) (fld w 12 6) (fld w 6 6))
      | 2 => some (.gsplit (preOf w) (fld w 6 6))
      | 3 => some (.gyield (preOf w) (fld w 12 6))
      | 4 => some (.gexit (preOf w))
      | _ => none)
  | 121 => (match (fld w 0 6).toNat with
      | 0 => some (.qpop (preOf w) (fld w 12 6) (fld w 6 6))
      | 1 => some (.qpush (preOf w) (fld w 12 6) (fld w 6 6))
      | 2 => some (.qtry (preOf w) (fld w 12 6) (fld w 6 6))
      | 3 => some (.qclose (preOf w) (fld w 12 6) (fld w 6 6))
      | 4 => some (.pid (preOf w) (fld w 12 6) (fld w 6 6))
      | _ => none)
  | 122 => (match (fld w 0 6).toNat with
      | 0 => some (.enq (preOf w) (fld w 12 4) (fld w 6 6))
      | _ => none)
  | 123 => (match (fld w 0 6).toNat with
      | 0 => some (.rlcRun (preOf w) (fld w 6 6))
      | 1 => some (.rlcNext (preOf w) (fld w 12 6) (fld w 6 6))
      | 2 => some (.rlcTest (preOf w) (fld w 12 6) (fld w 6 6))
      | 3 => some (.rlcStat (preOf w) (fld w 12 6) (fld w 6 6))
      | 4 => some (.rlcEnd (preOf w))
      | _ => none)
  | 124 => (match (fld w 0 6).toNat with
      | 0 => some (.lnkStart (preOf w) (fld w 12 6) (fld w 6 6))
      | 1 => some (.lnkStep (preOf w) (fld w 12 6) (fld w 6 6))
      | 2 => some (.lnkWait (preOf w) (fld w 6 6))
      | 3 => some (.lnkStat (preOf w) (fld w 12 6) (fld w 6 6))
      | _ => none)
  | _ => none

/-- Decode a first word, with the following word where there is one. -/
def decodeWords (w : BitVec 32) (next : Option (BitVec 32)) : Decoded :=
  if isExtWord w then .bad .extensionFirst
  else if isTwoWord w then
    match next with
    | none => .bad .noExtension
    | some x =>
      if isExtWord x then
        match candidate w x with
        | none => .bad .unassigned
        | some i =>
          if i.wf then (if encode i = .two w x then .ok i else .bad .reservedField)
          else .bad .badOperand
      else .bad .noExtension
  else
    match candidate w 0 with
    | none => .bad .unassigned
    | some i =>
      if i.wf then (if encode i = .one w then .ok i else .bad .reservedField)
      else .bad .badOperand

/-- The row a sequencer word's opcode names (spec/18_link.md R379). -/
def candidateSq (w : BitVec 64) : Option Instr :=
  match (w.extractLsb' 58 6).toNat with
  | 1 => some .sqNop
  | 2 => some (.sqCfg (w.extractLsb' 56 2) (w.extractLsb' 52 4) (w.extractLsb' 0 48))
  | 3 => some (.sqLoop (w.extractLsb' 56 2) (w.extractLsb' 0 32))
  | 4 => some (.sqEndl (w.extractLsb' 56 2) (w.extractLsb' 48 4))
  | 5 => some (.sqGet (w.extractLsb' 56 2) (w.extractLsb' 54 2) (w.extractLsb' 53 1) (w.extractLsb' 52 1) (w.extractLsb' 0 20))
  | 6 => some (.sqPut (w.extractLsb' 56 2) (w.extractLsb' 54 2) (w.extractLsb' 53 1) (w.extractLsb' 52 1) (w.extractLsb' 0 20))
  | 7 => some (.sqPutsig (w.extractLsb' 56 2) (w.extractLsb' 54 2) (w.extractLsb' 53 1) (w.extractLsb' 52 1) (w.extractLsb' 24 24) (w.extractLsb' 20 4) (w.extractLsb' 0 20))
  | 8 => some (.sqWait (w.extractLsb' 0 16))
  | 9 => some (.sqPost (w.extractLsb' 0 16))
  | 10 => some .sqFence
  | 11 => some (.sqEv (w.extractLsb' 0 16))
  | 12 => some .sqHalt
  | _ => none

/-- Decode a sequencer word (spec/18_link.md R379). -/
def decodeSq (w : BitVec 64) : Decoded :=
  match candidateSq w with
  | none => .bad .unassigned
  | some i =>
    if i.wf then (if encode i = .sq w then .ok i else .bad .reservedField)
    else .bad .badOperand

/-- The next 32-bit word of a byte list, little-endian (spec/00_scope.md R2). -/
def takeWord : List Byte → Option (BitVec 32 × List Byte)
  | b0 :: b1 :: b2 :: b3 :: rest => some (word32 b0 b1 b2 b3, rest)
  | _ => none

/-- Decode the instruction at the head of a byte list; the bytes behind it are returned. -/
def decode (bs : List Byte) : Decoded × List Byte :=
  match takeWord bs with
  | none => (.bad .truncated, bs)
  | some (w, rest) =>
    if isTwoWord w then
      match takeWord rest with
      | none => (decodeWords w none, rest)
      | some (x, rest2) => (decodeWords w (some x), rest2)
    else (decodeWords w none, rest)

/-- The bytes of an instruction's words, lowest address first; none for an event. -/
def Code.bytes : Code → List Byte
  | .one w => bytes32 w
  | .two w x => bytes32 w ++ bytes32 x
  | .sq w => bytesLE 8 w.toNat
  | .event => []

/-- The instruction that the decoder reads from the table's numbering of a word: bit 0 is the least
significant bit of the first word, a second word's bits count on from it, and every bit above
`nbits` is 0. Words of 64 bits that are no core instruction are sequencer words. -/
def decodeTableWord (nbits w : Nat) : Option Instr :=
  match (decode (bytesLE 8 (w % 2 ^ nbits))).1 with
  | .ok i => some i
  | .bad _ => if 32 < nbits then (decodeSq (BitVec.ofNat 64 (w % 2 ^ nbits))).instr? else none

end Sys2Proof
end

