-- ==== Sys2Proof/Machine/Operands.lean ====
section
/-! DEFINITION. Operand fields: what every register field of an instruction reads and writes
(spec/02_encoding.md R29, R30; spec/05_strand.md R80, R90, R104), which engine performs an instruction
(R26, R43) and which registers it reads before it issues (spec/05_strand.md R84). -/

namespace Sys2Proof.Machine

/-- The four engines of a core, in ring order (spec/02_encoding.md R26). -/
inductive Engine
  | S | C | M | V
  deriving DecidableEq, Repr

/-- func6[1:0] of major 0x70 selects the engine (R44). -/
def engineOf (e : BitVec 2) : Engine :=
  if e = 0 then .S else if e = 1 then .C else if e = 2 then .M else .V

/-- The engine that performs an instruction (R43). -/
def instrEngine : Instr → Engine
  | .vadd _ _ _ _ => .V
  | .vsub _ _ _ _ => .V
  | .vmul _ _ _ _ => .V
  | .vfma _ _ _ _ => .V
  | .vfms _ _ _ _ => .V
  | .vfnma _ _ _ _ => .V
  | .vmin _ _ _ _ => .V
  | .vmax _ _ _ _ => .V
  | .vand _ _ _ _ => .V
  | .vor _ _ _ _ => .V
  | .vxor _ _ _ _ => .V
  | .vsll _ _ _ _ => .V
  | .vsrl _ _ _ _ => .V
  | .vsra _ _ _ _ => .V
  | .vcmp _ _ _ _ _ => .V
  | .vsel _ _ _ _ _ => .V
  | .vcvtTo _ _ _ _ => .V
  | .vcvtFrom _ _ _ _ => .V
  | .vpack _ _ _ _ => .V
  | .vunpack _ _ _ _ => .V
  | .vmov _ _ _ => .V
  | .vsplat _ _ _ => .V
  | .vext _ _ _ _ => .V
  | .vins _ _ _ _ => .V
  | .vperm _ _ _ _ => .V
  | .vtrn _ _ _ _ => .V
  | .vredSum _ _ _ => .V
  | .vredMax _ _ _ => .V
  | .vredMin _ _ _ => .V
  | .vredAnd _ _ _ => .V
  | .vredOr _ _ _ => .V
  | .vscanSum _ _ _ => .V
  | .vscanMax _ _ _ => .V
  | .vscanMin _ _ _ => .V
  | .vscanAnd _ _ _ => .V
  | .vscanOr _ _ _ => .V
  | .vfnExp2 _ _ _ => .V
  | .vfnLog2 _ _ _ => .V
  | .vfnRcp _ _ _ => .V
  | .vfnRsqrt _ _ _ => .V
  | .vfnSqrt _ _ _ => .V
  | .mand _ _ _ _ => .V
  | .mor _ _ _ _ => .V
  | .mnot _ _ _ => .V
  | .mpopc _ _ _ => .V
  | .mfirst _ _ _ => .V
  | .vcfg _ _ _ _ => .V
  | .vldSOneWord _ _ _ _ => .V
  | .vldSTwoWord _ _ _ _ _ _ => .V
  | .vstSOneWord _ _ _ _ => .V
  | .vstSTwoWord _ _ _ _ _ _ => .V
  | .vgathS _ _ _ _ => .V
  | .vscatS _ _ _ _ => .V
  | .tcfg _ _ _ _ _ _ _ => .M
  | .wload _ _ _ _ _ _ _ _ _ => .M
  | .wswap _ _ _ _ _ _ => .M
  | .tmma _ _ _ _ _ _ _ _ _ => .M
  | .tmmaZ _ _ _ _ _ _ _ _ _ => .M
  | .tzero _ _ _ _ _ _ => .M
  | .tnorm _ _ _ _ _ _ => .M
  | .tdrain _ _ _ _ _ _ _ _ _ => .M
  | .stCpaOneWord _ _ _ _ => .C
  | .stCpaTwoWord _ _ _ _ _ _ => .C
  | .tokpush _ _ e => engineOf e
  | .tokpop _ _ e => engineOf e
  | .ksig _ _ _ e => engineOf e
  | .kwait _ _ _ e => engineOf e
  | _ => .S

/-- A register an instruction reads: a scalar source, a vector source (which may name a broadcast
scalar), or eight x registers from one on. -/
inductive Src
  | s (f : BitVec 6)
  | v (f : BitVec 6)
  | eight (f : BitVec 6)
  deriving DecidableEq, Repr

/-- The registers an instruction reads at issue (R84 check 4). -/
def instrSrcs : Instr → List Src
  | .bprepi _ _ a => [.s a]
  | .bprepiMeta _ _ a => [.s a]
  | .lsetupReg _ _ _ a => [.s a]
  | .syswr _ _ a => [.s a]
  | .add _ _ a b => [.s a, .s b]
  | .sub _ _ a b => [.s a, .s b]
  | .mul _ _ a b => [.s a, .s b]
  | .mulh _ _ a b => [.s a, .s b]
  | .mulhu _ _ a b => [.s a, .s b]
  | .min _ _ a b => [.s a, .s b]
  | .max _ _ a b => [.s a, .s b]
  | .minu _ _ a b => [.s a, .s b]
  | .maxu _ _ a b => [.s a, .s b]
  | .and _ _ a b => [.s a, .s b]
  | .or _ _ a b => [.s a, .s b]
  | .xor _ _ a b => [.s a, .s b]
  | .andn _ _ a b => [.s a, .s b]
  | .orn _ _ a b => [.s a, .s b]
  | .sll _ _ a b => [.s a, .s b]
  | .srl _ _ a b => [.s a, .s b]
  | .sra _ _ a b => [.s a, .s b]
  | .rotr _ _ a b => [.s a, .s b]
  | .addi _ _ a _ => [.s a]
  | .slli _ _ a _ => [.s a]
  | .srli _ _ a _ => [.s a]
  | .srai _ _ a _ => [.s a]
  | .clz _ _ a => [.s a]
  | .ctz _ _ a => [.s a]
  | .popc _ _ a => [.s a]
  | .sextB _ _ a => [.s a]
  | .sextH _ _ a => [.s a]
  | .sextW _ _ a => [.s a]
  | .zextB _ _ a => [.s a]
  | .zextH _ _ a => [.s a]
  | .zextW _ _ a => [.s a]
  | .pset _ a => [.s a]
  | .movhi _ d _ => [.s d]
  | .cmp _ _ _ a b => [.s a, .s b]
  | .cmpUnsignedTest _ _ _ a b => [.s a, .s b]
  | .cmpi _ _ _ a _ => [.s a]
  | .cmpiUnsignedTest _ _ _ a _ => [.s a]
  | .lea _ _ b x _ _ => [.s b, .s x]
  | .div _ _ a b => [.s a, .s b]
  | .divu _ _ a b => [.s a, .s b]
  | .rem _ _ a b => [.s a, .s b]
  | .remu _ _ a b => [.s a, .s b]
  | .sel _ _ a b _ _ => [.s a, .s b]
  | .bfx _ _ a _ _ => [.s a]
  | .bfxS _ _ a _ _ => [.s a]
  | .bfi _ _ a b _ _ => [.s a, .s b]
  | .vadd _ _ a b => [.v a, .v b]
  | .vsub _ _ a b => [.v a, .v b]
  | .vmul _ _ a b => [.v a, .v b]
  | .vfma _ _ a b => [.v a, .v b]
  | .vfms _ _ a b => [.v a, .v b]
  | .vfnma _ _ a b => [.v a, .v b]
  | .vmin _ _ a b => [.v a, .v b]
  | .vmax _ _ a b => [.v a, .v b]
  | .vand _ _ a b => [.v a, .v b]
  | .vor _ _ a b => [.v a, .v b]
  | .vxor _ _ a b => [.v a, .v b]
  | .vsll _ _ a b => [.v a, .v b]
  | .vsrl _ _ a b => [.v a, .v b]
  | .vsra _ _ a b => [.v a, .v b]
  | .vcmp _ _ _ a b => [.v a, .v b]
  | .vsel _ _ a b _ => [.v a, .v b]
  | .vcvtTo _ _ a _ => [.v a]
  | .vcvtFrom _ _ a _ => [.v a]
  | .vmov _ _ a => [.v a]
  | .vsplat _ _ a => [.s a]
  | .vext _ _ a b => [.s b, .v a]
  | .vins _ _ a b => [.s a, .s b]
  | .vperm _ _ a b => [.v a, .v b]
  | .vredSum _ _ a => [.v a]
  | .vredMax _ _ a => [.v a]
  | .vredMin _ _ a => [.v a]
  | .vredAnd _ _ a => [.v a]
  | .vredOr _ _ a => [.v a]
  | .vscanSum _ _ a => [.v a]
  | .vscanMax _ _ a => [.v a]
  | .vscanMin _ _ a => [.v a]
  | .vscanAnd _ _ a => [.v a]
  | .vscanOr _ _ a => [.v a]
  | .vfnExp2 _ _ a => [.v a]
  | .vfnLog2 _ _ a => [.v a]
  | .vfnRcp _ _ a => [.v a]
  | .vfnRsqrt _ _ a => [.v a]
  | .vfnSqrt _ _ a => [.v a]
  | .vcfg _ _ a _ => [.s a]
  | .vldSOneWord _ _ b _ => [.s b]
  | .vldSTwoWord _ _ b x _ _ => [.s b, .s x]
  | .vstSOneWord _ d b _ => [.s b, .v d]
  | .vstSTwoWord _ d b x _ _ => [.s b, .s x, .v d]
  | .vgathS _ _ a b => [.s b, .v a]
  | .vscatS _ d a b => [.s b, .v d, .v a]
  | .fpush _ a => [.s a]
  | .tstatClr _ _ a => [.s a]
  | .tcfg _ _ a _ _ _ _ => [.s a]
  | .wload _ _ a b _ _ _ _ _ => [.s a, .s b]
  | .tmma _ _ a b _ _ _ _ _ => [.s a, .s b]
  | .tmmaZ _ _ a b _ _ _ _ _ => [.s a, .s b]
  | .tdrain _ _ a _ _ _ _ _ _ => [.s a]
  | .ldSOneWord _ _ b _ => [.s b]
  | .ldSTwoWord _ _ b _ x _ _ => [.s b, .s x]
  | .stSOneWord _ d b _ => [.s d, .s b]
  | .stSTwoWord _ d b _ x _ _ => [.s d, .s b, .s x]
  | .ldHOneWord _ _ b _ _ => [.s b]
  | .ldHTwoWord _ _ b _ _ x _ _ => [.s b, .s x]
  | .stHOneWord _ d b _ _ => [.s d, .s b]
  | .stHTwoWord _ d b _ _ x _ _ => [.s d, .s b, .s x]
  | .ldPTwoWord _ _ _ _ _ _ x _ _ => [.s x]
  | .stPOneWord _ d _ _ _ _ => [.s d]
  | .stPTwoWord _ d _ _ _ _ x _ _ => [.s d, .s x]
  | .ldWOneWord _ _ b _ _ => [.s b]
  | .ldWTwoWord _ _ b _ _ x _ _ => [.s b, .s x]
  | .amoS _ _ a b x _ _ _ _ _ => [.s b, .s x, .s a]
  | .amoH _ _ a b x _ _ _ _ _ _ => [.s b, .s x, .s a]
  | .amoP _ _ _ b x _ _ _ _ _ _ => [.s b, .s x]
  | .casH _ _ a b n x _ _ _ => [.s a, .s b, .s n, .s x]
  | .casP _ _ _ b n x _ _ _ => [.s b, .s n, .s x]
  | .probeH _ _ b _ x _ _ => [.s b, .s x]
  | .probeP _ _ _ _ x _ _ => [.s x]
  | .pfP _ d _ _ x _ _ => [.s d, .s x]
  | .capld _ _ a _ => [.s a]
  | .capderive _ _ _ xo xl _ => [.s xo, .s xl]
  | .stCpaOneWord _ d b _ => [.s d, .s b]
  | .stCpaTwoWord _ d b x _ _ => [.s d, .s b, .s x]
  | .ckick _ _ a => [.s a]
  | .clink _ _ a => [.s a]
  | .cresume _ _ a => [.s a]
  | .cstat _ _ a => [.s a]
  | .barWait _ a _ => [.s a]
  | .barExp _ a _ => [.s a]
  | .cntWait _ b a => [.s b, .s a]
  | .cntAdd _ b a => [.s b, .s a]
  | .park _ _ a => [.s a]
  | .fset _ b a => [.s b, .s a]
  | .gsplit _ a => [.s a]
  | .qpop _ _ a => [.s a]
  | .qpush _ b a => [.s b, .s a]
  | .qtry _ _ a => [.s a]
  | .qclose _ b a => [.s b, .s a]
  | .enq _ _ a => [.eight a]
  | .rlcRun _ a => [.s a]
  | .rlcTest _ _ a => [.s a]
  | .lnkStart _ _ a => [.s a]
  | .lnkStep _ _ a => [.s a]
  | .lnkWait _ a => [.s a]
  | .lnkStat _ _ a => [.s a]
  | _ => []

/-- Bytes of an instruction's words. -/
def instrSize : Instr → BitVec 48
  | .lea _ _ _ _ _ _ => 8
  | .div _ _ _ _ => 8
  | .divu _ _ _ _ => 8
  | .rem _ _ _ _ => 8
  | .remu _ _ _ _ => 8
  | .sel _ _ _ _ _ _ => 8
  | .bfx _ _ _ _ _ => 8
  | .bfxS _ _ _ _ _ => 8
  | .bfi _ _ _ _ _ _ => 8
  | .vsel _ _ _ _ _ => 8
  | .vldSTwoWord _ _ _ _ _ _ => 8
  | .vstSTwoWord _ _ _ _ _ _ => 8
  | .tcfg _ _ _ _ _ _ _ => 8
  | .wload _ _ _ _ _ _ _ _ _ => 8
  | .wswap _ _ _ _ _ _ => 8
  | .tmma _ _ _ _ _ _ _ _ _ => 8
  | .tmmaZ _ _ _ _ _ _ _ _ _ => 8
  | .tzero _ _ _ _ _ _ => 8
  | .tnorm _ _ _ _ _ _ => 8
  | .tdrain _ _ _ _ _ _ _ _ _ => 8
  | .ldSTwoWord _ _ _ _ _ _ _ => 8
  | .stSTwoWord _ _ _ _ _ _ _ => 8
  | .ldHTwoWord _ _ _ _ _ _ _ _ => 8
  | .stHTwoWord _ _ _ _ _ _ _ _ => 8
  | .ldPTwoWord _ _ _ _ _ _ _ _ _ => 8
  | .stPTwoWord _ _ _ _ _ _ _ _ _ => 8
  | .ldWTwoWord _ _ _ _ _ _ _ _ => 8
  | .amoS _ _ _ _ _ _ _ _ _ _ => 8
  | .amoH _ _ _ _ _ _ _ _ _ _ _ => 8
  | .amoP _ _ _ _ _ _ _ _ _ _ _ => 8
  | .casH _ _ _ _ _ _ _ _ _ => 8
  | .casP _ _ _ _ _ _ _ _ _ => 8
  | .probeH _ _ _ _ _ _ _ => 8
  | .probeP _ _ _ _ _ _ _ => 8
  | .pfP _ _ _ _ _ _ _ => 8
  | .capld _ _ _ _ => 8
  | .capderive _ _ _ _ _ _ => 8
  | .capinfo _ _ _ _ => 8
  | .stCpaTwoWord _ _ _ _ _ _ => 8
  | _ => 4

/-- The common bits of an instruction (R25); none for a sequencer word or an event. -/
def instrPre : Instr → Pre
  | .bprep pre _ _ => pre
  | .bprepi pre _ _ => pre
  | .bprepiMeta pre _ _ => pre
  | .bget pre _ _ => pre
  | .bgetMeta pre _ _ => pre
  | .binv pre _ => pre
  | .jmp pre _ _ _ => pre
  | .call pre _ _ _ => pre
  | .lsetupReg pre _ _ _ => pre
  | .lsetupImm pre _ _ _ => pre
  | .lclose pre => pre
  | .lbreak pre _ _ => pre
  | .nop pre => pre
  | .ifence pre => pre
  | .sdone pre => pre
  | .trap pre _ => pre
  | .brk pre _ => pre
  | .eret pre => pre
  | .sysrd pre _ _ => pre
  | .syswr pre _ _ => pre
  | .pcrd pre _ _ _ => pre
  | .yield pre _ => pre
  | .add pre _ _ _ => pre
  | .sub pre _ _ _ => pre
  | .mul pre _ _ _ => pre
  | .mulh pre _ _ _ => pre
  | .mulhu pre _ _ _ => pre
  | .min pre _ _ _ => pre
  | .max pre _ _ _ => pre
  | .minu pre _ _ _ => pre
  | .maxu pre _ _ _ => pre
  | .and pre _ _ _ => pre
  | .or pre _ _ _ => pre
  | .xor pre _ _ _ => pre
  | .andn pre _ _ _ => pre
  | .orn pre _ _ _ => pre
  | .sll pre _ _ _ => pre
  | .srl pre _ _ _ => pre
  | .sra pre _ _ _ => pre
  | .rotr pre _ _ _ => pre
  | .addi pre _ _ _ => pre
  | .slli pre _ _ _ => pre
  | .srli pre _ _ _ => pre
  | .srai pre _ _ _ => pre
  | .clz pre _ _ => pre
  | .ctz pre _ _ => pre
  | .popc pre _ _ => pre
  | .sextB pre _ _ => pre
  | .sextH pre _ _ => pre
  | .sextW pre _ _ => pre
  | .zextB pre _ _ => pre
  | .zextH pre _ _ => pre
  | .zextW pre _ _ => pre
  | .pget pre _ => pre
  | .pset pre _ => pre
  | .movi pre _ _ => pre
  | .movhi pre _ _ => pre
  | .cmp pre _ _ _ _ => pre
  | .cmpUnsignedTest pre _ _ _ _ => pre
  | .cmpi pre _ _ _ _ => pre
  | .cmpiUnsignedTest pre _ _ _ _ => pre
  | .pand pre _ _ _ => pre
  | .por pre _ _ _ => pre
  | .pxor pre _ _ _ => pre
  | .pandn pre _ _ _ => pre
  | .lea pre _ _ _ _ _ => pre
  | .div pre _ _ _ => pre
  | .divu pre _ _ _ => pre
  | .rem pre _ _ _ => pre
  | .remu pre _ _ _ => pre
  | .sel pre _ _ _ _ _ => pre
  | .bfx pre _ _ _ _ => pre
  | .bfxS pre _ _ _ _ => pre
  | .bfi pre _ _ _ _ _ => pre
  | .ldlit pre _ _ => pre
  | .vadd pre _ _ _ => pre
  | .vsub pre _ _ _ => pre
  | .vmul pre _ _ _ => pre
  | .vfma pre _ _ _ => pre
  | .vfms pre _ _ _ => pre
  | .vfnma pre _ _ _ => pre
  | .vmin pre _ _ _ => pre
  | .vmax pre _ _ _ => pre
  | .vand pre _ _ _ => pre
  | .vor pre _ _ _ => pre
  | .vxor pre _ _ _ => pre
  | .vsll pre _ _ _ => pre
  | .vsrl pre _ _ _ => pre
  | .vsra pre _ _ _ => pre
  | .vcmp pre _ _ _ _ => pre
  | .vsel pre _ _ _ _ => pre
  | .vcvtTo pre _ _ _ => pre
  | .vcvtFrom pre _ _ _ => pre
  | .vpack pre _ _ _ => pre
  | .vunpack pre _ _ _ => pre
  | .vmov pre _ _ => pre
  | .vsplat pre _ _ => pre
  | .vext pre _ _ _ => pre
  | .vins pre _ _ _ => pre
  | .vperm pre _ _ _ => pre
  | .vtrn pre _ _ _ => pre
  | .vredSum pre _ _ => pre
  | .vredMax pre _ _ => pre
  | .vredMin pre _ _ => pre
  | .vredAnd pre _ _ => pre
  | .vredOr pre _ _ => pre
  | .vscanSum pre _ _ => pre
  | .vscanMax pre _ _ => pre
  | .vscanMin pre _ _ => pre
  | .vscanAnd pre _ _ => pre
  | .vscanOr pre _ _ => pre
  | .vfnExp2 pre _ _ => pre
  | .vfnLog2 pre _ _ => pre
  | .vfnRcp pre _ _ => pre
  | .vfnRsqrt pre _ _ => pre
  | .vfnSqrt pre _ _ => pre
  | .mand pre _ _ _ => pre
  | .mor pre _ _ _ => pre
  | .mnot pre _ _ => pre
  | .mpopc pre _ _ => pre
  | .mfirst pre _ _ => pre
  | .vcfg pre _ _ _ => pre
  | .vldSOneWord pre _ _ _ => pre
  | .vldSTwoWord pre _ _ _ _ _ => pre
  | .vstSOneWord pre _ _ _ => pre
  | .vstSTwoWord pre _ _ _ _ _ => pre
  | .vgathS pre _ _ _ => pre
  | .vscatS pre _ _ _ => pre
  | .fpush pre _ => pre
  | .tstat pre _ => pre
  | .tstatClr pre _ _ => pre
  | .tcfg pre _ _ _ _ _ _ => pre
  | .wload pre _ _ _ _ _ _ _ _ => pre
  | .wswap pre _ _ _ _ _ => pre
  | .tmma pre _ _ _ _ _ _ _ _ => pre
  | .tmmaZ pre _ _ _ _ _ _ _ _ => pre
  | .tzero pre _ _ _ _ _ => pre
  | .tnorm pre _ _ _ _ _ => pre
  | .tdrain pre _ _ _ _ _ _ _ _ => pre
  | .ldSOneWord pre _ _ _ => pre
  | .ldSTwoWord pre _ _ _ _ _ _ => pre
  | .stSOneWord pre _ _ _ => pre
  | .stSTwoWord pre _ _ _ _ _ _ => pre
  | .ldHOneWord pre _ _ _ _ => pre
  | .ldHTwoWord pre _ _ _ _ _ _ _ => pre
  | .stHOneWord pre _ _ _ _ => pre
  | .stHTwoWord pre _ _ _ _ _ _ _ => pre
  | .ldPOneWord pre _ _ _ _ _ => pre
  | .ldPTwoWord pre _ _ _ _ _ _ _ _ => pre
  | .stPOneWord pre _ _ _ _ _ => pre
  | .stPTwoWord pre _ _ _ _ _ _ _ _ => pre
  | .ldWOneWord pre _ _ _ _ => pre
  | .ldWTwoWord pre _ _ _ _ _ _ _ => pre
  | .amoS pre _ _ _ _ _ _ _ _ _ => pre
  | .amoH pre _ _ _ _ _ _ _ _ _ _ => pre
  | .amoP pre _ _ _ _ _ _ _ _ _ _ => pre
  | .casH pre _ _ _ _ _ _ _ _ => pre
  | .casP pre _ _ _ _ _ _ _ _ => pre
  | .probeH pre _ _ _ _ _ _ => pre
  | .probeP pre _ _ _ _ _ _ => pre
  | .pfP pre _ _ _ _ _ _ => pre
  | .capld pre _ _ _ => pre
  | .capderive pre _ _ _ _ _ => pre
  | .capinfo pre _ _ _ => pre
  | .commit pre => pre
  | .xfence pre => pre
  | .qfence pre _ => pre
  | .sfence pre => pre
  | .stCpaOneWord pre _ _ _ => pre
  | .stCpaTwoWord pre _ _ _ _ _ => pre
  | .cdrain pre _ => pre
  | .ckick pre _ _ => pre
  | .clink pre _ _ => pre
  | .cresume pre _ _ => pre
  | .cstat pre _ _ => pre
  | .bar pre _ => pre
  | .barArr pre _ _ => pre
  | .barWait pre _ _ => pre
  | .barExp pre _ _ => pre
  | .tokpush pre _ _ => pre
  | .tokpop pre _ _ => pre
  | .ksig pre _ _ _ => pre
  | .kwait pre _ _ _ => pre
  | .cntWait pre _ _ => pre
  | .cntAdd pre _ _ => pre
  | .park pre _ _ => pre
  | .fset pre _ _ => pre
  | .gid pre _ _ => pre
  | .gsize pre _ _ => pre
  | .gsplit pre _ => pre
  | .gyield pre _ => pre
  | .gexit pre => pre
  | .qpop pre _ _ => pre
  | .qpush pre _ _ => pre
  | .qtry pre _ _ => pre
  | .qclose pre _ _ => pre
  | .pid pre _ _ => pre
  | .enq pre _ _ => pre
  | .rlcRun pre _ => pre
  | .rlcNext pre _ _ => pre
  | .rlcTest pre _ _ => pre
  | .rlcStat pre _ _ => pre
  | .rlcEnd pre => pre
  | .lnkStart pre _ _ => pre
  | .lnkStep pre _ _ => pre
  | .lnkWait pre _ => pre
  | .lnkStat pre _ _ => pre
  | _ => { wp := false, wn := false, sp := false, sn := false, sy := false, g := 0 }

/-- An S instruction that works on the strand's registers alone, or whose effect takes place at its issue (spec/08_tile.md R156,
R166, spec/13_barrier.md R264, spec/17_refinement.md R360; `cstat` and `rlc.run` read what they read there): it is performed
while older ones of its strand are outstanding (spec/05_strand.md R86). -/
def passes : Instr → Bool
  | .bprep _ _ _ => true
  | .bprepi _ _ _ => true
  | .bprepiMeta _ _ _ => true
  | .bget _ _ _ => true
  | .bgetMeta _ _ _ => true
  | .binv _ _ => true
  | .jmp _ _ _ _ => true
  | .call _ _ _ _ => true
  | .lsetupReg _ _ _ _ => true
  | .lsetupImm _ _ _ _ => true
  | .lclose _ => true
  | .lbreak _ _ _ => true
  | .nop _ => true
  | .pcrd _ _ _ _ => true
  | .add _ _ _ _ => true
  | .sub _ _ _ _ => true
  | .mul _ _ _ _ => true
  | .mulh _ _ _ _ => true
  | .mulhu _ _ _ _ => true
  | .min _ _ _ _ => true
  | .max _ _ _ _ => true
  | .minu _ _ _ _ => true
  | .maxu _ _ _ _ => true
  | .and _ _ _ _ => true
  | .or _ _ _ _ => true
  | .xor _ _ _ _ => true
  | .andn _ _ _ _ => true
  | .orn _ _ _ _ => true
  | .sll _ _ _ _ => true
  | .srl _ _ _ _ => true
  | .sra _ _ _ _ => true
  | .rotr _ _ _ _ => true
  | .addi _ _ _ _ => true
  | .slli _ _ _ _ => true
  | .srli _ _ _ _ => true
  | .srai _ _ _ _ => true
  | .clz _ _ _ => true
  | .ctz _ _ _ => true
  | .popc _ _ _ => true
  | .sextB _ _ _ => true
  | .sextH _ _ _ => true
  | .sextW _ _ _ => true
  | .zextB _ _ _ => true
  | .zextH _ _ _ => true
  | .zextW _ _ _ => true
  | .pget _ _ => true
  | .pset _ _ => true
  | .movi _ _ _ => true
  | .movhi _ _ _ => true
  | .cmp _ _ _ _ _ => true
  | .cmpUnsignedTest _ _ _ _ _ => true
  | .cmpi _ _ _ _ _ => true
  | .cmpiUnsignedTest _ _ _ _ _ => true
  | .pand _ _ _ _ => true
  | .por _ _ _ _ => true
  | .pxor _ _ _ _ => true
  | .pandn _ _ _ _ => true
  | .lea _ _ _ _ _ _ => true
  | .div _ _ _ _ => true
  | .divu _ _ _ _ => true
  | .rem _ _ _ _ => true
  | .remu _ _ _ _ => true
  | .sel _ _ _ _ _ _ => true
  | .bfx _ _ _ _ _ => true
  | .bfxS _ _ _ _ _ => true
  | .bfi _ _ _ _ _ _ => true
  | .ldlit _ _ _ => true
  | .tokpop _ _ e => e == 0
  | .barExp _ _ _ => true
  | .fpush _ _ => true
  | .tstat _ _ => true
  | .tstatClr _ _ _ => true
  | .cstat _ _ _ => true
  | .rlcRun _ _ => true
  | .rlcNext _ _ _ => true
  | .rlcTest _ _ _ => true
  | .rlcStat _ _ _ => true
  | .rlcEnd _ => true
  | .capderive _ _ _ _ _ _ => true
  | .capinfo _ _ _ _ => true
  | .gid _ _ _ => true
  | .gsize _ _ _ => true
  | _ => false

/-- The physical number of scalar register x`n` under rotation base `rb` (spec/05_strand.md R104). -/
def physX (rb : BitVec 4) (n : Nat) : Nat :=
  if 32 ≤ n then 32 + (n - 32 + 16 - rb.toNat) % 16 else n

/-- The physical number of vector register v`n` (R104). -/
def physV (rb : BitVec 4) (n : Nat) : Nat :=
  if 16 ≤ n then 16 + (n - 16 + 16 - rb.toNat) % 16 else n

/-- The strand is in its handler (spec/16_context.md R332). -/
def Strand.inHandler (t : Strand) : Bool := t.hidden.isSome

/-- The o file in force: the handler bank inside the handler (R332). -/
def Strand.oFile (t : Strand) : Tbl Reg := if t.inHandler then t.ho else t.o
/-- The l file in force. -/
def Strand.lFile (t : Strand) : Tbl Reg := if t.inHandler then t.hl else t.l

def Strand.setO (t : Strand) (v : Tbl Reg) : Strand := if t.inHandler then { t with ho := v } else { t with o := v }
def Strand.setL (t : Strand) (v : Tbl Reg) : Strand := if t.inHandler then { t with hl := v } else { t with l := v }

/-- A scalar source field (R29). -/
def Strand.rd (t : Strand) (f : BitVec 6) : Reg :=
  let n := f.toNat
  if n < 48 then t.x.get {} (physX t.rb n)
  else if n < 56 then t.oFile.get {} (n - 48)
  else if n < 60 then t.lFile.get {} (n - 56)
  else {}

/-- Write the register that a scalar destination field names; `zero` names none (R29). -/
def Strand.wr (t : Strand) (f : BitVec 6) (r : Reg) : Strand :=
  let n := f.toNat
  if n < 48 then { t with x := t.x.set {} (physX t.rb n) r }
  else if n < 56 then t.setO (t.oFile.set {} (n - 48) r)
  else t

/-- A result enters the last-result file (R90). -/
def Strand.shiftL (t : Strand) (r : Reg) : Strand :=
  let l := t.lFile
  t.setL ((((l.set {} 3 (l.get {} 2)).set {} 2 (l.get {} 1)).set {} 1 (l.get {} 0)).set {} 0 r)

/-- An instruction's scalar result: the destination and l0 receive it (R90). -/
def Strand.result (t : Strand) (f : BitVec 6) (r : Reg) : Strand := (t.wr f r).shiftL r

/-- A predicate as read; p0 reads 1 (R30). -/
def Strand.rdP (t : Strand) (k : Nat) : PBit := if k = 0 then { v := true } else t.p.get {} k
/-- Write a predicate; a write to p0 is discarded (R30). -/
def Strand.wrP (t : Strand) (k : Nat) (b : PBit) : Strand := if k = 0 then t else { t with p := t.p.set {} k b }

/-- A capability register. -/
def Strand.cap (t : Strand) (k : BitVec 4) : CapReg := t.c.get {} k.toNat

/-- The branch-target register `k`. -/
def Strand.btr (t : Strand) (k : Nat) : Btr := t.b.get {} k
def Strand.setBtr (t : Strand) (k : Nat) (b : Btr) : Strand := { t with b := t.b.set {} k b }

/-- A mask register as read; m0 reads all ones (R30). -/
def Strand.rdM (t : Strand) (k : Nat) : MReg := if k = 0 then { v := BitVec.allOnes 256 } else t.m.get {} k
/-- Write a mask register; a write to m0 is discarded (R30). -/
def Strand.wrM (t : Strand) (k : Nat) (r : MReg) : Strand := if k = 0 then t else { t with m := t.m.set {} k r }

/-- The stage guard reads 1 (R85); `lsetup` and `lclose` ignore theirs. -/
def guardOpen (i : Instr) (t : Strand) : Bool :=
  match i with
  | .lsetupReg _ _ _ _ => true
  | .lsetupImm _ _ _ _ => true
  | .lclose _ => true
  | _ => t.sg.getLsbD (instrPre i).g.toNat

/-- A source whose value is still owed by an engine entry (R84 check 4, R90). -/
def Strand.owed (t : Strand) : Src → Bool
  | .s f => (t.rd f).pend.isSome
  | .v f => decide (48 ≤ f.toNat) && decide (f.toNat < 60) && (t.rd f).pend.isSome
  | .eight f => (List.range 8).any (fun k => (t.rd (f + BitVec.ofNat 6 k)).pend.isSome)

/-- An engine delivers the value it owes: every register that still waits for entry `id` takes it
(R90, spec/06_scalar.md R113). -/
def deliverReg (id : Nat) (r : Reg) (q : Reg) : Reg := if q.pend = some id then r else q
def deliverTbl (id : Nat) (r : Reg) (t : Tbl Reg) : Tbl Reg :=
  t.foldl (fun acc e => acc.set {} e.1 (deliverReg id r e.2)) []
def Strand.deliver (t : Strand) (id : Nat) (r : Reg) : Strand :=
  { t with x := deliverTbl id r t.x, o := deliverTbl id r t.o, l := deliverTbl id r t.l,
           ho := deliverTbl id r t.ho, hl := deliverTbl id r t.hl }

/-- Sign extension of the low bits of a field to a word (spec/00_scope.md R10). -/
def sx {n : Nat} (v : BitVec n) : Word := v.signExtend 64
/-- Zero extension. -/
def zx {n : Nat} (v : BitVec n) : Word := v.setWidth 64

/-- Base + index × scale + displacement of a memory extension word (spec/02_encoding.md R35), an exact number
(spec/00_scope.md R9; log entry 21), with the poison of the registers read. -/
def Strand.mxAddr (t : Strand) (b x : BitVec 6) (sc : BitVec 2) (disp : BitVec 20) : Int × Bool :=
  let rb := t.rd b
  let rx := t.rd x
  (rb.v.toNat + rx.v.toNat * 2 ^ sc.toNat + disp.toInt, rb.poison || rx.poison)

end Sys2Proof.Machine
end

