-- ==== Sys2Proof/Machine/Memory.lean ====
section
/-! DEFINITION. Memory: lines with poison marks and latent errors (spec/09_page.md R195 to R197), the
scratchpad partition (R178), page tables and translation (R190, R191), commits of aligned 8-byte units
and what a read of H space may return (spec/10_phase.md R209, R214, R215). -/

namespace Sys2Proof.Machine

/-- The 64-byte lines that a list of byte addresses touches. -/
def linesOf (as : List Nat) : List Nat := (as.map (fun a => a / 64)).eraseDups

/-- The access that first meets an uncorrectable error of a line zeroes and marks it (R197). -/
def Mem.detect (m : Mem) (l : Nat) : Mem :=
  if m.latent.get false l then
    { bytes := m.bytes.setRange 0 (l * 64) (List.replicate 64 0)
      poison := m.poison.set false l true
      latent := m.latent.set false l false }
  else m

/-- Read bytes: their values, whether a line of them is poisoned, and the memory after detection. -/
def Mem.readAt (m : Mem) (as : List Nat) : List Byte × Bool × Mem :=
  let ls := linesOf as
  let m := ls.foldl Mem.detect m
  (as.map (fun a => m.bytes.get 0 a), ls.any (fun l => m.poison.get false l), m)

/-- A write to a line: a write of all 64 bytes clears its mark and detects nothing, a smaller one reads
the line to merge into it (R195, R197). -/
def Mem.touch (m : Mem) (ws : List (Nat × Byte)) (l : Nat) : Mem :=
  if (ws.filter (fun w => w.1 / 64 == l)).length = 64 then
    { m with poison := m.poison.set false l false, latent := m.latent.set false l false }
  else m.detect l

/-- Write bytes; with `mark` their lines become poisoned (R196). -/
def Mem.writeAt (m : Mem) (ws : List (Nat × Byte)) (mark : Bool) : Mem :=
  let ls := linesOf (ws.map (fun w => w.1))
  let m := ls.foldl (fun m l => m.touch ws l) m
  let m := { m with bytes := ws.foldl (fun t w => t.set 0 w.1 w.2) m.bytes }
  if mark then { m with poison := ls.foldl (fun t l => t.set false l true) m.poison } else m

/-- The canonical form: equal memories are equal data. -/
def Mem.wf (m : Mem) : Bool :=
  Tbl.canonical 0 m.bytes && Tbl.canonical false m.poison && Tbl.canonical false m.latent

/-- Addresses from `a` on. -/
def addrs (a n : Nat) : List Nat := (List.range n).map (fun k => a + k)

/-- Pair a list of bytes with addresses. -/
def place (as : List Nat) (bs : List Byte) : List (Nat × Byte) := as.zip bs

/-! Scratchpad. -/

/-- Where a range of a partition lies (R178, spec/16_context.md R340). -/
inductive SLoc
  | ok (as : List Nat)
  /-- a piece has not been read back yet -/
  | absent
  /-- outside the partition -/
  | outside
  deriving DecidableEq, Repr

/-- The physical piece that holds piece `i` of group `g` on a core. -/
def Core.pieceOf (co : Core) (g i : Nat) : Option (Nat × Piece) :=
  List.find? (fun e : Nat × Piece => e.2.grp == g && e.2.idx == i) co.pieces

/-- A range of `n` bytes at S address `a` of group `g` on core `c`. -/
def State.sLoc (s : State) (c g : Nat) (a : Int) (n : Nat) : SLoc :=
  match s.groups.find? g with
  | none => .outside
  | some x =>
    if a < 0 ∨ a + n > x.kdesc.pieces * 16384 then .outside
    else
      let co := s.coreAt c
      let at' := fun k : Nat => co.pieceOf g ((a.toNat + k) / 16384)
      if (List.range n).all (fun k => match at' k with | some (_, p) => p.present | none => false) then
        .ok ((List.range n).map (fun k =>
          match at' k with
          | some (q, _) => q * 16384 + (a.toNat + k) % 16384
          | none => 0))
      else .absent

/-- Read physical scratchpad bytes of a core. -/
def State.sRead (s : State) (c : Nat) (as : List Nat) : List Byte × Bool × State :=
  let r := (s.coreAt c).spad.readAt as
  (r.1, r.2.1, s.modCore c (fun co => { co with spad := r.2.2 }))

/-- The keys under which what the additions to a counter hand on is held (spec/10_phase.md R213): a group's S counter by rank and
partition address, an H counter by its home. -/
def hMark (pa g : Nat) : Nat := pa * 2 ^ 32 + g
def State.sMark (s : State) (c a : Nat) : Nat :=
  match (s.coreAt c).pieces.find? (a / 16384) with
  | none => 0
  | some p => ((rankIn (((s.groups.find? p.grp).map (fun x => x.cores)).getD []) c + 1) * 2 ^ 48 + p.idx * 16384 + a % 16384 / 8 * 8) * 2 ^ 32 + p.grp

/-- A counter that is written otherwise hands on no addition before. -/
def State.unmark (s : State) (keys : List Nat) : State :=
  if s.marks.isEmpty then s else { s with marks := s.marks.filter (fun e => !keys.contains e.1) }
def State.unmarkUnit (s : State) (unit : Nat) : State :=
  if s.marks.isEmpty then s else { s with marks := s.marks.filter (fun e => e.1 / 2 ^ 32 / 8 != unit) }

/-- Write physical scratchpad bytes of a core. -/
def State.sWrite (s : State) (c : Nat) (as : List Nat) (bs : List Byte) (mark : Bool) : State :=
  (s.unmark (as.map (s.sMark c))).modCore c (fun co => { co with spad := co.spad.writeAt (place as bs) mark })

/-! Translation. -/

/-- What a leaf maps (R190). -/
structure Leaf where
  pa : Nat
  size : Nat
  rd : Bool
  wr : Bool
  at_ : Bool
  ex : Bool
  deriving DecidableEq, Repr

/-- A level of the walk: shift and width of its index, whether a leaf may stand here, and the size of
the next level's table, 0 for the last level (R191). -/
structure Level where
  shift : Nat
  width : Nat
  leaf : Bool
  next : Nat

/-- The four levels (R191). -/
def levels : List Level :=
  [⟨38, 10, false, 8192⟩, ⟨28, 10, true, 1024⟩, ⟨21, 7, true, 256⟩, ⟨16, 5, true, 0⟩]

/-- A byte of HBM as a raw read finds it now: a line with an error that no code corrects reads as zeros (R197). -/
def State.rawByte (s : State) (a : Nat) : Byte := if s.hbm.latent.get false (a / 64) then 0 else s.hbm.bytes.get 0 a
/-- A byte of HBM as it was committed at a point in the order of commits; with none, as it is now. -/
def State.byteAt (s : State) (p : Option Nat) (a : Nat) : Byte :=
  match p with
  | none => s.rawByte a
  | some n => match ((s.history.get [] (a / 8)).filter (fun c => decide (n < c.index))).getLast? with
    | none => s.rawByte a
    | some c => c.old.getD (a % 8) 0
def State.bytesAt (s : State) (p : Option Nat) (as : List Nat) : List Byte := as.map (s.byteAt p)

/-- The point from which an address of a kind of entry is read: the context's first placement or the last
invalidation that covers it (R193, spec/16_context.md R324); none while nothing can be cached. -/
def Context.point (c : Context) (kind : Nat) (va : Int) : Option Nat :=
  c.cached.map (fun b => c.invals.foldl (fun m d =>
    if d.kind = kind ∧ d.lo ≤ va ∧ va < d.hi then max m d.point else m) b)

/-- A descriptor word among 3, 4, 5 and 11 as it is in effect (spec/16_context.md R322). -/
def Context.eff (c : Context) (i : Nat) : Word := if c.cached.isNone then c.word i else c.held.get 0 i

/-- A 64-bit word of HBM. -/
def State.hbmWord (s : State) (p : Option Nat) (a : Nat) : Word := BitVec.ofNat 64 (natLE (s.bytesAt p (addrs a 8)))

/-- The walk from a table (R191): none where it fails. `lo` and `hi` bound the HBM partition. -/
def walk (s : State) (p : Option Nat) (lo hi : Nat) (code : Bool) : List Level → Nat → Nat → Option Leaf
  | [], _, _ => none
  | lv :: ls, table, va =>
    let e := s.hbmWord p (table + 8 * (va / 2 ^ lv.shift % 2 ^ lv.width))
    let pa := bitsOf e 12 36 * 4096
    if !e.getLsbD 63 || bitsOf e 48 10 != 0 || bitsOf e 0 12 != 0 || (!code && e.getLsbD 58) then none
    else if e.getLsbD 62 then
      if lv.leaf && pa % 2 ^ lv.shift == 0 && decide (lo ≤ pa) && decide (pa + 2 ^ lv.shift ≤ hi) then
        some { pa := pa, size := 2 ^ lv.shift, rd := e.getLsbD 61, wr := e.getLsbD 60, at_ := e.getLsbD 59,
               ex := e.getLsbD 58 }
      else none
    else if lv.next != 0 && pa % lv.next == 0 && decide (lo ≤ pa) && decide (pa + lv.next ≤ hi) then
      walk s p lo hi code ls pa va
    else none

/-- The HBM partition of a context (spec/16_context.md R321 word 8). -/
def Context.partLo (c : Context) : Nat := bitsOf (c.word 8) 28 20 * 2 ^ 28
def Context.partHi (c : Context) : Nat := c.partLo + bitsOf (c.word 8) 48 16 * 2 ^ 28

/-- The right an access needs of a leaf (R190). -/
inductive Right
  | rd | wr | at_ | rdwr
  deriving DecidableEq, Repr

def Leaf.grants (l : Leaf) : Right → Bool
  | .rd => l.rd
  | .wr => l.wr
  | .at_ => l.at_
  | .rdwr => l.rd && l.wr

/-- The points in the order of commits at which the page tables may have been read for an address: each since the
last invalidation that covers it (R193). -/
def State.walkPoints (s : State) (c : Context) (kind : Nat) (va : Int) : List (Option Nat) :=
  match c.point kind va with
  | none => [none]
  | some n => (List.range (s.commits - n + 1)).map (fun k => some (n + k))

/-- The leaf of an H (kind 1) or I (kind 2) address as the tables stood at a point. -/
def State.leafAt (s : State) (c : Context) (kind : Nat) (va : Int) (p : Option Nat) : Option Leaf :=
  if va < 0 ∨ va ≥ 2 ^ 48 then none
  else walk s p c.partLo c.partHi (kind == 2) levels (bitsOf (c.word (kind - 1)) 12 36 * 4096) va.toNat

/-- The leaf that an access uses, with its point: a mapping that stood at some time since the last invalidation stays
in use until the next (R193); of several the oldest that permits the access, or else the oldest. -/
def State.leafFrom (s : State) (ctx kind : Nat) (va : Int) (ok : Leaf → Bool) : Option (Leaf × Option Nat) :=
  let c := s.ctxAt ctx
  let ps := s.walkPoints c kind va
  (ps.findSome? (fun p => (s.leafAt c kind va p).bind (fun l => if ok l then some (l, p) else none))).or
    (ps.findSome? (fun p => (s.leafAt c kind va p).map (fun l => (l, p))))

/-- The leaf of an H address for an access that needs what `ok` says. -/
def State.hLeaf (s : State) (ctx : Nat) (va : Int) (ok : Leaf → Bool) : Option Leaf :=
  (s.leafFrom ctx 1 va ok).map (fun e => e.1)

/-- The leaf of an I address, with the point from which its code bytes and marks are read: code changes while it is
mapped only through a code load (spec/02_encoding.md R42, spec/16_context.md R324). -/
def State.iLeaf (s : State) (ctx : Nat) (va : Int) (ok : Leaf → Bool) : Option (Leaf × Option Nat) :=
  (s.leafFrom ctx 2 va ok).map (fun e =>
    let c := s.ctxAt ctx
    let q := c.point 5 va
    (e.1, if (s.leafAt c 2 va q).map (fun l => l.pa) = some e.1.pa then q else e.2))

/-- The physical address of an H address, where a translation permits the access. -/
def State.hPhys (s : State) (ctx : Nat) (va : Int) (r : Right) : Option Nat :=
  match s.hLeaf ctx va (fun l => l.grants r) with
  | none => none
  | some l => if l.grants r then some (l.pa + va.toNat % l.size) else none

/-- The physical addresses of `n` consecutive H bytes. -/
def State.hPhysRange (s : State) (ctx : Nat) (va : Int) (n : Nat) (r : Right) : Option (List Nat) :=
  (List.range n).mapM (fun k : Nat => s.hPhys ctx (va + (k : Int)) r)

/-! Home contents of H space. -/

/-- Write bytes of one aligned 8-byte unit at its home, as one indivisible write (R209). -/
def State.commitUnit (s : State) (unit : Nat) (bs : List (Nat × Byte)) : State :=
  let s := s.unmarkUnit unit
  let n := s.commits + 1
  { s with
    commits := n
    history := s.history.put unit
      ({ index := n, old := s.hbm.bytes.getRange 0 (unit * 8) 8 } :: s.history.get [] unit)
    hbm := s.hbm.writeAt bs false }

/-- A committed read of HBM, as the command complex makes: its bytes and whether a line is poisoned. -/
def State.homeRead (s : State) (as : List Nat) : List Byte × Bool × State :=
  let r := s.hbm.readAt as
  (r.1, r.2.1, { s with hbm := r.2.2 })

/-- Cut a list of (address, byte) pairs with rising addresses into aligned 8-byte units. -/
def unitsOf : List (Nat × Byte) → List (Nat × List (Nat × Byte))
  | [] => []
  | (a, b) :: t =>
    match unitsOf t with
    | (u, l) :: r => if a / 8 = u then (u, (a, b) :: l) :: r else (a / 8, [(a, b)]) :: (u, l) :: r
    | [] => [(a / 8, [(a, b)])]

/-- Commit bytes that lie outside every version, unit by unit; a line written whole is replaced, with its mark
cleared and no error met (R197). -/
def State.commitBytes (s : State) (ws : List (Nat × Byte)) : State :=
  (unitsOf ws).foldl (fun s u => s.commitUnit u.1 u.2)
    { s with hbm := (linesOf (ws.map (fun w => w.1))).foldl (fun m l => m.touch ws l) s.hbm }

/-- The latest of the refresh points that govern a byte of H space (R214, R218): that of the acquire `rf` known to
precede the access, the start refresh, and the context's creation. -/
def Version.refreshAt (v : Version) (rf va : Nat) : Nat :=
  v.regions.foldl (fun m x => if x.lo ≤ va ∧ va < x.hi then max m x.point else m) (max rf v.refresh)

/-- The latest of those of `n` bytes, which one access returns from one write (R215), and the bound of R215. -/
def Version.bound (v : Version) (rf va n unit : Nat) : Nat :=
  (addrs va n).foldl (fun m a => max m (v.refreshAt rf a)) (v.seen.get 0 unit)

/-- The values that a read of a unit may return, newest first, each with the bound that a later read
then obeys (R214 item 2, R215). A poisoned line returns its bytes as they stand (spec/09_page.md R197). -/
def State.unitChoices (s : State) (unit bound : Nat) : List (List Byte × Nat) :=
  (s.hbm.bytes.getRange 0 (unit * 8) 8, s.commits) ::
    (if s.hbm.poison.get false (unit / 8) then []
     else ((s.history.get [] unit).filter (fun c => decide (bound < c.index))).map (fun c => (c.old, c.index - 1)))

/-- Read a unit's committed bytes: a free choice among the allowed values. -/
def State.readUnit (s : State) (unit bound : Nat) : List Byte × Nat × State :=
  let cs := s.unitChoices unit bound
  let p := s.pick cs.length
  let c := cs.getD p.1 ([], s.commits)
  (c.1, c.2, p.2)

/-- The version's own byte, or one that the task has published and that is not committed yet (R214 item 1,
R215). -/
def Version.ownH (v : Version) (a : Nat) : Option Byte :=
  match v.h.find? a with
  | some b => some b
  | none => v.bounds.foldl (fun acc bd => bd.hunits.foldl (fun acc u =>
      match Tbl.find? u.bytes a with | some b => some b | none => acc) acc) none

def Version.ownP (v : Version) (k : Nat) : Option Byte :=
  match v.p.find? k with
  | some b => some b
  | none => v.bounds.foldl (fun acc bd => bd.punits.foldl (fun acc u =>
      match Tbl.find? u.bytes k with | some b => some b | none => acc) acc) none

/-- Read `n` bytes within one aligned unit of H space through the version of group `g`, with the acquire `rf` known to
precede the read (R214): the bytes and the poison of their line. -/
def State.readH (s : State) (g rf va pa n : Nat) : List Byte × Bool × State :=
  match s.groups.find? g with
  | none => (List.replicate n 0, false, s)
  | some x =>
    let l := s.homeRead (addrs pa n)
    let s := l.2.2
    let unit := pa / 8
    let r := s.readUnit unit (x.ver.bound rf va n unit)
    let bs := (List.range n).map (fun k =>
      match x.ver.ownH (pa + k) with
      | some b => b
      | none => r.1.getD (pa % 8 + k) 0)
    let s := r.2.2.modGroup g (fun x => { x with ver := { x.ver with seen := x.ver.seen.put unit (max r.2.1 (x.ver.seen.get 0 unit)) } })
    (bs, l.2.1, s)

/-! Version capacity. -/

/-- Distinct 64-byte lines among rising keys. -/
def countLines : Option Nat → Tbl Byte → Nat
  | _, [] => 0
  | prev, (k, _) :: t => (if prev = some (k / 64) then 0 else 1) + countLines (some (k / 64)) t

/-- The footprint of a version in bytes (R223). -/
def Version.footprint (v : Version) : Nat := 64 * (countLines none v.h + countLines none v.p)

/-- Bytes of the version region of a context (spec/16_context.md R321 word 7). -/
def Context.versionBytes (c : Context) : Nat :=
  (if bitsOf (c.word 7) 48 16 = 0 then 256 else bitsOf (c.word 7) 48 16) * 2 ^ 20

/-- The footprint of a context's open versions. -/
def State.footprintOf (s : State) (ctx : Nat) : Nat :=
  s.groups.foldl (fun n e => if e.2.ctx = ctx then n + e.2.ver.footprint else n) 0

/-- The newest xfence of the task; 0 none. -/
def Version.lastXf (v : Version) : Nat := v.xfs.foldl (fun m e => max m e.1) 0

/-- The version after it accepts bytes of H (or, with `p`, of P) space (R208); what it accepts after an xfence is
noted (R221). -/
def Version.accept (v : Version) (p : Bool) (ws : List (Nat × Byte)) : Version :=
  let v := if v.xfs.isEmpty then v else { v with xlog := v.xlog ++ [(v.lastXf, p, ws)] }
  if p then { v with p := ws.foldl (fun t w => t.put w.1 w.2) v.p }
  else { v with h := ws.foldl (fun t w => t.put w.1 w.2) v.h }

/-- A write enters the version of group `g`; none where the context's region is full (R223). -/
def State.acceptBytes (s : State) (g : Nat) (p : Bool) (ws : List (Nat × Byte)) : Option State :=
  match s.groups.find? g with
  | none => some s
  | some x =>
    let v := x.ver.accept p ws
    let s' := s.modGroup g (fun x => { x with ver := v })
    if v.footprint > x.ver.footprint && decide (s'.footprintOf x.ctx > (s.ctxAt x.ctx).versionBytes) then none
    else some s'

/-! The other spaces. -/

/-- The physical weight-store address of a W offset (R177, spec/16_context.md R321 word 9). -/
def State.wPhys (s : State) (ctx : Nat) (off : Int) (n : Nat) : Option Nat :=
  let w := (s.ctxAt ctx).word 9
  if off < 0 ∨ off + n > bitsOf w 48 16 * 2 ^ 30 then none
  else some (bitsOf w 30 18 * 2 ^ 30 + off.toNat)

/-- The physical cluster SRAM key of a C offset (word 10). -/
def State.cPhys (s : State) (ctx cluster : Nat) (off : Int) (n : Nat) : Option Nat :=
  let w := (s.ctxAt ctx).word 10
  if off < 0 ∨ off + n > bitsOf w 0 8 * 65536 then none
  else some (cluster * 2 ^ 23 + bitsOf w 8 8 * 65536 + off.toNat)

/-- Read the weight store. -/
def State.wRead (s : State) (a n : Nat) : List Byte × Bool × State :=
  let r := s.weights.readAt (addrs a n)
  (r.1, r.2.1, { s with weights := r.2.2 })

/-! Capabilities (R181). -/

def capWorld (c : BitVec 128) : BitVec 8 := c.extractLsb' 120 8
def capMC (c : BitVec 128) : Bool := c.getLsbD 119
def capAT (c : BitVec 128) : Bool := c.getLsbD 118
def capWR (c : BitVec 128) : Bool := c.getLsbD 117
def capRD (c : BitVec 128) : Bool := c.getLsbD 116
def capLC (c : BitVec 128) : BitVec 2 := c.extractLsb' 114 2
def capObj (c : BitVec 128) : BitVec 48 := c.extractLsb' 64 48
def capBase (c : BitVec 128) : Nat := (c.extractLsb' 28 36).toNat * 256
def capLen (c : BitVec 128) : Nat := (c.extractLsb' 0 28).toNat * 256
/-- Class HOME (R184). -/
def capHome (c : BitVec 128) : Bool := capLC c == 2

/-- A right of a capability. -/
def capGrants (c : BitVec 128) : Right → Bool
  | .rd => capRD c
  | .wr => capWR c
  | .at_ => capAT c
  | .rdwr => capRD c && capWR c

/-- `CapCheck` (R10, R181). -/
def capCheck (c : BitVec 128) (off : Int) (n : Nat) (r : Right) : Bool :=
  decide (0 ≤ off) && decide (off + n ≤ capLen c) && capGrants c r

/-- The key of a P byte: object × 2^48 + object offset. -/
def pKey (c : BitVec 128) (off : Nat) : Nat := (capObj c).toNat * 2 ^ 48 + capBase c + off
/-- The key of a pool page: object × 2^32 + page. -/
def pageOf (key : Nat) : Nat := key / 2 ^ 48 * 2 ^ 32 + key % 2 ^ 48 / 65536
/-- The lease a page request asks for, in ms (R184). -/
def leaseMs (c : BitVec 128) : Nat := if capLC c = 0 then 10 else 100

end Sys2Proof.Machine
end

