-- ==== Sys2Proof/Machine/Reach.lean ====
section
/-! DEFINITION. What an S instruction accesses, and which of a strand's instructions may be performed before an older one of
it (spec/05_strand.md R86, spec/09_page.md R180). -/

namespace Sys2Proof.Machine

/-- A computed address and the poison of the registers it came from (R202). -/
abbrev Addr := Int × Bool

/-- The address of a one-word form (spec/02_encoding.md R32): base and a signed multiple of 8. -/
def Strand.oneAddr (t : Strand) (b : BitVec 6) (e : BitVec 4) : Addr :=
  ((t.rd b).v.toNat + 8 * e.toInt, (t.rd b).poison)

/-- The offset of a one-word P form (spec/02_encoding.md R34). -/
def oneOff (e : BitVec 4) : Addr := (8 * e.toInt, false)

/-- The offset of a two-word P form: the base is the window's origin (R34, R35). -/
def Strand.mxOff (t : Strand) (x : BitVec 6) (sc : BitVec 2) (disp : BitVec 20) : Addr := t.mxAddr 60 x sc disp

/-- The address of an atomic: the displacement counts accesses (R204, R205). -/
def Strand.axAddr (t : Strand) (b x : BitVec 6) (sc : BitVec 2) (disp : BitVec 13) (n : Nat) : Addr :=
  ((t.rd b).v.toNat + (t.rd x).v.toNat * 2 ^ sc.toNat + disp.toInt * n, (t.rd b).poison || (t.rd x).poison)

/-- Bytes that `SZ` names (spec/02_encoding.md R36). -/
def axBytes (sz : BitVec 1) : Nat := if sz = 0 then 4 else 8

/-- Bytes that an access touches: 0 S, 1 H, 2 P by object and offset, 3 the weight window. -/
structure Reach where
  space : Nat
  lo : Int
  len : Nat
  /-- the access is a release, an acquire, or an atomic with an order (spec/10_phase.md R211, R214, R216) -/
  ordered : Bool := false
  deriving DecidableEq, Repr

/-- What an S instruction of a strand accesses: a memory instruction, `cnt.add` (spec/13_barrier.md R269: on an H counter a
release), and the block that `rlc.run` loads (spec/17_refinement.md R355). -/
def Strand.reach (t : Strand) (i : Instr) : Option Reach :=
  let at_ := fun (space : Nat) (a : Addr) (n : Nat) => some ({ space := space, lo := a.1, len := n } : Reach)
  let pool := fun (c : BitVec 4) (a : Addr) (n : Nat) (o : Bool) =>
    some ({ space := 2, lo := pKey (t.cap c).v a.1.toNat, len := n, ordered := o } : Reach)
  match i with
  | .ldSOneWord _ _ b e => at_ 0 (t.oneAddr b e) 8
  | .ldSTwoWord _ _ b sz x sc disp => at_ 0 (t.mxAddr b x sc disp) (2 ^ sz.toNat)
  | .stSOneWord _ _ b e => at_ 0 (t.oneAddr b e) 8
  | .stSTwoWord _ _ b sz x sc disp => at_ 0 (t.mxAddr b x sc disp) (2 ^ sz.toNat)
  | .amoS _ _ a _ x sc _ _ sz disp => at_ 0 (t.axAddr a x sc disp (axBytes sz)) (axBytes sz)
  | .ldHOneWord _ _ b _ e => at_ 1 (t.oneAddr b e) 8
  | .ldHTwoWord _ _ b _ sz x sc disp => at_ 1 (t.mxAddr b x sc disp) (2 ^ sz.toNat)
  | .stHOneWord _ _ b _ e => at_ 1 (t.oneAddr b e) 8
  | .stHTwoWord _ _ b _ sz x sc disp => at_ 1 (t.mxAddr b x sc disp) (2 ^ sz.toNat)
  | .amoH _ _ a _ x sc _ _ ord sz disp =>
    some { space := 1, lo := (t.axAddr a x sc disp (axBytes sz)).1, len := axBytes sz, ordered := ord != 0 }
  | .casH _ _ a _ _ x ord sz disp =>
    some { space := 1, lo := (t.axAddr a x 0 disp (axBytes sz)).1, len := axBytes sz, ordered := ord != 0 }
  | .ldPOneWord _ _ o c _ e => pool c (oneOff e) 8 (o != 0)
  | .ldPTwoWord _ _ o c _ sz x sc disp => pool c (t.mxOff x sc disp) (2 ^ sz.toNat) (o != 0)
  | .stPOneWord _ _ o c _ e => pool c (oneOff e) 8 (o != 0)
  | .stPTwoWord _ _ o c _ sz x sc disp => pool c (t.mxOff x sc disp) (2 ^ sz.toNat) (o != 0)
  | .amoP _ _ a _ x sc _ _ ord sz disp => pool (a.extractLsb' 0 4) (t.axAddr 60 x sc disp (axBytes sz)) (axBytes sz) (ord != 0)
  | .casP _ _ a _ _ x ord sz disp => pool (a.extractLsb' 0 4) (t.axAddr 60 x 0 disp (axBytes sz)) (axBytes sz) (ord != 0)
  | .ldWOneWord _ _ b _ e => at_ 3 (t.oneAddr b e) 8
  | .ldWTwoWord _ _ b _ sz x sc disp => at_ 3 (t.mxAddr b x sc disp) (2 ^ sz.toNat)
  | .cntAdd _ _ a =>
    let v := (t.rd a).v
    some { space := if v.getLsbD 2 then 0 else 1, lo := v.toNat / 8 * 8, len := 8, ordered := !v.getLsbD 2 }
  | .rlcRun _ a => some { space := 1, lo := (t.rd a).v.toNat, len := 256 }
  | _ => none

/-- The scalar destination of a memory instruction that takes a position in the last-result order (R90). -/
def owedDest : Instr → Option (BitVec 6)
  | .ldSOneWord _ d _ _ => some d
  | .ldSTwoWord _ d _ _ _ _ _ => some d
  | .amoS _ d _ _ _ _ _ ret _ _ => if ret = 1 then some d else none
  | .ldHOneWord _ d _ _ _ => some d
  | .ldHTwoWord _ d _ _ _ _ _ _ => some d
  | .amoH _ d _ _ _ _ _ ret _ _ _ => if ret = 1 then some d else none
  | .casH _ d _ _ _ _ _ _ _ => some d
  | .ldPOneWord _ d _ _ _ _ => some d
  | .ldPTwoWord _ d _ _ _ _ _ _ _ => some d
  | .amoP _ d _ _ _ _ _ ret _ _ _ => if ret = 1 then some d else none
  | .casP _ d _ _ _ _ _ _ _ => some d
  | .ldWOneWord _ d _ _ _ => some d
  | .ldWTwoWord _ d _ _ _ _ _ _ => some d
  | _ => none

/-- An S instruction that later ones of its strand leave behind before it is performed (R86): memory instructions,
boundaries, `xfence`, and those whose whole effect is a push or a signal at their retirement (spec/13_barrier.md R267, R268). -/
def leavable : Instr → Bool
  | .commit _ => true
  | .xfence _ => true
  | .ksig _ _ _ e => e == 0
  | .tokpush _ _ e => e == 0
  | .ldSOneWord _ _ _ _ => true
  | .ldSTwoWord _ _ _ _ _ _ _ => true
  | .stSOneWord _ _ _ _ => true
  | .stSTwoWord _ _ _ _ _ _ _ => true
  | .amoS _ _ _ _ _ _ _ _ _ _ => true
  | .ldHOneWord _ _ _ _ _ => true
  | .ldHTwoWord _ _ _ _ _ _ _ _ => true
  | .stHOneWord _ _ _ _ _ => true
  | .stHTwoWord _ _ _ _ _ _ _ _ => true
  | .amoH _ _ _ _ _ _ _ _ _ _ _ => true
  | .casH _ _ _ _ _ _ _ _ _ => true
  | .ldPOneWord _ _ _ _ _ _ => true
  | .ldPTwoWord _ _ _ _ _ _ _ _ _ => true
  | .stPOneWord _ _ _ _ _ _ => true
  | .stPTwoWord _ _ _ _ _ _ _ _ _ => true
  | .amoP _ _ _ _ _ _ _ _ _ _ _ => true
  | .casP _ _ _ _ _ _ _ _ _ => true
  | .ldWOneWord _ _ _ _ _ => true
  | .ldWTwoWord _ _ _ _ _ _ _ _ => true
  | .cntAdd _ _ _ => true
  | _ => false

/-- An instruction whose effect is a memory access, for which the core must have a request free (R86, spec/01_package.md
R14). -/
def accesses : Instr → Bool
  | .commit _ => false
  | .xfence _ => false
  | .ksig _ _ _ _ => false
  | .tokpush _ _ _ => false
  | .rlcRun _ _ => true
  | i => leavable i

/-- A copy that starts after it must see what it publishes or fences (spec/10_phase.md R221, spec/20_programs_movement.md R402). -/
def Strand.fencesCopies (t : Strand) (i : Instr) : Bool :=
  match i with
  | .commit _ => true
  | .xfence _ => true
  | i => match t.reach i with | some r => r.ordered | none => false

/-- An instruction that starts a copy. -/
def startsCopy : Instr → Bool
  | .stCpaOneWord _ _ _ _ => true
  | .stCpaTwoWord _ _ _ _ _ _ => true
  | _ => false

/-- A younger instruction is performed before an older one: their bytes are disjoint (spec/09_page.md R180) and neither is
ordered; a scratchpad or weight access passes an ordered one (log entry 58). A boundary that has begun has taken what was before
it (spec/10_phase.md R225); one that has not, or an `xfence`, holds back the H and P accesses behind it. -/
def overtakes (older younger : Strand × Instr) : Bool :=
  match younger.1.reach younger.2 with
  | none => false
  | some y =>
    let off := y.space == 0 || y.space == 3
    if y.ordered then false
    else match older.1.reach older.2, older.2 with
      | none, .ksig _ _ _ _ => true
      | none, .tokpush _ _ _ => true
      | none, _ => off || older.1.micro.stage != 0
      | some o, .cntAdd _ _ _ =>
        (off || !o.ordered || older.1.micro.stage != 0) &&
          (o.space != y.space || decide (o.lo + o.len ≤ y.lo) || decide (y.lo + y.len ≤ o.lo))
      | some o, _ =>
        if o.ordered then off
        else o.space != y.space || decide (o.lo + o.len ≤ y.lo) || decide (y.lo + y.len ≤ o.lo)

end Sys2Proof.Machine
end

