-- ==== Sys2Proof/Machine/Records.lean ====
section
/-! DEFINITION. The records that the package writes for its host: the journal (spec/15_queue.md R315,
R316), the event log (spec/18_link.md R375, R376), completion messages (spec/19_host.md R387); and the
counters that the command complex reads and writes at their homes (spec/15_queue.md R309). -/

namespace Sys2Proof.Machine

/-- Bytes written to host memory. -/
def State.hostWrite (s : State) (a : Nat) (bs : List Byte) : State :=
  { s with host := s.host.setRange 0 a bs }

/-- A 64-bit word as bytes. -/
def wordBytes (w : Word) : List Byte := bytesLE 8 w.toNat
/-- The bytes of a list of words. -/
def wordsBytes (ws : List Word) : List Byte := ws.flatMap wordBytes
/-- The words of a list of bytes. -/
def bytesWords (n : Nat) (bs : List Byte) : List Word :=
  (blocksOf 8 n bs).map (fun b => BitVec.ofNat 64 (natLE b))

/-- The code of a journal state (R316). -/
def LState.code : LState → Nat
  | .accepted => 0
  | .released => 1
  | .running => 2
  | .completed => 3
  | .partly => 4
  | .discarded => 5
  | .rejected => 6

/-- A journal record of the present clock, to be written at its end (R317); a REJECTED record sets the queue's `ERR`
(R299). -/
def State.journal (s : State) (r : JRec) : State :=
  let s := { s with jbuf := s.jbuf ++ [r] }
  if r.st = .rejected then s.modQueue r.queue (fun q => { q with err := r.cause }) else s

/-- Write a journal record (R315, R316). -/
def State.journalNow (s : State) (r : JRec) : State :=
  let n := s.pkg.jhead
  let w0 := n.toNat * 2 ^ 32 + (r.queue % 1024) * 2 ^ 22 + r.st.code * 2 ^ 18 + r.cause.toNat * 2 ^ 10 +
    r.cut.toNat * 4 + r.node.toNat * 2 + r.trec.toNat
  let w2 := (r.task % 2 ^ 32) * 2 ^ 32 + r.digest.toNat
  let s := s.hostWrite (s.pkg.jbase.toNat + n.toNat % 4096 * 32)
    (wordsBytes [BitVec.ofNat 64 w0, r.sseq, BitVec.ofNat 64 w2, BitVec.ofNat 64 s.pkg.ns])
  { s with pkg := { s.pkg with jhead := n + 1 } }

/-- The order of the records of one clock: queue number, then `SSEQ`, then as they came (R317). -/
def recBefore (a b : JRec) : Bool :=
  decide (a.queue < b.queue) || (a.queue == b.queue && decide (a.sseq.toNat < b.sseq.toNat))
def recInsert (x : JRec) : List JRec → List JRec
  | [] => [x]
  | y :: t => if recBefore x y then x :: y :: t else y :: recInsert x t
def recSort (l : List JRec) : List JRec := l.foldl (fun acc x => recInsert x acc) []

/-- Raise an event record (R375, R376); before the ring is reachable it is not recorded. -/
def State.event (s : State) (code : Nat) (port lane : Nat) (d0 d1 : Nat) : State :=
  if s.pkg.ereach then
    let n := s.pkg.ehead
    let w0 := n.toNat * 2 ^ 32 + code * 2 ^ 24 + port % 256 * 256 + lane % 256
    let bs := wordsBytes [BitVec.ofNat 64 w0, BitVec.ofNat 64 s.pkg.ns, BitVec.ofNat 64 d0, BitVec.ofNat 64 d1]
    { s with hbm := s.hbm.writeAt (place (addrs (s.pkg.ebase.toNat + n.toNat % 2048 * 32) 32) bs) false,
             pkg := { s.pkg with ehead := n + 1 } }
  else s

/-- Write a completion message (R387) to the ring of the host (0) or of a world. -/
def State.message (s : State) (ring kind ctx queue tag : Nat) (v : Word) : State :=
  let c := s.completions.get {} ring
  let w0 := kind * 2 ^ 60 + ctx % 4096 * 2 ^ 48 + queue % 1024 * 2 ^ 38 + tag % 65536
  let s := s.hostWrite (c.base.toNat + c.head.toNat % 1024 * 16) (wordsBytes [BitVec.ofNat 64 w0, v])
  { s with completions := s.completions.set {} ring { c with head := c.head + 1 } }

/-- A counter of a queue at its home: its value and address; none on a counter fault (R309). -/
def State.counterRead (s : State) (ctx addr : Nat) : Option (Nat × Nat) × State :=
  match s.hPhys ctx addr .rdwr with
  | none => (none, s)
  | some pa =>
    let r := s.homeRead (addrs pa 8)
    if r.2.1 then (none, r.2.2) else (some (natLE r.1, pa), r.2.2)

/-- A report follows its record. -/
def State.reportNow (s : State) : Report → State
  | .add pa v => s.commitBytes (place (addrs pa 8) (bytesLE 8 (natLE (s.homeRead (addrs pa 8)).1 + v.toNat)))
  | .message ring kind ctx queue tag v => s.message ring kind ctx queue tag v
def State.report (s : State) (r : Report) : State := { s with reports := s.reports ++ [r] }

/-- The records of the present clock are written (R317), and then what reports the same transitions (R315,
spec/19_host.md R387). -/
def State.journalFlush (s : State) : State :=
  let s' := (recSort s.jbuf).foldl State.journalNow { s with jbuf := [], reports := [] }
  s.reports.foldl State.reportNow s'

/-- An addition to a counter that reports a transition; the flag tells a counter fault (R309). -/
def State.counterReport (s : State) (ctx addr : Nat) (v : Word) : Bool × State :=
  match s.counterRead ctx addr with
  | (none, s) => (true, s)
  | (some (_, pa), s) => (false, s.report (.add pa v))

/-- What the reports of the present clock add to the counter at a physical address: the command complex counts it at once
(R319). -/
def State.reported (s : State) (pa : Nat) : Nat :=
  (s.reports.map (fun r => match r with | .add a v => if a = pa then v.toNat else 0 | _ => 0)).foldl (· + ·) 0

/-- The event record and `ERR` of a counter fault (R309). -/
def State.counterFault (s : State) (q addr : Nat) : State :=
  (s.modQueue q (fun x => { x with err := 0x0E })).event 0x08 0xFF 0xFF q addr

end Sys2Proof.Machine
end

