-- ==== Sys2Proof/Machine/Ops.lean ====
section
/-! DEFINITION. The shared operations: ring tokens and semaphores (spec/05_strand.md R88, spec/13_barrier.md
R266), the ends of launches, groups and contexts (spec/15_queue.md R308, spec/12_group.md R252,
spec/16_context.md R326), taking a precise trap and returning from it (R332, R345), and the issue of an
instruction (spec/05_strand.md R84 to R90). -/

namespace Sys2Proof.Machine

/-! Ring tokens. -/

/-- The FIFOs that `WP`, `WN`, `SP`, `SN` name for an engine, in the order of R88 (spec/02_encoding.md R26). -/
def Engine.wp : Engine → Nat | .S => 6 | .C => 0 | .M => 2 | .V => 4
def Engine.wn : Engine → Nat | .S => 1 | .C => 3 | .M => 5 | .V => 7
def Engine.sp : Engine → Nat | .S => 7 | .C => 1 | .M => 3 | .V => 5
def Engine.sn : Engine → Nat | .S => 0 | .C => 2 | .M => 4 | .V => 6

/-- The tokens in a FIFO of a core. -/
def Core.tokens (c : Core) (f : Nat) : List Mark := c.fifo.get [] f
def Core.setTokens (c : Core) (f : Nat) (l : List Mark) : Core := { c with fifo := c.fifo.set [] f l }

/-- Note that `n` tokens have come into a FIFO during the present clock. -/
def Core.came (c : Core) (key n : Nat) : Core := { c with fresh := c.fresh.set 0 key (c.fresh.get 0 key + n) }

/-- Take `n` tokens from a FIFO, of those that were there when the clock began (R89); what they hand
on. -/
def Core.takeFrom (c : Core) (f n : Nat) : Option (Core × Mark) :=
  let l := c.tokens f
  if n + c.fresh.get 0 f ≤ l.length then some (c.setTokens f (l.drop n), (l.take n).foldl Mark.join {}) else none

/-- The tokens that the ring bits name, `n` from each FIFO, all of them or none (R88, R268). -/
def Core.take (c : Core) (e : Engine) (p : Pre) (n : Nat) : Option (Core × Mark) :=
  match (if p.wp then c.takeFrom e.wp n else some (c, {})) with
  | none => none
  | some (c1, m1) =>
    match (if p.wn then c1.takeFrom e.wn n else some (c1, {})) with
    | none => none
    | some (c2, m2) => some (c2, m1.join m2)

/-- The FIFOs that an instruction pushes have room for `n` tokens each (R88, R89). -/
def Core.room (c : Core) (e : Engine) (p : Pre) (n : Nat) : Bool :=
  (!p.sp || decide ((c.tokens e.sp).length + n ≤ Config.fifoDepth)) &&
  (!p.sn || decide ((c.tokens e.sn).length + n ≤ Config.fifoDepth))

/-- Push `n` tokens that hand on `mark` into each FIFO named. -/
def Core.push (c : Core) (e : Engine) (p : Pre) (n : Nat) (mark : Mark) : Core :=
  let put := fun (c : Core) (f : Nat) => (c.setTokens f (c.tokens f ++ List.replicate n mark)).came f n
  let c := if p.sp then put c e.sp else c
  if p.sn then put c e.sn else c

/-! Semaphores. -/

def Core.semAt (c : Core) (k : Nat) : Sem := c.sem.get {} k
/-- Take `n` from a semaphore where its count at the start of the clock, less what has been served, covers it; what its
signals hand on (R266). -/
def Core.semTake (c : Core) (k n : Nat) : Option (Core × Mark) :=
  let q := c.semAt k
  if n ≤ q.count then
    let r := takeLots q.lots n
    some ({ c with sem := c.sem.set {} k { q with lots := r.1 } }, r.2)
  else none
/-- Signal `n`, to be added at the end of the clock, where a sum above 65,535 is fatal (R266). -/
def Core.semAdd (c : Core) (k n : Nat) (mark : Mark) : Core :=
  if n = 0 then c
  else
    let q := c.semAt k
    { c with sem := c.sem.set {} k { q with inc := q.inc ++ [(n, mark)] } }

/-! Grants to the strands' instructions (R89, R266, spec/13_barrier.md R423). -/

/-- What an S instruction takes at issue: `n` tokens of each FIFO that its ring bits name, and the count of a
`kwait.s`. -/
def sNeeds (i : Instr) (n : Nat) : List (Nat × Nat) :=
  let p := instrPre i
  (if p.wp then [(Engine.S.wp, n)] else []) ++ (if p.wn then [(Engine.S.wn, n)] else []) ++
  (match i with | .kwait _ k m e => if e = 0 then [(8 + k.toNat, m.toNat)] else [] | _ => [])

/-- What a WAITING strand waits to be granted. -/
def Strand.needs (t : Strand) : List (Nat × Nat) :=
  match t.life, t.wait with
  | .waiting, .grants l => l
  | _, _ => []

/-- Tokens or counts that can be taken in this clock. -/
def Core.avail (c : Core) (key : Nat) : Nat :=
  if key < 8 then (c.tokens key).length - c.fresh.get 0 key else (c.semAt (key - 8)).count
def Core.covers (c : Core) (needs : List (Nat × Nat)) : Bool := needs.all (fun e => decide (e.2 ≤ c.avail e.1))

/-- Strand `j` comes before strand `k` in the rotating order of a FIFO or semaphore. -/
def Core.rot (c : Core) (key : Nat) : Rotor := c.rotor.get {} key
def Core.before (c : Core) (key j k : Nat) : Bool := decide ((c.rot key).rank j < (c.rot key).rank k)

/-- The keys under which two strands contend; where they contend for a semaphore its order governs (R423). -/
def governing (a b : List (Nat × Nat)) : List Nat :=
  let shared := (a.map (fun e => e.1)).filter (fun x => b.any (fun e => e.1 == x))
  let sems := shared.filter (fun x => decide (8 ≤ x))
  if sems.isEmpty then shared else sems

/-- Another strand that waits for the same FIFO or semaphore can be served and comes before strand `k`. -/
def Core.yields (c : Core) (k : Nat) (needs : List (Nat × Nat)) : Bool :=
  c.strands.any (fun e => e.1 != k && !e.2.needs.isEmpty && c.covers e.2.needs &&
    (governing needs e.2.needs).any (fun x => c.before x e.1 k))

/-- The service of strand `k` under a key is noted, and whether it had a contender that was not served. -/
def Core.noteOne (c : Core) (k key : Nat) (contend : Bool) : Core :=
  let r := (c.rot key).serve k
  { c with rotor := c.rotor.set {} key { r with contend := r.contend || contend } }
def Core.note (c : Core) (k : Nat) (needs : List (Nat × Nat)) : Core :=
  needs.foldl (fun c e => c.noteOne k e.1 (c.strands.any (fun t => t.1 != k && t.2.needs.any (fun f => f.1 == e.1)))) c

/-- A strand that contends under these keys in a clock in which another has been served there is not served (R89, R266). -/
def Core.refused (c : Core) (keys : List Nat) : Core :=
  keys.foldl (fun c key => if (c.rot key).served.isEmpty then c
    else { c with rotor := c.rotor.set {} key { c.rot key with contend := true } }) c

/-- The grant of an S instruction's tokens to strand `k`, where they and its count are there and no strand comes
before it; what they hand on. A `kwait.s` takes its count when it is performed. -/
def Core.grant (c : Core) (k : Nat) (i : Instr) (n : Nat) : Option (Core × Mark) :=
  let needs := sNeeds i n
  if c.covers needs && !c.yields k needs then (c.note k needs).take .S (instrPre i) n else none

/-- A strand that waits for a semaphore can be served: it comes before the queue heads (R423). -/
def Core.strandFirst (c : Core) (k : Nat) : Bool :=
  c.strands.any (fun e => e.2.needs.any (fun f => f.1 == 8 + k) && c.covers e.2.needs)

/-! Pushes of the strands' instructions (R88, R89). -/

/-- The FIFOs that an S instruction pushes. -/
def sPushes (i : Instr) : List Nat :=
  let p := instrPre i
  (if p.sp then [Engine.S.sp] else []) ++ (if p.sn then [Engine.S.sn] else [])

/-- The tokens that it pushes into each of them: one, but for `tokpush` (spec/13_barrier.md R268). -/
def pushCount : Instr → Nat
  | .tokpush _ n e => if e = 0 then n.toNat else 1
  | _ => 1

/-- The oldest outstanding instruction of a strand, where only room for its pushes holds its retirement. -/
def Core.retiring (c : Core) (k : Nat) (t : Strand) : Option Instr :=
  if t.outs = 0 then (if t.micro.stage = 9 || t.micro.held then t.micro.instr else none)
  else match c.out.find? (fun e => e.k == k) with
    | some e => if e.done || e.snap.micro.held then some e.instr else none
    | none => none

/-- The FIFOs that an S instruction pushes have room. -/
def Core.pushFree (c : Core) (i : Instr) : Bool :=
  (sPushes i).all (fun f => decide ((c.tokens f).length + pushCount i ≤ Config.fifoDepth))

/-- There is room for the tokens that strand `k`'s instruction pushes into each FIFO that it names, and no other strand that
waits to push into one of them could do so and comes before it. -/
def Core.pushRoom (c : Core) (k : Nat) (i : Instr) : Bool :=
  c.pushFree i && !c.strands.any (fun t => t.1 != k && (match c.retiring t.1 t.2 with
    | none => false
    | some j => c.pushFree j && (sPushes i).any (fun f => (sPushes j).contains f && c.before (32 + f) t.1 k)))

/-- Note strand `k`'s push. -/
def Core.notePush (c : Core) (k : Nat) (i : Instr) : Core :=
  (sPushes i).foldl (fun c f => c.noteOne k (32 + f) (c.strands.any (fun t => t.1 != k && (match c.retiring t.1 t.2 with
    | none => false
    | some j => (sPushes j).contains f)))) c

/-- A push that is refused (R89). -/
def Core.refusedPush (c : Core) (i : Instr) : Core := c.refused ((sPushes i).map (fun f => 32 + f))

/-- Full FIFOs alone hold strand `k`: its oldest instruction waits for room, and the others have been performed or have not
begun. -/
def Core.fifoHeld (c : Core) (k : Nat) : Bool :=
  let t := c.strandAt k
  let mine := c.out.filter (fun e => e.k == k)
  mine.all (fun e => e.done || e.snap.micro.held || e.snap.micro.stage == 0) && (t.micro.stage == 0 || t.micro.stage == 9 || t.micro.held) &&
  (match c.retiring k t with | some i => !c.pushFree i | none => false)

/-! The life of a strand. -/

/-- A strand's life becomes `l`; a strand that is HALTED for a debug step stays HALTED (R82). -/
def Strand.live (t : Strand) (l : Life) : Strand :=
  if t.life = .halted then { t with haltedFrom := l } else { t with life := l }

/-- The life of a strand that issues: HANDLER inside the handler, else RUNNING. -/
def Strand.active (t : Strand) : Life := if t.inHandler then .handler else .running

/-- A waiting strand that stops does so before its instruction, which issues again; but a `bar` after its
arrival and a `syswr` to `SVREQ` resume inside their wait (R109). The ring tokens that the first issue took stay taken (DESIGN
CHOICE, log entry 72). -/
def Strand.backOff (t : Strand) : Strand :=
  match t.wait with
  | .barrier _ _ => t
  | .supervisor => t
  | _ => { t with micro := {} }

/-- The strand stops and is saved with the state it left (R82). -/
def Strand.stop (t : Strand) : Strand :=
  match t.life with
  | .halted => { t with life := .saved, haltMark := t.haltMark || !t.unmarked, unmarked := false, stopSoon := false }
  | .done => t
  | .free => t
  | .saved => t
  | .waiting => { t.backOff with life := .saved, haltedFrom := .waiting, stopSoon := false }
  | _ => { t with life := .saved, haltedFrom := t.life, stopSoon := false }

/-- A suspended loop stands innermost (R107). -/
def Strand.suspended (t : Strand) : Bool :=
  match t.loops with
  | [] => false
  | e :: _ => e.susp

/-- A strand of a group that exits: DONE, with nothing left to wait for (spec/12_group.md R259). -/
def Strand.ended (t : Strand) : Strand :=
  { t with life := .done, loops := [], sg := 0xF, hidden := none, preemptAt := none, stopSoon := false,
           micro := {}, wait := .grants [], released := false, waitHalf := none, arr := 0, haltSoon := false, ending := false,
           outs := 0 }

/-- The strand stands between two instructions, and every one before it has retired (spec/06_scalar.md R113; log entry
57). -/
def Strand.between (t : Strand) : Bool := t.micro.stage == 0 && t.outs == 0

/-- A HALTED strand with no instruction under way; a `brk` that has halted it has performed nothing (R344). -/
def Strand.rests (t : Strand) : Bool := t.life == .halted && t.outs == 0 && (t.micro.stage == 0 || !t.stepping)

/-- The strand issues nothing more: it stops at this boundary once what it has issued has retired (R82, R109,
spec/06_scalar.md R113, spec/12_group.md R259). -/
def Strand.stops (t : Strand) : Bool :=
  t.ending || t.stopSoon || t.haltSoon || t.preemptAt.isSome && (t.life == .waiting || t.loops.isEmpty || t.suspended)

/-- A debug halt that came inside an instruction takes effect: HALTED, with the state it leaves recorded (R82). -/
def Strand.haltNow (t : Strand) : Strand :=
  if t.haltSoon && t.life != .halted then { t with life := .halted, haltedFrom := t.life, haltSoon := false } else t

/-- The strand stops for its group to be saved; a halt noted before is its halt mark (R83). -/
def Strand.stopMarked (t : Strand) : Strand :=
  ({ t with haltMark := t.haltMark || t.haltSoon, haltSoon := false } : Strand).stop

/-- A pre-emption request stops a strand at an instruction boundary outside loops, or where its loop has been
suspended; a yield, a park or the time limit at any instruction boundary (R82, R107, R109). -/
def Strand.atBoundary (t : Strand) : Strand :=
  if t.outs ≠ 0 then t
  else if t.ending then t.ended
  else if t.stopSoon || (t.preemptAt.isSome && (t.loops.isEmpty || t.suspended)) then t.stopMarked else t.haltNow

/-- A strand that becomes WAITING while it is asked to stop stops at once (R109). -/
def Strand.waits (t : Strand) (w : Wait) : Strand :=
  let t := ({ t with wait := w } : Strand).live .waiting
  if t.outs ≠ 0 then t
  else if t.ending then t.ended
  else if (t.stopSoon || t.preemptAt.isSome) && t.life == .waiting then t.stopMarked else t.haltNow

/-- A strand that was asked to stop while it had instructions outstanding stops once they have retired. -/
def Strand.settleStop (t : Strand) : Strand :=
  if t.outs ≠ 0 then t
  else match t.life with
    | .waiting => t.waits t.wait
    | .halted => if !t.rests then t else if t.ending then t.ended else if t.stopSoon || t.preemptAt.isSome then t.stopMarked else t
    | .running => if t.between then t.atBoundary else t
    | .handler => if t.between then t.atBoundary else t
    | _ => t

/-! Launches. -/

/-- The journal record of a launch (R316). -/
def State.launchRec (s : State) (l : Nat) (st : LState) (cause : BitVec 8) : State :=
  match s.launches.find? l with
  | none => s
  | some x => s.journal { queue := x.queue, st := st, cause := cause, node := x.node.isSome, sseq := x.sseq,
                          task := (match x.node with | some (_, n) => n | none => 0), digest := x.digest }

/-- The record of a discarded task, or of the tasks cut (R308). -/
def State.taskRec (s : State) (l : Nat) (task : Nat) (cause : BitVec 8) (cut : Bool) : State :=
  match s.launches.find? l with
  | none => s
  | some x => s.journal { queue := x.queue, st := .discarded, cause := cause, cut := cut, trec := true,
                          sseq := x.sseq, task := task, digest := x.digest }

/-- A launch that names kernel entry `k` ends (spec/14_kernel.md R277). -/
def KEntry.release (k : KEntry) : KEntry :=
  if k.n ≤ 1 then { st := (if k.st = .unloading then .empty else .loaded), n := 0 } else { k with n := k.n - 1 }

/-- The kernel table entries that a launch names. -/
def Launch.kernels (x : Launch) : List Nat :=
  match x.frond with
  | some f => (f.pinnae.map (fun p => p.kidx)).eraseDups
  | none => if bitsOf (x.words.getD 0 0) 0 4 = 0 || bitsOf (x.words.getD 0 0) 0 4 = 5 then [bitsOf (x.words.getD 3 0) 0 10] else []

/-- The kernel entries of a launch of a context are given up. -/
def State.freeKernels (s : State) (x : Launch) : State :=
  s.modCtx x.ctx (fun c => { c with kernels := x.kernels.foldl (fun t k => t.set {} k (t.get {} k).release) c.kernels })

/-- The nodes of a graph that never launched go with it. -/
def State.dropNodes (s : State) (x : Launch) : State :=
  x.graph.foldl (fun s e => match e.2.launch with
    | none => s
    | some nl => match s.launches.find? nl with
      | none => s
      | some y => if y.st = .accepted then (s.freeKernels y).modLaunch nl (fun z => { z with st := .discarded }) else s) s

/-- A step of a queue has ended: it has read no page in the next one yet (spec/09_page.md R187). -/
def State.newStep (s : State) (x : Launch) : State :=
  if x.node.isNone then
    { s with pool := { s.pool with pages := s.pool.pages.map (fun e => (e.1, { e.2 with readBy := e.2.readBy.filter (fun q => q != x.queue) })) } }
  else s

/-- A queue of a discarded frond drops its items (spec/14_kernel.md R286). -/
def Rachis.discard (r : Rachis) : Rachis := { r with items := [], entered := [], discarded := true }

/-- A launch, or a spore that launches nothing, ends: its record, its kernel entries, the queue's completion
counter (R308), and for a graph node its graph (R311). -/
def State.finishLaunch (s : State) (l : Nat) (st : LState) (cause : BitVec 8) : State :=
  match s.launches.find? l with
  | none => s
  | some x =>
    let s := s.launchRec l st cause
    let s := s.modLaunch l (fun x => { x with
      st := st, ending := none, next := x.ntasks
      frond := if st = .discarded then x.frond.map (fun f => { f with queues := f.queues.map Rachis.discard }) else x.frond })
    let s := ((s.freeKernels x).dropNodes x).newStep x
    match x.node with
    | some (gl, n) =>
      let s := s.modLaunch gl (fun y => { y with graph := y.graph.upd n (fun nd => { nd with done := st == .completed }) })
      if st = .completed then
        let g : Tbl GNode := ((s.launches.find? gl).map (fun y => y.graph)).getD []
        let outs : List GEdge := match Tbl.find? g n with | none => [] | some nd => nd.outs
        let s := outs.foldl (fun s e =>
          s.modLaunch gl (fun y => { y with graph := y.graph.upd e.dst (fun nd => { nd with pred := nd.pred - 1 }) })) s
        s.soon [.event (.launchEnd gl)]
      else s.soon [.event (.launchEnd gl)]
    | none =>
      let cc := bitsOf ((s.queueAt x.queue).word 1) 0 48
      if st = .completed && cc != 0 then
        let r := s.counterReport x.ctx cc 1
        if r.1 then r.2.counterFault x.queue cc else r.2
      else s

/-! Groups. -/

/-- What `gid` with sel `task` reads (spec/12_group.md R258, spec/14_kernel.md R278). -/
def Group.taskValue (g : Group) : Word :=
  match g.pinna with
  | none => g.task
  | some p => match p.taken with | some n => BitVec.ofNat 64 n | none => BitVec.allOnes 64

/-- A group of a context holds cores. -/
def GState.resident : GState → Bool
  | .loading => true
  | .running => true
  | .saving => true
  | .exiting => true
  | _ => false

/-- The state of a context when its last resident group has left (spec/16_context.md R326). -/
def State.settleCtx (s : State) (n : Nat) : State :=
  if (s.ctxAt n).st = .running && !(s.groups.any (fun e => e.2.ctx == n && e.2.st.resident)) then
    let kept := s.groups.any (fun e => e.2.ctx == n && (e.2.st == .saved || e.2.st == .parked))
    s.modCtx n (fun c => { c with st := if kept then .preempted else .runnable })
  else s

/-- The charge of a placement is corrected to the core time used (spec/15_queue.md R312), in core-ns. -/
def State.settleCharge (s : State) (g : Nat) : State :=
  match s.groups.find? g with
  | none => s
  | some x => s.modCtx x.ctx (fun c => { c with deficit :=
      c.deficit + x.size * 25000 - x.size * (s.pkg.up - x.placedAt : Nat) })

/-- A strand is FREE (spec/05_strand.md R82): nothing of what it was doing is left, and its registers stay as they are until a
group starts (R80). -/
def Strand.freed (t : Strand) : Strand :=
  { t with
    life := .free, haltedFrom := .running, haltMark := false, unmarked := false, waitHalf := none, wait := .grants [], micro := {}
    preemptAt := none, stopSoon := false, haltSoon := false, outs := 0, behind := false, ending := false, released := false
    stepping := false, skipBreak := false, watchHit := false, mark := {} }

/-- A core is free again: engines, tokens, semaphores and controller hold nothing and the strands are FREE; tiles and banks
that are not HELD are clear; other groups' transfers and pieces stay. -/
def Core.vacate (c : Core) (g : Nat) : Core :=
  { c with
    strands := c.strands.map (fun e => (e.1, e.2.freed)), fifo := [], sem := [], issued := [], out := [], vstarts := 0, vbusy := [], vq := [], mq := [], cq := [], fq := [], rlc := {}
    counters := [], group := none, gated := false, awayTiles := [], awayBanks := []
    peeks := c.peeks.filter (fun p => p.grp.isSome && p.grp != some g)
    tiles := (c.tiles.filter (fun e => (e.2.st == .held || e.2.st == .scanning) && e.2.owner != some g))
    banks := c.banks.map (fun e => (e.1,
      { active := if (e.2.active.st == .held || e.2.active.st == .scanning) && e.2.active.owner != some g then e.2.active else {}
        shadow := if (e.2.shadow.st == .held || e.2.shadow.st == .scanning) && e.2.shadow.owner != some g then e.2.shadow else {} })) }

/-- The engines' clocks run again: a stopped matrix command goes on at its next row (spec/08_tile.md R162). -/
def Core.ungate (c : Core) : Core :=
  { c with gated := false, mq := c.mq.map (fun e => { e with st := if e.st = .stopped then .running else e.st }) }

/-- The transfers, tiles, banks and pieces that group `g` holds on a core are dropped. -/
def Core.forget (c : Core) (g : Nat) : Core :=
  { c with
    channels := c.channels.map (fun e => (e.1, { e.2 with queue := e.2.queue.filter (fun t => t.grp != g) }))
    peeks := c.peeks.filter (fun p => p.grp != some g)
    tiles := c.tiles.filter (fun e => e.2.owner != some g)
    banks := c.banks.map (fun e => (e.1,
      { active := if e.2.active.owner = some g then {} else e.2.active
        shadow := if e.2.shadow.owner = some g then {} else e.2.shadow }))
    pieces := c.pieces.filter (fun e => e.2.grp != g) }

/-- Channels of a core return to IDLE, keeping transfers of groups that were saved from it (R242). -/
def Core.idleChannels (c : Core) (g : Nat) : Core :=
  { c with channels := c.channels.map (fun e => (e.1, { queue := e.2.queue.filter (fun t => t.grp != g) })) }

/-- A context exists: it has been created and has not ended. -/
def CState.exists (st : CState) : Bool := st != .none && st != .retired
/-- CREATED to PREEMPTED. -/
def CState.alive (st : CState) : Bool := st.exists && st != .failed

/-! The save area (spec/16_context.md R336): where it lies. -/

def slotBytes : Nat := 0x3010000
def Context.saveAt (c : Context) : Nat := bitsOf (c.word 6) 0 48
def Context.slots (c : Context) : Nat := bitsOf (c.word 6) 48 16

/-- A group slot, and the core slot of a rank in it. -/
def Context.slotAt (c : Context) (slot : Nat) : Nat := c.saveAt + slot * slotBytes
def Context.coreSlotAt (c : Context) (slot rank : Nat) : Nat := c.slotAt slot + 0x10000 + rank * 0x300000

/-- Where context-scope counter `i` stands: in the context record of the save area; none for a trusted world, whose record
is sealed (R328), and for a context without a save area, whose counters the model keeps (log entry 43). -/
def Context.counterAt (c : Context) (i : Nat) : Option Nat :=
  let a := c.saveAt + c.slots * slotBytes + 8 * i
  if c.world = 0 ∧ c.slots ≠ 0 ∧ a + 8 ≤ Config.hbmBytes then some a else none

/-- A context-scope counter (R342). -/
def State.ctxCounter (s : State) (n i : Nat) : Word :=
  match (s.ctxAt n).counterAt i with
  | some a => s.hbmWord none a
  | none => (s.ctxAt n).counters.get 0 i

/-- Core counters are added to the context's (R342). -/
def State.addCounter (s : State) (n i : Nat) (v : Word) : State :=
  match (s.ctxAt n).counterAt i with
  | some a => s.commitBytes (place (addrs a 8) (wordBytes (s.hbmWord none a + v)))
  | none => s.modCtx n (fun k => { k with counters := k.counters.set 0 i (k.counters.get 0 i + v) })
def State.addCounters (s : State) (n : Nat) (t : Tbl Word) : State := t.foldl (fun s e => s.addCounter n e.1 e.2) s

/-- A remote operation that ends with its task: all but page requests, renewals and the session's; puts that have been
sent land at their receiver (spec/18_link.md R378). -/
def RemoteKind.owned : RemoteKind → Bool
  | .page _ _ => false
  | .renew _ => false
  | .session => false
  | _ => true

/-- What a task had beside its cores goes with it: what it left in place elsewhere, its remote operations, wait-table entries,
sequencers and requests. -/
def State.unbind (s : State) (g ctx : Nat) (last : BitVec 8) : State :=
  let gone : List Nat := (s.pool.remotes.filter (fun r => r.2.grp == g && r.2.kind.owned)).map (fun r => r.1)
  let s := { s with
    cores := s.cores.map (fun e : Nat × Core => (e.1, e.2.forget g)),
    pool := { s.pool with remotes := s.pool.remotes.filter (fun r => !(r.2.grp == g && r.2.kind.owned)) },
    waitTable := s.waitTable.filter (fun w => w.grp != g),
    ports := s.ports.map (fun e : Nat × Port =>
      let q := e.2.takeBack gone
      (e.1, if q.seq.grp = some g then
        { q with seq := { q.seq with grp := none, st := .idle, word := none,
                                     last := if q.seq.st = SqState.idle then q.seq.last else last } }
      else q)) }
  s.modCtx ctx (fun k => { k with requests := k.requests.filter (fun r => r.grp != g) })

/-- The group leaves the package: cores, tiles, channels, pieces, counters, sequencers, wait-table entries
and requests. Units already published are written to their homes (log entry 7), except with `drop`. -/
def State.removeGroup (s : State) (g : Nat) (st : GState) (last : BitVec 8) (drop : Bool) : State :=
  match s.groups.find? g with
  | none => s
  | some x =>
    let s := if x.st.resident then s.settleCharge g else s
    let s := if drop then s else
      x.ver.bounds.foldl (fun s b => b.hunits.foldl (fun s u => s.commitUnit (u.addr / 8) u.bytes) s) s
    let here := if x.st.resident then x.cores else []
    let s := here.foldl (fun s c => s.addCounters x.ctx (s.coreAt c).counters) s
    let s := (x.saved.getD []).foldl (fun s i => s.addCounters x.ctx i.counters) s
    let s := here.foldl (fun s c => s.modCore c (fun k => (k.idleChannels g).vacate g)) s
    let s := s.unbind g x.ctx last
    let s := s.modGroup g (fun y => { y with st := st, ver := {}, saved := none, contain := none, parking := none, finalBound := none, slot := none })
    s.settleCtx x.ctx

/-- The task of a group is discarded with a record (R308). -/
def State.endTask (s : State) (g : Nat) (cause : BitVec 8) : State :=
  match s.groups.find? g with
  | none => s
  | some x =>
    let s := s.removeGroup g .ended cause (cause == 0x42 || x.fenced)
    let s := s.taskRec x.launch x.taskValue.toNat cause false
    s.modLaunch x.launch (fun l => { l with lost := l.lost + 1 })

/-- The groups of a launch that have neither retired nor ended. -/
def State.liveGroups (s : State) (l : Nat) : List Nat :=
  (s.groups.filter (fun e => e.2.launch == l && e.2.st != .retired && e.2.st != .ended)).map (fun e => e.1)

/-- No task runs (spec/01_package.md R21). -/
def State.idleTasks (s : State) : Bool := s.groups.all (fun e => e.2.st == .retired || e.2.st == .ended)

/-- The pool session is closed: its leases are released and its pages ABSENT (spec/09_page.md R185). -/
def State.closeSession (s : State) : State :=
  let s := s.pool.pages.foldl (fun s e => s.send (.released (e.1 / 2 ^ 32) (e.1 % 2 ^ 32))) s
  { s.send (.sessionClosed (s.pool.token.getD 0)) with pool := { s.pool with token := none, pages := [], remotes := [] } }

/-- With no task running a DRAINING package closes its session and is QUIESCED (spec/01_package.md R20, R22: at the
clock's end). -/
def State.drainTest (s : State) : State :=
  if s.pkg.st = .draining && s.idleTasks then
    let s := { s with pkg := { s.pkg with st := .quiesced, drainDeadline := none } }
    (s.event 0x02 0xFF 0xFF (s.pool.token.getD 0).toNat 0).closeSession
  else s

/-- A containment takes effect: the task ends and is journaled DISCARDED; a frond launch ends whole
(spec/10_phase.md R217, spec/14_kernel.md R287). -/
def State.containNow (s : State) (g : Nat) (cause : BitVec 8) : State :=
  match s.groups.find? g with
  | none => s
  | some x =>
    if x.st = .retired || x.st = .ended then s
    else match x.pinna with
      | some _ =>
        let s := s.endTask g cause
        let s := (s.liveGroups x.launch).foldl (fun s g' => s.removeGroup g' .ended cause false) s
        s.finishLaunch x.launch .discarded 0
      | none => s.endTask g cause

/-- `Contain(cause)` (R10): the task stops; the containment takes effect at the end of the clock, or of the clock in which
its last boundary in progress completes, which a FENCED one does not wait for (R217). Of several causes the first stays
(log entry 56). -/
def State.contain (s : State) (g : Nat) (cause : BitVec 8) : State :=
  s.modGroup g (fun y => if y.st = .retired || y.st = .ended then y
    else { y with contain := some (y.contain.getD cause), fenced := y.fenced || cause == 0x42 })

/-- A task's journal order: queue, then spore, then nodes before their graph. -/
def launchBefore (a b : Nat × Launch) : Bool :=
  if a.2.queue = b.2.queue then
    if a.2.sseq = b.2.sseq then a.2.node.isSome && (b.2.node.isNone || decide (a.1 < b.1))
    else decide (a.2.sseq.toNat < b.2.sseq.toNat)
  else decide (a.2.queue < b.2.queue)

/-- Insert a launch at its place. -/
def launchInsert (x : Nat × Launch) : List (Nat × Launch) → List (Nat × Launch)
  | [] => [x]
  | y :: t => if launchBefore x y then x :: y :: t else y :: launchInsert x t
def launchSort (l : List (Nat × Launch)) : List (Nat × Launch) := l.foldl (fun acc x => launchInsert x acc) []

/-- A launch that ends early: its running tasks are discarded, its tasks not started are cut, and it is
journaled PARTIAL or DISCARDED (R308, R21); a graph is PARTIAL even where no node has completed (DESIGN CHOICE, log entry
73). -/
def State.cutLaunch (s : State) (l : Nat) (cause : BitVec 8) : State :=
  match s.launches.find? l with
  | none => s
  | some x =>
    let s := (s.liveGroups l).foldl (fun s g => s.endTask g cause) s
    match s.launches.find? l with
    | none => s
    | some y =>
      let s := if y.frond.isNone && y.graph.isEmpty && decide (y.next < y.ntasks) then
          s.taskRec l (bitsOf (y.words.getD 2 0) 32 32 + y.next) cause true else s
      if !y.graph.isEmpty then s.finishLaunch l (if y.graph.all (fun e => e.2.done) then .completed else .partly) 0
      else s.finishLaunch l (if x.frond.isSome || y.completed = 0 then .discarded else .partly) 0

/-- A queue is DISABLED (R301). -/
def State.disableQueue (s : State) (q : Nat) : State :=
  let x := s.queueAt q
  if x.st = .disabled then s
  else
    let ls := launchSort (s.launches.filter (fun e => e.2.queue == q && e.2.st == .accepted && e.2.node.isNone))
    let s := ls.foldl (fun s e => s.finishLaunch e.1 .discarded 0x0C) s
    s.modQueue q (fun y => { y with st := .disabled, counterStop := false, held := none, buffer := []
                                    key := if y.authenticated then none else y.key
                                    keyFresh := false })

/-- A launch that has been released and has not ended. -/
def LState.live : LState → Bool
  | .released => true
  | .running => true
  | _ => false

/-- `Fatal(cause)` takes effect (R326): the context FAILED, its groups ENDED, its launches ended, its queues DISABLED. -/
def State.fatalNow (s : State) (n : Nat) (cause : BitVec 8) : State :=
  let s := s.modCtx n (fun c => { c with st := .failed, fcause := cause, dying := none })
  let ls := launchSort (s.launches.filter (fun e => e.2.ctx == n && e.2.st.live))
  let s := ls.foldl (fun s e => s.cutLaunch e.1 cause) s
  let gs := s.groups.filter (fun e => e.2.ctx == n && e.2.st != .retired && e.2.st != .ended)
  let s := gs.foldl (fun s e => s.removeGroup e.1 .ended cause false) s
  (List.range 1024).foldl (fun s q => if (s.queueAt q).ctx = n then s.disableQueue q else s) s

/-- The lowest code of the fatal errors that the context has met in the present clock and of another (R327). -/
def Context.worst (c : Context) (cause : BitVec 8) : BitVec 8 :=
  match c.dying with
  | some d => if d.toNat < cause.toNat then d else cause
  | none => cause

/-- `Fatal(cause)` (R10): at the end of the clock the context fails with the lowest code of those raised in it (R327). -/
def State.fatal (s : State) (n : Nat) (cause : BitVec 8) : State :=
  if (s.ctxAt n).st.alive then s.modCtx n (fun c => { c with dying := some (c.worst cause) }) else s

/-- Containment and fatal error at the moving strand. -/
def State.containMine (s : State) (cause : BitVec 8) : State :=
  match s.myCore.group with
  | none => s
  | some g => s.contain g cause
def State.fatalMine (s : State) (cause : BitVec 8) : State := s.fatal s.myCtx cause

/-! Traps. -/

/-- Count an event of a core (spec/16_context.md R342). -/
def Core.count (c : Core) (i n : Nat) : Core :=
  { c with counters := c.counters.set 0 i (c.counters.get 0 i + BitVec.ofNat 64 n) }
def State.countMine (s : State) (i n : Nat) : State := s.modCore s.core (fun c => c.count i n)

/-- The strand enters its handler (R332). -/
def Strand.enter (t : Strand) (entry : BitVec 48) (cause : BitVec 8) (epc : BitVec 48) (info info2 : Word) : Strand :=
  let t' : Strand :=
    { t with
      epc := zx epc, ecause := zx cause, einfo := info, einfo2 := info2
      hidden := some { loops := t.loops, sg := t.sg, rb := t.rb }
      loops := [], sg := 0xF, rb := 0
      pc := entry, micro := {}, wait := .grants [], released := false, stepping := false }
  t'.live .handler

/-- The handler's address (R321): 0 means no handler. -/
def Context.hentry (c : Context) : BitVec 48 := (c.word 2).extractLsb' 0 48

/-- A precise trap of the moving strand (R332, R333): DOUBLE inside the handler, containment without a
handler, else entry. `epc` is the address that `EPC` receives. -/
def State.takeTrapAt (s : State) (cause : BitVec 8) (epc : BitVec 48) (info info2 : Word) : State :=
  let t := s.me
  let h := (s.ctxAt s.myCtx).hentry
  if t.inHandler then s.containMine 0x44
  else if h = 0 then s.containMine cause
  else ((s.setMe (t.enter h cause epc info info2).atBoundary).countMine 9 1)

/-- A precise trap at the instruction at `PC`. -/
def State.takeTrap (s : State) (cause : BitVec 8) (info info2 : Word) : State :=
  s.takeTrapAt cause s.me.pc info info2

/-- The strand leaves its handler (R345): it goes on at `EPC`, word-aligned (spec/05_strand.md R81), the loop context and the files are its own again, and a kept
wait half resumes. -/
def Strand.leave (t : Strand) : Strand :=
  match t.hidden with
  | none => t
  | some h =>
    let t : Strand := { t with hidden := none, loops := h.loops, sg := h.sg, rb := h.rb, pc := t.epc.extractLsb' 2 46 ++ 0#2,
                               micro := {}, released := false, stepping := false }
    match t.waitHalf with
    | none => t.live .running
    | some (j, tok) => ({ t with waitHalf := none, micro := { stage := 1, id := tok.toNat } } : Strand).waits (.barrier j tok)

/-! Issue. -/

/-- What an instruction's effect comes to. -/
inductive Eff
  /-- performed: retire at the next instruction -/
  | done (s : State)
  /-- performed: retire at an address -/
  | goto (s : State) (pc : BitVec 48)
  /-- `Trap(cause)` with `EINFO` and `EINFO2`: nothing performed -/
  | trap (cause : BitVec 8) (info info2 : Word)
  /-- a trap taken after the instruction: `EPC` is the next address (TRAP and BRK) -/
  | trapNext (cause : BitVec 8) (info : Word)
  /-- a trap that records a change of the strand beside it (R92: a failed refetch) -/
  | trapAfter (f : Strand → Strand) (cause : BitVec 8) (info info2 : Word)
  /-- `Contain(cause)` -/
  | contain (cause : BitVec 8)
  /-- `Contain(cause)` in the state that the access left: a line it found in error is marked -/
  | containAt (s : State) (cause : BitVec 8)
  /-- `Fatal(cause)` -/
  | fatal (cause : BitVec 8)
  /-- not issued: the strand becomes WAITING -/
  | wait (w : Wait)
  /-- not issued: the strand stays RUNNING -/
  | stall
  /-- issued, and WAITING inside the instruction -/
  | hold (s : State) (w : Wait)
  /-- issued, and RUNNING inside the instruction -/
  | keep (s : State)
  /-- performed; the tokens are pushed, the instruction is counted, and `f` moves the strand -/
  | finish (s : State) (f : State → State)

/-- The strand after it retires an instruction: `PC`, marks and the stop of a pre-emption. -/
def Strand.retire (t : Strand) (pc : BitVec 48) : Strand :=
  let t' : Strand := { t with pc := pc, micro := {}, released := false, stepping := false, skipBreak := false }
  (t'.live t.active).atBoundary

/-- The moving strand, which stands in `s`, issues and comes to `s'`: it is noted for counter 7 of R342, the strand-clocks
RUNNING without issue. -/
def State.issuedIn (s s' : State) : State :=
  if s.me.micro.stage = 0 && !s.me.behind then s'.modCore s'.core (fun c => { c with issued := s.strand :: c.issued })
  else s'

/-- The ring tokens of an S instruction are pushed and the instruction is counted. -/
def pushed (i : Instr) (s : State) : State :=
  s.modCore s.core (fun c => ((c.notePush s.strand i).push .S (instrPre i) (pushCount i) s.me.mark).count 1 1)

/-- The state after an S instruction retires at `pc`. -/
def retired (i : Instr) (s : State) (pc : BitVec 48) : State := (pushed i s).modMe (fun t => t.retire pc)

/-- Inside its instruction `i`, at a stage. -/
def Strand.inside (t : Strand) (i : Instr) (stage : Nat) (pc : BitVec 48) : Strand :=
  { t with micro := { stage := stage, instr := some i, v := zx pc } }

/-- The strand's instruction `i` is held for room (R88): it has issued and nothing of it has been performed since (stage 8), or it
stays where it waited. -/
def Strand.hold (t : Strand) (i : Instr) : Strand :=
  if t.micro.stage = 0 then { t with micro := { stage := 8, instr := some i, held := true } }
  else { t with micro := { t.micro with held := true } }

/-- The state in which `i` is held: its effect takes place when it retires (spec/00_scope.md R9). -/
def held (i : Instr) (b : State) : State :=
  (b.modCore b.core (fun c => c.refusedPush i)).modMe (fun t => t.hold i)

/-- Retire with a move of the strand of its own; where its pushes lack room the instruction is held before it (R88). -/
def finishAt (i : Instr) (b s : State) (f : State → State) : Res :=
  if s.myCore.pushRoom s.strand i then .next (f (pushed i s)) else .next (held i b)

/-- Retire at `pc` (R86): an S instruction pushes its tokens, for which both FIFOs need room, and is counted; other engines'
instructions retire in their engines. One without room is held in `b`, before its effect, unless that touches its strand's
registers alone or takes place at issue. One that has been overtaken only keeps what it has come to: it retires in its turn. -/
def retireAt (i : Instr) (b s : State) (pc : BitVec 48) : Res :=
  if instrEngine i = .S then
    if s.me.behind then .next (s.modMe (fun t => t.inside i 9 pc))
    else if s.me.outs = 0 && s.myCore.pushRoom s.strand i then .next (retired i s pc)
    else if passes i then .next ((s.modCore s.core (fun c => c.refusedPush i)).modMe (fun t => t.inside i 9 pc))
    else .next (held i b)
  else .next (s.modMe (fun t => t.retire pc))

/-- The instruction has issued: what it is stays known while it waits inside. -/
def Strand.issues (t : Strand) (i : Instr) : Strand :=
  if t.micro.stage = 0 then t else { t with micro := { t.micro with instr := some i } }

/-- Settle an effect that began in `s`, with its tokens taken in `b`. A precise trap waits until every earlier S instruction has
retired (R86). -/
def settle (i : Instr) (s b : State) : Eff → Res
  | .done s' => retireAt i (s.issuedIn b) (s.issuedIn s') (s.me.pc + instrSize i)
  | .goto s' pc => retireAt i (s.issuedIn b) (s.issuedIn s') pc
  | .trap c a b => if s.me.outs = 0 then .next (s.takeTrap c a b) else .next s
  | .trapNext c a => if s.me.outs = 0 then .next (s.takeTrapAt c (s.me.pc + instrSize i) a 0) else .next s
  | .trapAfter f c a b => if s.me.outs = 0 then .next ((s.modMe f).takeTrap c a b) else .next s
  | .contain c => .next (s.containMine c)
  | .containAt s' c => .next (s'.containMine c)
  | .fatal c => .next (s.fatalMine c)
  | .wait w => .next (s.modMe (fun t => t.waits w))
  | .stall => .next s
  | .hold s' w => .next ((s.issuedIn s').modMe (fun t => (t.issues i).waits w))
  | .keep s' => .next ((s.issuedIn s').modMe (fun t => t.issues i))
  | .finish s' f => if s.me.outs = 0 then finishAt i (s.issuedIn b) (s.issuedIn s') f else .next s

/-- The engine queue of a C, M or V instruction has a free entry (R84 check 6). -/
def Core.queueRoom (c : Core) : Engine → Bool
  | .S => true
  | .C => decide (c.cq.length < Config.copyQueue)
  | .M => decide (c.mq.length < Config.matrixQueue)
  | .V => decide (c.vq.length < Config.vectorQueue)

/-- An instruction whose guard reads 0 issues and retires with nothing performed (R85). -/
def skipInstr (i : Instr) (s : State) : State :=
  ((s.issuedIn s).countMine 1 1).modMe (fun t => t.retire (t.pc + instrSize i))

/-- A sync-marked instruction outside the handler issues only in its rendezvous (R87). -/
def syncHeld (i : Instr) (t : Strand) : Bool := (instrPre i).sy && !t.inHandler && !t.released

/-- Memory requests of a core outstanding (R86): of its strands' instructions, of its channels' reads, and pool pages that its
transfers wait for. -/
def State.requestsOf (s : State) (c : Nat) : Nat :=
  let co := s.coreAt c
  (co.out.filter (fun e => !e.done && accesses e.instr)).length +
  (co.strands.filter (fun e => e.2.micro.stage != 0 && e.2.micro.stage != 8 && e.2.micro.stage != 9 &&
    (match e.2.micro.instr with | some i => accesses i | none => false))).length +
  (s.pool.remotes.filter (fun r => match r.2.kind with | .copyRead c' _ _ _ => c' == c | _ => false)).length +
  (co.channels.flatMap (fun k => k.2.queue.flatMap (fun t => t.pages))).length

/-- Units of a group's boundaries that are on their way to the pool. -/
def Group.unitsSent (x : Group) : Nat := ((x.ver.bounds.flatMap (fun b => b.punits)).filter (fun u => u.tag.isSome)).length

/-- One more memory request of a core, beside `n` that are being made, is within its 1,536, the group's cores sharing what its
boundaries have sent (spec/01_package.md R14). -/
def State.requestRoom (s : State) (c : Nat) (n : Nat := 0) : Bool :=
  decide (s.requestsOf c + n < Config.requests) &&
  (match (s.groupOf c).bind (fun g => s.groups.find? g) with
    | none => true
    | some x => decide ((x.cores.map s.requestsOf).foldl (· + ·) (x.unitsSent + n) < Config.requests * x.size))

/-- What an S instruction needs to issue beside its operands and tokens: a free memory request where it makes one; and with
others of its strand outstanding, to work on registers alone or to have its effect at issue, past accesses that it may overtake
(R86). -/
def State.mayIssue (s : State) (i : Instr) (n : Nat := 0) : Bool :=
  (!accesses i || s.requestRoom s.core n) &&
  (s.me.outs == 0 || passes i && (!accesses i ||
    s.myCore.out.all (fun e => e.k != s.strand || e.done || overtakes (e.snap, e.instr) (s.me, i))))

/-- What a C, M or V instruction needs beside its operands: room in its queue, and for a copy that the strand's boundaries and
fences before it have been performed (log entry 58). -/
def State.mayDispatch (s : State) (i : Instr) : Bool :=
  s.myCore.queueRoom (instrEngine i) &&
  (!startsCopy i || s.myCore.out.all (fun e => e.k != s.strand || e.done || !e.snap.fencesCopies e.instr))

/-- The instruction at the strand's `PC`, issued by the checks of R84 in their order, and then its effect. With others of
its strand outstanding an S instruction that may not pass them is performed after them, or leaves the strand in its turn
(`State.goAhead`). Stage 8 is one that is held for room: its effect takes place when it retires.
`n` is how many tokens each ring bit takes (1 but for `tokpop`). -/
def issueN (i : Instr) (n : Nat) (s : State) (effect : State → Eff) : Res :=
  let t := s.me
  if t.micro.stage = 9 then retireAt i s s (t.micro.v.extractLsb' 0 48)
  else if t.micro.stage = 8 then settle i s s (effect (s.modMe (fun t => { t with micro := {} })))
  else if t.micro.stage ≠ 0 || t.behind then settle i s s (effect s)
  else if !guardOpen i t then
    if syncHeld i t then .next s else .next (skipInstr i s)
  else if (instrSrcs i).any t.owed then .next s
  else if instrEngine i = .S then
    if !s.mayIssue i then .next s
    else match s.myCore.grant s.strand i n with
    | none => .next ((s.modCore s.core (fun c => c.refused ((sNeeds i n).map (fun e => e.1)))).modMe (fun t => t.waits (.grants (sNeeds i n))))
    | some (c, m) =>
      if syncHeld i t then .next s
      else
        let b := (s.setCore s.core c).modMe (fun t => t.learn m)
        settle i s b (effect b)
  else if s.mayDispatch i then
    if syncHeld i t then .next s else settle i s s (effect s)
  else .next s

/-- Issue with one token for each ring bit. -/
def issue (i : Instr) (s : State) (effect : State → Eff) : Res := issueN i 1 s effect

/-- The effect that writes a scalar result and nothing else. -/
def scalarResult (d : BitVec 6) (r : Reg) (s : State) : Eff := .done (s.modMe (fun t => t.result d r))

/-- A source's poison contains the task (R198). -/
def unlessPoison (p : Bool) (e : Eff) : Eff := if p then .contain 0x40 else e

end Sys2Proof.Machine
end

