-- ==== Sys2Proof/Machine/Sync.lean ====
section
/-! DEFINITION. Barriers and the end of a strand (spec/13_barrier.md R260 to R263, spec/12_group.md R252,
R255). -/

namespace Sys2Proof.Machine

/-- The first ranks of the sub-groups (R255). -/
def Group.firsts (x : Group) : List Nat := ([0, x.b1, x.b2, x.b3]).take x.nsub

/-- The sub-group that holds a rank. -/
def Group.subOf (x : Group) (rank : Nat) : Nat := ((x.firsts.filter (fun b => decide (b ≤ rank))).length) - 1

/-- The ranks of a sub-group: from its first rank to the next one's. -/
def Group.subLo (x : Group) (j : Nat) : Nat := x.firsts.getD j 0
def Group.subHi (x : Group) (j : Nat) : Nat := (x.firsts ++ [x.size]).getD (j + 1) x.size

/-- The cores of a sub-group. -/
def Group.subCores (x : Group) (j : Nat) : List Nat :=
  (x.cores.take (x.subHi j)).drop (x.subLo j)

/-- Barrier `j` of a group. -/
def Group.bar (x : Group) (j : Nat) : Barrier := x.barriers.get {} j
def Group.setBar (x : Group) (j : Nat) (b : Barrier) : Group := { x with barriers := x.barriers.set {} j b }

/-- Clear a strand's ARR bit of barrier `j`. -/
def Strand.clearArr (t : Strand) (j : Nat) : Strand := { t with arr := t.arr &&& ~~~ (1#4 <<< j) }
def Core.mapStrands (c : Core) (f : Strand → Strand) : Core :=
  { c with strands := (List.range 8).foldl (fun t k => t.set {} k (f (t.get {} k))) c.strands }

/-- The same in a saved group, where a credit of a transfer still landing ends the phase (spec/11_copy.md
R243). -/
def Group.clearSavedArr (x : Group) (j : Nat) : Group :=
  { x with saved := x.saved.map (fun l => (List.zip (List.range l.length) l).map (fun e =>
      if x.subOf e.1 = j then { e.2 with strands := e.2.strands.map (fun t => (t.1, t.2.clearArr j)) } else e.2)) }

/-- A barrier that updates have reached in the clock advances where they leave ARRIVE and BYTES 0 (R261). -/
def Barrier.advances (b : Barrier) : Bool := b.touched && b.used && b.arrive == 0 && b.bytes == 0
def Barrier.advance (b : Barrier) : Barrier :=
  { b with phase := b.phase + 1, arrive := b.part, bytes := 0, mark := {}, markDone := b.markDone.join b.mark, touched := false }

/-- An update of barrier `j` in the present clock (R261). -/
def State.barUpdate (s : State) (g j : Nat) (f : Barrier → Barrier) : State :=
  s.modGroup g (fun y => y.setBar j { f (y.bar j) with touched := true })

/-- The one test of barrier `j` of a group at the end of a clock (R261): BYTES outside its range is fatal. -/
def State.barTest (s : State) (g j : Nat) : State :=
  match s.groups.find? g with
  | none => s
  | some x =>
    let b := x.bar j
    if !b.touched then s
    else if b.bytes < -(2 ^ 47) ∨ b.bytes ≥ 2 ^ 47 then s.fatal x.ctx 0x82
    else if b.advances then
      let s := s.modGroup g (fun y => y.setBar j b.advance)
      if x.st.resident then
        (x.subCores j).foldl (fun s c => s.modCore c (fun k => k.mapStrands (fun t => t.clearArr j))) s
      else s.modGroup g (fun y => y.clearSavedArr j)
    else s.modGroup g (fun y => y.setBar j { b with touched := false })

/-- The barriers of every group are tested at the end of a clock. -/
def State.barTests (s : State) : State :=
  (s.groups.map (fun e => e.1)).foldl (fun s g => (List.range 4).foldl (fun s j => s.barTest g j) s) s

/-- Every strand of a core is DONE. -/
def Core.allDone (c : Core) : Bool := (List.range 8).all (fun k => (c.strandAt k).life == .done)

/-- Where every strand of a running group is DONE it goes to EXITING (R252). -/
def State.exitTest (s : State) (g : Nat) : State :=
  match s.groups.find? g with
  | none => s
  | some x =>
    if x.st = .running && x.cores.all (fun c => (s.coreAt c).allDone) then
      (x.cores.foldl (fun s c => s.modCore c Core.ungate) s).modGroup g (fun y => { y with st := .exiting, preemptAt := none })
    else s

/-- A strand becomes DONE: it leaves its barrier (R261), an owed COPY_FAULT of a core whose strands are all
DONE contains the task (spec/11_copy.md R246), and the group may exit. So does a strand in HANDLER, and a HALTED one whose debug
step is `sdone` (DESIGN CHOICE, log entry 55). -/
def State.strandDone (s : State) (c k : Nat) : State :=
  let t := s.strandAt c k
  let s := s.setStrand c k { t with life := .done, preemptAt := none, released := false, micro := {}, wait := .grants [] }
  match s.groupOf c with
  | none => s
  | some g =>
    match s.groups.find? g with
    | none => s
    | some x =>
      let j := x.subOf (rankIn x.cores c)
      let s := if (x.bar j).used then
          s.barUpdate g j (fun b => { b with part := b.part - 1, arrive := if t.arr.getLsbD j then b.arrive else b.arrive - 1 })
        else s
      if (s.coreAt c).allDone && (s.coreAt c).channels.any (fun e => e.2.fpend) then s.contain g 0x0D
      else s.exitTest g

end Sys2Proof.Machine
end

