-- ==== Sys2Proof/Machine/Engine.lean ====
section
/-! DEFINITION. Dispatch into the engine queues (spec/05_strand.md R84, R88): the entry keeps what its
instruction reads at issue. -/

namespace Sys2Proof.Machine

/-- An entry goes behind those of earlier clocks and, among those of this one, to its place in the rotating order of its
queue, or inside a rendezvous in ascending strand number (spec/05_strand.md R87, R91). -/
def seatEntry {α : Type} (rank : α → Nat) (fresh : Nat) (l : List α) (e : α) : List α :=
  let old := l.take (l.length - fresh)
  let new := l.drop (l.length - fresh)
  old ++ new.takeWhile (fun x => decide (rank x ≤ rank e)) ++ [e] ++ new.dropWhile (fun x => decide (rank x ≤ rank e))

/-- The rank of a strand's entry among those of one clock. -/
def Core.entryRank (c : Core) (key : Nat) (sync : Bool) (k : Nat) : Nat := if sync then k else (c.rot key).rank k

/-- The moving strand enters a queue. -/
def State.noteEntry (s : State) (key : Nat) (f : Core → (Nat → Nat) → Nat → Core) : State :=
  s.modCore s.core (fun c =>
    let sync := s.me.released
    let r := c.rot key
    let c' := f c (c.entryRank key sync) (r.served.length + r.synced)
    if sync then { c' with rotor := c'.rotor.set {} key { r with synced := r.synced + 1 } } else c'.noteOne s.strand key false)

/-- A new entry at the tail of the vector queue: its number. -/
def State.enqueueV (s : State) (i : Instr) (s1 s2 s3 : Reg) (addr : Int := 0) : Nat × State :=
  let n := s.fresh
  let t := n.2.me
  let e : VEntry := { id := n.1, owner := n.2.strand, instr := i, rb := t.rb, s1 := s1, s2 := s2, s3 := s3, addr := addr, mark := t.mark }
  (n.1, n.2.noteEntry 26 (fun c r k => { c with vq := seatEntry (fun x => r x.owner) k c.vq e }))

/-- A new entry at the tail of the matrix queue. -/
def State.enqueueM (s : State) (i : Instr) (word : BitVec 32) (a b : Word) : Nat × State :=
  let n := s.fresh
  let e : MEntry := { id := n.1, owner := n.2.strand, instr := i, word := word, a := a, b := b, mark := n.2.me.mark }
  (n.1, n.2.noteEntry 25 (fun c r k => { c with mq := seatEntry (fun x => r x.owner) k c.mq e }))

/-- A new entry at the tail of the copy queue. -/
def State.enqueueC (s : State) (e : CEntry) : State :=
  let n := s.fresh
  let e : CEntry := { e with id := n.1, owner := n.2.strand, mark := n.2.me.mark, point := n.2.me.mark }
  n.2.noteEntry 24 (fun c r k => { c with cq := seatEntry (fun x => r x.owner) k c.cq e })

/-! Accesses of an entry that are not made at once: each aligned 8-byte unit of the scratchpad may be accessed at a time of its
own (spec/07_vector.md R136, spec/10_phase.md R220). -/

/-- The bytes of a unit of a core's scratchpad. -/
def State.unitBytes (s : State) (c unit : Nat) : List Byte := (s.coreAt c).spad.bytes.getRange 0 (unit * 8) 8
def State.setUnit (s : State) (c unit : Nat) (bs : List Byte) : State :=
  s.modCore c (fun co => { co with spad := { co.spad with bytes := co.spad.bytes.setRange 0 (unit * 8) bs } })

/-- The units that an entry has accessed already. -/
def Core.peeksOf (c : Core) (id : Nat) : List Peek := c.peeks.filter (fun p => p.id == id)

/-- The scratchpad as entry `id` sees it: a unit it has accessed already is as it was then. -/
def State.asSeen (s : State) (c id : Nat) : State :=
  ((s.coreAt c).peeksOf id).foldl (fun s p => s.setUnit c p.unit p.bytes) s

/-- The scratchpad after the rest of the access, which `s'` has made of what it saw: a unit that the entry has written already,
or has only read, is as `s` has it. -/
def State.afterSeen (s : State) (c id : Nat) (s' : State) : State :=
  let ps := (s.coreAt c).peeksOf id
  (ps.foldl (fun r p => if p.wrote || s'.unitBytes c p.unit == p.bytes then r.setUnit c p.unit (s.unitBytes c p.unit) else r) s').modCore c
    (fun co => { co with peeks := co.peeks.filter (fun p => p.id != id) })

/-- An entry accesses one unit ahead of its others: `s'` is what its whole access would come to now. A line in error is
met by the whole access. -/
def State.peekUnit (s : State) (c id unit : Nat) (s' : State) : State :=
  let line := unit / 8
  let co := s.coreAt c
  if 49152 ≤ unit ∨ (co.peeksOf id).any (fun p => p.unit == unit) = true ∨ co.spad.latent.get false line = true then s
  else
    let old := s.unitBytes c unit
    let new := s'.unitBytes c unit
    let s := if new = old then s else
      ((s.unmark [s.sMark c (unit * 8)]).setUnit c unit new).modCore c (fun co => { co with spad := { co.spad with
        poison := co.spad.poison.set false line (co.spad.poison.get false line || (s'.coreAt c).spad.poison.get false line) } })
    s.modCore c (fun co => { co with peeks := co.peeks ++ [{ id := id, unit := unit, wrote := new != old, bytes := new }] })

/-- The entry of an instruction of major 0x70 for engine C, M or V (spec/13_barrier.md R267, R268). -/
def State.enqueueSync (s : State) (i : Instr) : State :=
  match instrEngine i with
  | .S => s
  | .C => s.enqueueC { id := 0, owner := 0, instr := i }
  | .M => (s.enqueueM i 0 0 0).2
  | .V => (s.enqueueV i {} {} {}).2

end Sys2Proof.Machine
end

