-- ==== Sys2Proof/Machine/Fetch.lean ====
section
/-! DEFINITION. Fetching an instruction's bytes and the checks of every fetch and of every prepared
target (spec/02_encoding.md R41, R48). -/

namespace Sys2Proof.Machine

/-- The data mark of the 32-byte line at a physical address (spec/16_context.md R321 word 11). -/
def State.dataMarked (s : State) (ctx : Nat) (p : Option Nat) (pa : Nat) : Bool :=
  let c := s.ctxAt ctx
  let n := (pa - c.partLo) / 32
  (s.byteAt p (bitsOf (c.eff 11) 0 48 + n / 8)).getLsbD (n % 8)

/-- A code word of a mapped page and the mark of its line: the word, or FETCH_DATA (R41). -/
def State.codeWord (s : State) (ctx : Nat) (va : Int) (l : Leaf × Option Nat) : Except (BitVec 8) (BitVec 32) :=
  let pa := l.1.pa + va.toNat % l.1.size
  if s.dataMarked ctx l.2 pa then .error 0x04
  else match s.bytesAt l.2 (addrs pa 4) with
    | [b0, b1, b2, b3] => .ok (word32 b0 b1 b2 b3)
    | _ => .error 0x03

/-- What the fetch of one word meets: the word, FETCH_UNMAPPED or FETCH_DATA (R41), or, where the leaf lacks the
execute right, the fatal TRANSLATION (spec/09_page.md R194). -/
def State.fetchWord (s : State) (ctx : Nat) (va : Int) : Except (BitVec 8) (BitVec 32) :=
  match s.iLeaf ctx va (fun l => l.ex) with
  | none => .error 0x03
  | some l => if l.1.ex then s.codeWord ctx va l else .error 0x80

/-- The checks of `bprep` on a target (R41): its cause, where one fails. A target is word-aligned
(spec/05_strand.md R81). A missing execute right is no check of `bprep`: it is fatal when the word is fetched to be
executed (log entry 54). -/
def State.targetFault (s : State) (ctx : Nat) (va : Int) : Option (BitVec 8) :=
  if va % 4 ≠ 0 then some 0x01
  else match s.iLeaf ctx va (fun l => l.ex) with
    | none => some 0x03
    | some l => match s.codeWord ctx va l with
      | .error c => some c
      | .ok w => if isExtWord w then some 0x01 else none

/-- The first word of an instruction, as `EINFO` receives it (spec/16_context.md R331). -/
def instrWord (i : Instr) : Word :=
  match encode i with
  | .one w => zx w
  | .two w _ => zx w
  | _ => 0

/-- What stands at the moving strand's `PC`: an instruction, or a trap with its `EINFO`. -/
inductive Fetch
  | instr (i : Instr)
  | illegal (w : BitVec 32)
  | fault (cause : BitVec 8) (addr : Word)
  deriving DecidableEq, Repr

/-- Fetch at an address, with the causes in the order of R48. -/
def State.fetchAt (s : State) (ctx : Nat) (pc : BitVec 48) : Fetch :=
  match s.fetchWord ctx pc.toNat with
  | .error c => .fault c (zx pc)
  | .ok w =>
    if isTwoWord w && !isExtWord w then
      match s.fetchWord ctx (pc.toNat + 4) with
      | .error c => .fault c (zx (pc + 4))
      | .ok x => match decodeWords w (some x) with
        | .ok i => .instr i
        | .bad _ => .illegal w
    else match decodeWords w none with
      | .ok i => .instr i
      | .bad _ => .illegal w

/-- The fetch of the moving strand's next instruction. -/
def State.fetchMine (s : State) : Fetch := s.fetchAt s.myCtx s.me.pc

end Sys2Proof.Machine
end

