-- ==== Sys2Proof/Machine/Group.lean ====
section
/-! DEFINITION. The group instructions and `yield` (spec/12_group.md R255 to R259, spec/16_context.md
R348), and the rendezvous of `gsplit`. -/

namespace Sys2Proof.Machine

/-- `gid` (R258): rank, strand, task, sub-group, rank in the sub-group. -/
def gidValue (s : State) (sel : Nat) : Word :=
  match s.myGroup with
  | none => 0
  | some (_, x) =>
    let r := rankIn x.cores s.core
    match sel with
    | 0 => BitVec.ofNat 64 r
    | 1 => BitVec.ofNat 64 s.strand
    | 2 => x.taskValue
    | 3 => BitVec.ofNat 64 (x.subOf r)
    | _ => BitVec.ofNat 64 (r - x.subLo (x.subOf r))

/-- `gid` (R258). -/
def execGid (pre : Pre) (d s' : BitVec 6) (s : State) : Res :=
  issue (.gid pre d s') s (fun s => scalarResult d { v := gidValue s s'.toNat } s)

/-- `gsize` (R258): cores, tasks of the launch (or items of the frond), sub-groups, cores of this one. -/
def gsizeValue (s : State) (sel : Nat) : Word :=
  match s.myGroup with
  | none => 0
  | some (_, x) =>
    let j := x.subOf (rankIn x.cores s.core)
    match sel with
    | 0 => BitVec.ofNat 64 x.size
    | 1 => match s.launches.find? x.launch with
      | none => 0
      | some l => match l.frond with
        | some f => BitVec.ofNat 64 f.nitems
        | none => BitVec.ofNat 64 l.ntasks
    | 2 => BitVec.ofNat 64 x.nsub
    | _ => BitVec.ofNat 64 (x.subHi j - x.subLo j)

/-- `gsize` (R258). -/
def execGsize (pre : Pre) (d s' : BitVec 6) (s : State) : Res :=
  issue (.gsize pre d s') s (fun s => scalarResult d { v := gsizeValue s s'.toNat } s)

/-- The split value is well formed for a group of `size` cores (R255). -/
def splitOk (size : Nat) (v : Word) : Bool :=
  let n := bitsOf v 0 2 + 1
  let b1 := bitsOf v 4 4
  let b2 := bitsOf v 8 4
  let b3 := bitsOf v 12 4
  bitsOf v 16 48 == 0 && bitsOf v 2 2 == 0 &&
  (if n ≥ 2 then decide (0 < b1 ∧ b1 < size) else b1 == 0) &&
  (if n ≥ 3 then decide (b1 < b2 ∧ b2 < size) else b2 == 0) &&
  (if n ≥ 4 then decide (b2 < b3 ∧ b3 < size) else b3 == 0)

/-- `gsplit` (R259): the strand, which has issued with its tokens taken, waits for the rendezvous of R256 (stage 3); stage 1 is
after it has taken effect, stage 2 after it has failed. -/
def execGsplit (pre : Pre) (a : BitVec 6) (s : State) : Res :=
  issue (.gsplit pre a) s (fun s =>
    let t := s.me
    let r := t.rd a
    match t.micro.stage with
    | 1 => .done s
    | 2 => .trap 0x0E 0 0
    | _ =>
      unlessPoison r.poison (
        match s.myGroup with
        | none => .trap 0x0E 0 0
        | some (_, x) =>
          if splitOk x.size r.v then .hold (s.modMe (fun t => { t with micro := { stage := 3 } })) (.split r.v) else .trap 0x0E 0 0))

/-- A strand of a group that waits at its `gsplit`: its split value. -/
def Strand.atSplit (t : Strand) : Option Word :=
  if t.life = .waiting then (match t.wait with | .split v => some v | _ => none) else none

/-- The strands of a group that are not DONE. -/
def State.participants (s : State) (x : Group) : List (Nat × Nat) :=
  x.cores.flatMap (fun c => ((List.range 8).filter (fun k => (s.strandAt c k).life != .done)).map (fun k => (c, k)))

/-- The barriers after a split into `n` sub-groups: barrier j < n starts a fresh phase with the strands of
sub-group j that are not DONE; the others are unused (R256). -/
def State.splitBars (s : State) (x : Group) : Tbl Barrier :=
  (List.range 4).foldl (fun t j =>
    let n := ((x.subCores j).map (fun c => ((List.range 8).filter (fun k => (s.strandAt c k).life != .done)).length)).foldl (· + ·) 0
    t.set {} j (if j < x.nsub then { part := n, arrive := n, used := true, mark := (x.bar j).mark } else {})) []

/-- The rendezvous of `gsplit` completes for every participant or for none (R256). An arrival of a strand that is DONE since
counts, too. -/
def execGsplitRendezvous (grp : Nat) (s : State) : Res :=
  match s.groups.find? grp with
  | none => .next s
  | some x =>
    let ps := s.participants x
    let vs := ps.map (fun p => (s.strandAt p.1 p.2).atSplit)
    let release := fun (s : State) (stage : Nat) =>
      (ps.foldl (fun s p => s.modStrand p.1 p.2 (fun t =>
        { t with life := t.active, micro := { t.micro with stage := stage } })) s).soon (ps.map (fun p => .strand p.1 p.2))
    if ps.isEmpty || x.st != .running || vs.any (fun v => v.isNone) then .next s
    else
      let v := (vs.headD none).getD 0
      if vs.any (fun w => w != some v) || x.cores.any (fun c => (List.range 8).any (fun k => (s.strandAt c k).arr != 0)) then
        .next (release s 2)
      else if (List.range 4).all (fun j => (x.bar j).bytes == 0) then
        let y : Group := { x with nsub := bitsOf v 0 2 + 1, b1 := bitsOf v 4 4, b2 := bitsOf v 8 4, b3 := bitsOf v 12 4 }
        .next (release (s.modGroup grp (fun _ => { y with barriers := s.splitBars y })) 1)
      else .next s

/-! Waiting for cores (R249, R259). -/

/-- `size` cores can be chosen among free cores of a die by R249: within one cluster up to 8, else eight of
one cluster and the rest of another. -/
def fits (free : List Nat) (die size : Nat) : Bool :=
  let n := fun cl => (free.filter (fun c => clusterOf c == cl)).length
  let cls := (List.range 16).map (fun i => die * 16 + i)
  if size ≤ 8 then cls.any (fun cl => decide (size ≤ n cl))
  else cls.any (fun a => decide (8 ≤ n a) && cls.any (fun b => a != b && decide (size - 8 ≤ n b)))

/-- Cores that hold no group. -/
def State.freeCores (s : State) : List Nat :=
  (List.range Config.cores).filter (fun c => (s.coreAt c).group.isNone)

/-- The first groups of the queue's earlier released launches have been placed (spec/15_queue.md R307); launches
are numbered in the order of their acceptance. Launches of graph nodes are not among them (DESIGN CHOICE, log entry 73). -/
def State.turnOf (s : State) (l : Nat) (x : Launch) : Bool :=
  s.launches.all (fun o => !(o.2.queue == x.queue && o.2.st == .released && o.2.node.isNone && decide (o.1 < l) &&
    (x.node.map (fun n => n.1)) != some o.1))

/-- The dispatcher may start tasks: the package is SERVING, or DRAINING with a frond already RUNNING
(spec/01_package.md R21), in a context that is RUNNABLE, RUNNING or PREEMPTED (spec/16_context.md R326). -/
def State.mayStart (s : State) (x : Launch) : Bool :=
  (s.pkg.st == .serving || (s.pkg.st == .draining && x.frond.isSome && x.st == .running)) &&
  (match (s.ctxAt x.ctx).st with
   | .runnable => true
   | .running => true
   | .preempted => true
   | _ => false)

/-- A launch has a task to place. -/
def State.placeable (s : State) (l : Nat) (x : Launch) : Bool :=
  x.st.live && decide (x.next < x.ntasks) && x.graph.isEmpty && s.mayStart x && s.turnOf l x

/-- The pinna of the n-th group that a frond places (spec/14_kernel.md R287, R288). -/
def pinnaOf : List PinnaRec → Nat → Nat → Nat
  | [], _, k => k
  | p :: ps, n, k => if n < p.ginit then k else pinnaOf ps (n - p.ginit) (k + 1)

/-- The kernel descriptor of the next group of a launch. -/
def Launch.nextKernel (x : Launch) : KDesc :=
  match x.frond with
  | some f => match f.pinnae[pinnaOf f.pinnae x.next 0]? with | some r => { r.kdesc with gsize := f.gsize } | none => x.kdesc
  | none => x.kdesc

/-- A group that waits to be placed or resumed (R259): its context, priority, size and pieces, its frond's die, and itself
where it is a saved one. -/
structure Waiter where
  ctx : Nat
  prio : Nat
  size : Nat
  pieces : Nat
  die : Option Nat := none
  grp : Nat := 0
  deriving DecidableEq, Repr

/-- The dies on which it may be placed: all groups of a frond are on one (spec/14_kernel.md R287). -/
def Waiter.dies (w : Waiter) : List Nat := match w.die with | some d => [d] | none => List.range 4

/-- The groups that wait. -/
def State.waiting (s : State) : List Waiter :=
  ((s.groups.filter (fun e => e.2.st == .saved && e.2.contain.isNone)).map (fun e =>
    { ctx := e.2.ctx, prio := e.2.prio, size := e.2.size, pieces := e.2.kdesc.pieces, grp := e.1 })) ++
  ((s.launches.filter (fun e => s.placeable e.1 e.2)).map (fun e =>
    { ctx := e.2.ctx, prio := (s.queueAt e.2.queue).prio, size := e.2.nextKernel.gsize, pieces := e.2.nextKernel.pieces
      die := e.2.frond.bind (fun f => f.die) }))

/-- A waiting group that satisfies `want` waits for cores of the die of group `g` (R259): no die now has free
cores for it, and this die's free cores with those of `g` would do. -/
def State.waitsFor (s : State) (g : Nat) (want : Nat → Nat → Bool) : Bool :=
  match s.groups.find? g with
  | none => false
  | some x =>
    let free := s.freeCores
    let die := dieOf (x.cores.headD 0)
    s.waiting.any (fun w => want w.ctx w.prio && w.dies.all (fun d => !fits free d w.size) && w.dies.contains die &&
      fits (free ++ x.cores) die w.size)

/-- The effect of `gyield` and `yield`: with work waiting the destination takes 1 and the group is descheduled at the
end of the clock, once, unless a `park` or `gexit` of that clock takes effect (R254, R259, spec/16_context.md R348). -/
def yieldEff (d : BitVec 6) (want : Group → Nat → Nat → Bool) (settle : State → Nat → State) (s : State) : Eff :=
  match s.myGroup with
  | none => scalarResult d { v := 0 } s
  | some (g, x) =>
    if x.st = .running && s.waitsFor g (want x) then
      scalarResult d { v := 1 } ((settle s x.ctx).modGroup g (fun y => { y with leave := some (y.leave.getD .yields) }))
    else scalarResult d { v := 0 } s

/-- `gyield` (R259): a group of equal or higher priority waits for cores of this die. -/
def execGyield (pre : Pre) (d : BitVec 6) (s : State) : Res :=
  issue (.gyield pre d) s (yieldEff d (fun x _ p => decide (p ≤ x.prio)) (fun s _ => s))

/-- `yield` (spec/16_context.md R348): a group of another context waits; the context's deficit becomes 0. -/
def execYield (pre : Pre) (d : BitVec 6) (s : State) : Res :=
  issue (.yield pre d) s (yieldEff d (fun x c _ => c != x.ctx) (fun s c => s.modCtx c (fun k => { k with deficit := 0 })))

/-- `gexit` (R259): at the end of the clock the group's strands stop and become DONE. -/
def execGexit (pre : Pre) (s : State) : Res :=
  issue (.gexit pre) s (fun s => .done (s.modGroup s.grp (fun y => { y with leave := some .exits })))

end Sys2Proof.Machine
end

