-- ==== Sys2Proof/Machine/Pool.lean ====
section
/-! DEFINITION. Pool pages, remote operations and phase boundaries (spec/09_page.md R184 to R187, R199;
spec/18_link.md R367, R368; spec/10_phase.md R209 to R211, R217). -/

namespace Sys2Proof.Machine

/-! Remote operations. -/

/-- A port is peer-facing (spec/18_link.md R361). -/
def peerFacing (p : Nat) : Bool := decide (15 ≤ p % 20)

/-- A port of one kind for a request of a die: one of the die's own that is up, else another die's (spec/01_package.md
R13); which one is open. -/
def State.choosePort (s : State) (die : Nat) (peer : Bool) : Option Nat × State :=
  let up := (List.range 80).filter (fun p => peerFacing p == peer && (s.portAt p).up)
  let own := up.filter (fun p => p / 20 == die)
  let l := if own.isEmpty then up else own
  let r := s.pick l.length
  if l.isEmpty then (none, s) else (l[r.1]?, r.2)

/-- A tag that no outstanding operation carries (R367). -/
def State.freshTag (s : State) : Nat × State :=
  let used := fun t : Nat => (Tbl.find? s.pool.remotes t).isSome
  let k := ((List.range (s.pool.remotes.length + 1)).find? (fun k => !used ((s.nextId + k) % 65536))).getD 0
  ((s.nextId + k) % 65536, { s with nextId := s.nextId + k + 1 })

/-- The token that messages carry: 0 before a session exists. -/
def State.token (s : State) : Word := s.pool.token.getD 0

/-- The pages that a remote operation asks for. -/
def keyObj (key : Nat) : Nat := key / 2 ^ 48
def keyOff (key : Nat) : Nat := key % 2 ^ 48

/-- The message of a remote operation's attempt (R367). -/
def State.attemptMsg (s : State) (tag : Nat) (r : Remote) : Sent :=
  match r.kind with
  | .page key _ =>
    .read tag r.port (key / 2 ^ 32) (key % 2 ^ 32 * 65536) 65536 (((Tbl.find? s.pool.pages key).map (fun p => p.requestedMs)).getD 0) s.token
  | .homeRead key off len => .read tag r.port (keyObj key) (keyOff key + off) len 0 s.token
  | .write _ _ key bytes => .write tag r.port (keyObj key) (keyOff key) bytes s.token
  | .atomic key size op operand compare cas => .atomic tag r.port (keyObj key) (keyOff key) size op operand compare cas s.token
  | .renew key => .renew tag r.port (key / 2 ^ 32) (key % 2 ^ 32) (((Tbl.find? s.pool.pages key).map (fun p => p.requestedMs)).getD 0) s.token
  | .get _ key _ _ len => .read tag r.port (keyObj key) (keyOff key) len 0 s.token
  | .put _ off bytes signal => .put tag r.port off bytes signal
  | .copyRead _ _ key len => .read tag r.port (keyObj key) (keyOff key) len 0 s.token
  | .session => .session tag

/-- Send an attempt: it times out 4 µs after its last flit is sent, or after this where its port sends nothing (R368). -/
def State.sendAttempt (s : State) (tag : Nat) (r : Remote) : State :=
  let r := { r with deadline := s.pkg.up + 4000, backoff := false }
  let s := { s with pool := { s.pool with remotes := s.pool.remotes.put tag r } }
  if (s.portAt r.port).up then s.transmit r.port (s.attemptMsg tag r) else s

/-- Start a remote operation on a pool-facing port of a die. -/
def State.newRemote (s : State) (kind : RemoteKind) (grp rank strand die : Nat) : Nat × State :=
  let t := s.freshTag
  let p := t.2.choosePort die false
  (t.1, p.2.sendAttempt t.1 { kind := kind, grp := grp, rank := rank, strand := strand, port := p.1.getD (die * 20) })

/-- Forget a remote operation. -/
def State.dropRemote (s : State) (tag : Nat) : State :=
  { s with pool := { s.pool with remotes := s.pool.remotes.erase tag } }

/-! Pages. -/

/-- A page; an unlisted one is ABSENT. -/
def State.page? (s : State) (key : Nat) : Option Page := Tbl.find? s.pool.pages key
def State.setPage (s : State) (key : Nat) (p : Page) : State :=
  { s with pool := { s.pool with pages := s.pool.pages.put key p } }
def State.modPage (s : State) (key : Nat) (f : Page → Page) : State :=
  { s with pool := { s.pool with pages := s.pool.pages.upd key f } }
def State.absentPage (s : State) (key : Nat) : State :=
  { s with pool := { s.pool with pages := s.pool.pages.erase key } }

/-- A page is DROPPED: its frame is invalid (R185). -/
def Page.drop (p : Page) : Page :=
  { p with st := .dropped, frame := [], poison := [], latent := [], late := [], expiry := 0, granted := 0 }
def State.dropPage (s : State) (key : Nat) : State := s.modPage key Page.drop

/-- A LEASED page within 20 µs of its expiry is dropped (R185). -/
def State.freshen (s : State) (key : Nat) : State :=
  match s.page? key with
  | none => s
  | some p => if p.st = .leased && decide (p.expiry ≤ s.pkg.ns + 20000) then s.dropPage key else s

/-- Bytes of a page in writes that have been sent and not answered: its frame takes them once it is granted (R186). -/
def State.sentBytes (s : State) (key : Nat) : Tbl Byte :=
  s.pool.remotes.foldl (fun t r => match r.2.kind with
    | .write _ _ k bs => if pageOf k = key then bs.foldl (fun t w => t.put (w.1 % 65536) w.2) t else t
    | _ => t) []

/-- Request a page with a lease: ABSENT or DROPPED goes to REQUESTED (R185); the flag tells whether it was
ABSENT. A page requested through several classes takes the longest (R184). While package time is unlocked no lease is
requested (spec/19_host.md R388). -/
def State.requestPage (s : State) (key ms : Nat) (prefetch : Bool) (grp die : Nat) : Bool × State :=
  if !s.ptp.lock then (false, s) else
  match s.page? key with
  | none => (true, (s.setPage key { st := .requested, requestedMs := ms, late := s.sentBytes key } |>.newRemote (.page key prefetch) grp 0 0 die).2)
  | some p =>
    if p.st = .dropped then
      (false, (s.setPage key { st := .requested, requestedMs := ms, reuse := p.reuse, late := s.sentBytes key } |>.newRemote (.page key prefetch) grp 0 0 die).2)
    else (false, s.modPage key (fun p => { p with requestedMs := max p.requestedMs ms }))

/-- Bytes of a LEASED frame, read by group `g`. An uncorrectable error in a line poisons the access that meets it and drops the
page (R197, R199). -/
def State.frameRead (s : State) (g key off n : Nat) : List Byte × Bool × State :=
  match s.page? key with
  | none => (List.replicate n 0, false, s)
  | some p =>
    let ls := linesOf (addrs off n)
    if ls.any (fun l => p.latent.get false l) then
      ((addrs off n).map (fun a => if p.latent.get false (a / 64) then 0 else p.frame.get 0 a), true, s.dropPage key)
    else
      ((addrs off n).map (fun a => p.frame.get 0 a), ls.any (fun l => p.poison.get false l),
       s.modPage key (fun p =>
         let q := ((s.groups.find? g).map (fun x => x.queue)).getD 0
         { p with demandRead := true, readBy := if p.readBy.contains q then p.readBy else q :: p.readBy, lastUse := s.pkg.up }))

/-- A byte written to a frame. The write merges into its line, and so it can be the one that meets an uncorrectable error
there: the page is dropped (R197, R199). -/
def Page.frameByte (p : Page) (off : Nat) (b : Byte) : Page :=
  if p.latent.get false (off / 64) then p.drop else { p with frame := p.frame.set 0 off b }

/-- A write of this package reaches its own frame: a LEASED frame takes it, a REQUESTED one once the grant
arrives (R186). Keys are object × 2^48 + object offset. -/
def State.frameWrite (s : State) (ws : List (Nat × Byte)) : State :=
  ws.foldl (fun s w =>
    let off := w.1 % 65536
    s.modPage (pageOf w.1) (fun p =>
      match p.st with
      | .leased => p.frameByte off w.2
      | .revoking => p.frameByte off w.2
      | .requested => { p with late := p.late.put off w.2 }
      | .dropped => p)) s

/-- A rejected write: every page whose frame received it is DROPPED, and a waiting write is forgotten (R186). -/
def State.frameReject (s : State) (ws : List (Nat × Byte)) : State :=
  ws.foldl (fun s w =>
    s.modPage (pageOf w.1) (fun p =>
      match p.st with
      | .requested => { p with late := p.late.erase (w.1 % 65536) }
      | .dropped => p
      | _ => p.drop)) s

/-! Boundaries. -/

/-- Send the P units of a group's oldest boundary in progress (R209, R210), as many as the group's cores have requests for
(spec/01_package.md R14): the frame is updated first (R186). One of the present clock leaves at its end: another boundary of the
task may still act as one with it. -/
def State.sendUnits (s : State) (g : Nat) : State :=
  match s.groups.find? g with
  | none => s
  | some x =>
    match x.ver.bounds with
    | [] => s
    | b :: rest =>
      if b.fresh then s else
      let die := dieOf (x.cores.headD 0)
      let room := Config.requests * x.size - (x.cores.map s.requestsOf).foldl (· + ·) 0
      let r := b.punits.foldl (fun (acc : State × List PUnit) u =>
        if u.tag.isSome || decide (room ≤ ((b.punits.drop acc.2.length ++ acc.2).filter (fun v => v.tag.isSome)).length) then
          (acc.1, acc.2 ++ [u])
        else
          let n := (acc.1.frameWrite u.bytes).newRemote (.write g b.id u.key u.bytes) g 0 0 die
          (n.2, acc.2 ++ [{ u with tag := some n.1 }])) (s, [])
      r.1.modGroup g (fun y => { y with ver := { y.ver with bounds := { b with punits := r.2 } :: rest } })

/-- Boundaries whose units are all committed complete, oldest first (R210). -/
def State.settleBounds (s : State) (g : Nat) : State :=
  match s.groups.find? g with
  | none => s
  | some x =>
    let left := x.ver.bounds.dropWhile (fun b => !b.fresh && b.hunits.isEmpty && b.punits.isEmpty)
    let s := s.modGroup g (fun y => { y with ver := { y.ver with bounds := left } })
    if left.isEmpty then s else s.sendUnits g

/-- Version bytes as the units of a boundary. -/
def hUnitsOf (h : List (Nat × Byte)) : List HUnit := (unitsOf h).map (fun u => { addr := u.1 * 8, bytes := u.2 })
def pUnitsOf (p : List (Nat × Byte)) : List PUnit := (unitsOf p).map (fun u => { key := u.1 * 8, bytes := u.2 })

/-- A unit joins a list: of a byte in two units the later one's value stays. -/
def laterBytes (old new : List (Nat × Byte)) : List (Nat × Byte) := old.filter (fun w => !new.any (fun v => v.1 == w.1)) ++ new
def addHUnit (us : List HUnit) (u : HUnit) : List HUnit :=
  if us.any (fun o => o.addr == u.addr) then us.map (fun o => if o.addr = u.addr then { o with bytes := laterBytes o.bytes u.bytes } else o)
  else us ++ [u]
def addPUnit (us : List PUnit) (u : PUnit) : List PUnit :=
  if us.any (fun o => o.key == u.key) then us.map (fun o => if o.key = u.key then { o with bytes := laterBytes o.bytes u.bytes } else o)
  else us ++ [u]

/-- Publish version bytes (R209): the number of the boundary. Nothing published is complete, but for a phase boundary of the
present clock, which another can still join (R210). -/
def State.publish (s : State) (g : Nat) (h p : List (Nat × Byte)) (fresh : Bool := false) : Nat × State :=
  let n := s.fresh
  let s := n.2
  if !fresh && h.isEmpty && p.isEmpty then (n.1, s)
  else
    let b : Boundary := { id := n.1, fresh := fresh, hunits := hUnitsOf h, punits := pUnitsOf p }
    (n.1, (s.modGroup g (fun y => { y with ver := { y.ver with bounds := y.ver.bounds ++ [b] } })).sendUnits g)

/-- The phase boundary of the present clock. -/
def Version.sameClock (v : Version) : Option Boundary := v.bounds.find? (fun b => b.fresh)

/-- A boundary with the units of another of its clock (R210). -/
def Boundary.join (b : Boundary) (h p : List (Nat × Byte)) : Boundary :=
  { b with hunits := (hUnitsOf h).foldl addHUnit b.hunits, punits := (pUnitsOf p).foldl addPUnit b.punits }

/-- Bytes published since by an atomic or a release store, of which the joined boundary holds later values. -/
def Boundary.without (b : Boundary) (h p : List (Nat × Byte)) : Boundary :=
  let cut := fun (ws bs : List (Nat × Byte)) => bs.filter (fun w => !ws.any (fun v => v.1 == w.1))
  { b with
    hunits := (b.hunits.map (fun u => { u with bytes := cut h u.bytes })).filter (fun u => !u.bytes.isEmpty)
    punits := (b.punits.map (fun u => { u with bytes := cut p u.bytes })).filter (fun u => !u.bytes.isEmpty) }

/-- `PhaseBoundary()` (R209): everything the version holds is published and the version is empty. Two of one clock act
as one (R210): the later adds its units to the earlier, whose units leave from the next clock on. -/
def State.phaseBoundary (s : State) (g : Nat) : Nat × State :=
  match s.groups.find? g with
  | none => (0, s)
  | some x =>
    let s := s.modGroup g (fun y => { y with ver := { y.ver with h := [], p := [] } })
    match x.ver.sameClock with
    | none => s.publish g x.ver.h x.ver.p true
    | some b =>
      (b.id, s.modGroup g (fun y => { y with ver := { y.ver with
        bounds := y.ver.bounds.takeWhile (fun o => !o.fresh) ++ b.join x.ver.h x.ver.p ::
          ((y.ver.bounds.dropWhile (fun o => !o.fresh)).drop 1).map (fun o => o.without x.ver.h x.ver.p) } }))

/-- Publish the bytes that the version holds in one aligned 8-byte unit (R216). -/
def State.publishUnit (s : State) (g : Nat) (p : Bool) (unit : Nat) : Nat × State :=
  match s.groups.find? g with
  | none => (0, s)
  | some x =>
    if p then
      (s.modGroup g (fun y => { y with ver := { y.ver with p := y.ver.p.filter (fun e => e.1 / 8 != unit) } })).publish g []
        (x.ver.p.filter (fun e => e.1 / 8 == unit))
    else
      (s.modGroup g (fun y => { y with ver := { y.ver with h := y.ver.h.filter (fun e => e.1 / 8 != unit) } })).publish g
        (x.ver.h.filter (fun e => e.1 / 8 == unit)) []

/-- Boundary `id` of a group has completed. -/
def State.boundaryDone (s : State) (g id : Nat) : Bool :=
  match s.groups.find? g with
  | none => true
  | some x => x.ver.bounds.all (fun b => b.id != id)

/-- `BeginPhase()`: the refresh point of the moving strand's later accesses, and of those that its signals precede, is
now (R213, R214). -/
def State.beginPhase (s : State) : State := s.modMe (fun t => t.learn { rf := s.commits })

/-- The task has committed a unit: its reads never go back before it (R215). -/
def State.sawOwn (s : State) (g unit : Nat) : State :=
  s.modGroup g (fun y => { y with ver := { y.ver with seen := y.ver.seen.put unit s.commits } })

/-- `n` units of a group's oldest boundary become visible at their homes, in a clock after that of the boundary (R209). Which
units come first is open: the model takes them by rising address (log entry 66). A unit is committed on its own, so a line that
one boundary writes whole is no write of all 64 bytes (spec/09_page.md R195; log entry 66). -/
def execBoundaryComplete (grp n : Nat) (s : State) : Res :=
  match s.groups.find? grp with
  | none => .next s
  | some x =>
    match x.ver.bounds with
    | [] => .next s
    | b :: rest =>
      if b.fresh then .next s else
      let s := (b.hunits.take n).foldl (fun s u => (s.commitUnit (u.addr / 8) u.bytes).sawOwn grp (u.addr / 8)) s
      let s := s.modGroup grp (fun y => { y with ver := { y.ver with bounds := { b with hunits := b.hunits.drop n } :: rest } })
      .next (s.settleBounds grp)

/-- The phase boundaries of the present clock are closed at its end: their units leave (R209, R210). -/
def State.boundsEnd (s : State) : State :=
  (s.groups.filter (fun e => e.2.ver.bounds.any (fun b => b.fresh))).foldl (fun s e =>
    (s.modGroup e.1 (fun y => { y with ver := { y.ver with bounds := y.ver.bounds.map (fun b => { b with fresh := false }) } })).settleBounds e.1) s

/-- A strand that waits for its group's remote operation or page. -/
def State.pageWaiters (s : State) (key : Nat) : List (Nat × Nat) :=
  s.cores.flatMap (fun e => (e.2.performers.filter (fun t => t.2.micro.ids == [key])).map (fun t => (e.1, t.1)))

/-- Every task with a demand access of a strand or a channel waiting for a page is contained (R185). -/
def State.containWaiters (s : State) (key : Nat) (cause : BitVec 8) : State :=
  let strands := (s.pageWaiters key).filterMap (fun w => s.groupOf w.1)
  let copies := s.cores.flatMap (fun e => e.2.channels.flatMap (fun k =>
    (k.2.queue.filter (fun t => t.pages.contains key)).map (fun t => t.grp)))
  (strands ++ copies).eraseDups.foldl (fun s g => s.contain g cause) s

/-- The containment that a status of a pool response calls for: STALE, DENIED, POISON (R185, R186). -/
def statusCause (status : BitVec 8) : BitVec 8 := if status = 1 then 0x42 else if status = 2 then 0x41 else 0x40

/-- The event record of a fenced operation (R186). -/
def State.fencedEvent (s : State) (status : BitVec 8) (obj : Nat) : State :=
  if status = 1 then s.event 0x05 0xFF 0xFF s.token.toNat obj else s

end Sys2Proof.Machine
end

