-- ==== Sys2Proof/Machine/Page.lean ====
section
/-! DEFINITION. The memory instructions: loads and stores, atomics and compare-and-swaps, `probe`, `pf.p`
and the capability instructions (spec/09_page.md R179 to R183, R194 to R207). -/

namespace Sys2Proof.Machine

/-- An address or offset as `EINFO` receives it (spec/16_context.md R331). -/
def addrInfo (a : Int) : Word := BitVec.ofInt 64 a

/-- Checks 1 and 2 of R203. -/
def aligned (a : Addr) (n : Nat) (go : Eff) : Eff :=
  if a.2 then .contain 0x40
  else if a.1 % n ≠ 0 then .trap 0x09 (addrInfo a.1) 0
  else go

/-- Checks 1 to 3 of R203 for P space. -/
def capAligned (c : CapReg) (a : Addr) (n : Nat) (r : Right) (go : Eff) : Eff :=
  aligned (a.1, a.2 || c.poison) n (if capCheck c.v a.1 n r then go else .trap 0x0A (addrInfo a.1) 0)

/-- The low `n` bytes of a register. -/
def lowBytes (n : Nat) (v : Word) : List Byte := bytesLE n v.toNat

/-- The zero-extended value of bytes. -/
def extended (bs : List Byte) : Word := BitVec.ofNat 64 (natLE bs)

/-! Watchpoints. -/

/-- A watchpoint of the core matches an access of `n` bytes at S address `a` (spec/16_context.md R341). -/
def State.watched (s : State) (a n : Nat) (rd wr : Bool) : Bool :=
  ((s.ctxAt s.myCtx).word 0).getLsbD 0 &&
  (List.range 4).any (fun i =>
    let w := s.myCore.dbg.wbp.get 0 i
    let lo := bitsOf w 0 19
    w.getLsbD 63 && ((rd && w.getLsbD 62) || (wr && w.getLsbD 61)) &&
    decide (bitsOf w 48 4 ≤ 8 ∧ lo < a + n ∧ a < lo + 2 ^ bitsOf w 48 4))

/-- Note a watchpoint that the access matches. -/
def State.watch (s : State) (a n : Nat) (rd wr : Bool) : State :=
  if s.watched a n rd wr then s.modMe (fun t => { t with watchHit := true }) else s

/-! Loads and stores. -/

/-- Performed on a range of the moving group's partition of this core; a piece not read back yet holds the
access up (spec/16_context.md R340), an address outside is fatal (R194). -/
def onS (a : Int) (n : Nat) (s : State) (go : List Nat → Eff) : Eff :=
  match s.sLoc s.core s.grp a n with
  | .ok as => go as
  | .absent => .stall
  | .outside => .fatal 0x80

/-- A load's result (R202); an acquire load takes its refresh point, and contains where it is poisoned. -/
def loaded (d : BitVec 6) (acq : Bool) (bs : List Byte) (po : Bool) (s : State) : Eff :=
  let s := if acq then s.beginPhase else s
  if acq && po then .containAt s 0x40
  else scalarResult d { v := extended bs, poison := po } s

/-- `ld.s` (R202). -/
def loadS (d : BitVec 6) (n : Nat) (a : Addr) (s : State) : Eff :=
  aligned a n (onS a.1 n s (fun as =>
    let r := s.sRead s.core as
    loaded d false r.1 r.2.1 (r.2.2.watch a.1.toNat n true false)))

/-- `st.s`: the line takes the data's poison (R202). -/
def storeS (d : BitVec 6) (n : Nat) (a : Addr) (s : State) : Eff :=
  aligned a n (onS a.1 n s (fun as =>
    let x := s.me.rd d
    .done ((s.sWrite s.core as (lowBytes n x.v) x.poison).watch a.1.toNat n false true)))

/-- `ld.h`: read through the version (R202, spec/10_phase.md R214). -/
def loadH (d : BitVec 6) (n : Nat) (a : Addr) (s : State) : Eff :=
  aligned a n (
    match s.hPhys s.myCtx a.1 .rd with
    | none => .fatal 0x80
    | some pa =>
      let r := s.readH s.grp s.me.mark.rf a.1.toNat pa n
      loaded d false r.1 r.2.1 r.2.2)

/-- `st.h`: into the version (R202, spec/10_phase.md R208). -/
def storeH (d : BitVec 6) (n : Nat) (a : Addr) (s : State) : Eff :=
  aligned a n (
    let x := s.me.rd d
    unlessPoison x.poison (
      match s.hPhys s.myCtx a.1 .wr with
      | none => .fatal 0x80
      | some pa =>
        match s.acceptBytes s.grp false (place (addrs pa n) (lowBytes n x.v)) with
        | none => .fatal 0x81
        | some s => .done s))

/-- `ld.w`: the weight window (R202). -/
def loadW (d : BitVec 6) (n : Nat) (a : Addr) (s : State) : Eff :=
  aligned a n (
    match s.wPhys s.myCtx a.1 n with
    | none => .fatal 0x80
    | some wa =>
      let r := s.wRead wa n
      loaded d false r.1 r.2.1 r.2.2)

/-- The bytes of P space that the moving task's version holds or has published (R214 item 1). -/
def State.ownBytes (s : State) (key n : Nat) : List (Option Byte) :=
  match s.myGroup with
  | none => List.replicate n none
  | some (_, x) => (addrs key n).map x.ver.ownP

/-- The task's own bytes over others. -/
def overlay (own : List (Option Byte)) (bs : List Byte) : List Byte := (own.zip bs).map (fun p => p.1.getD p.2)

/-- A demand access finds its page LEASED, or asks for it and waits (R185). -/
def onPage (key : Nat) (c : BitVec 128) (reuse : Nat) (s : State) (go : State → Eff) : Eff :=
  let pk := pageOf key
  let s := (s.freshen pk).modPage pk (fun p => { p with reuse := reuse })
  let ask := fun (s : State) => Eff.keep (s.modMe (fun t => { t with micro := { stage := 1, ids := [pk] } }))
  match s.page? pk with
  | some p =>
    if p.st = .leased then go (s.modPage pk (fun p => { p with requestedMs := max p.requestedMs (leaseMs c) }))
    else if p.st = .dropped then ask (s.requestPage pk (leaseMs c) false s.grp (dieOf s.core)).2
    else ask (s.modPage pk (fun p => { p with requestedMs := max p.requestedMs (leaseMs c) }))
  | none =>
    let r := s.requestPage pk (leaseMs c) false s.grp (dieOf s.core)
    let s := r.2.modPage pk (fun p => { p with reuse := reuse })
    ask (if r.1 then s.countMine 6 1 else s)

/-- `ld.p` (R202): the version's bytes over the LEASED frame's, or over what the pool answers for a HOME page; bytes that the
task had published when it asked are never older in the answer (spec/10_phase.md R215). -/
def loadP (d : BitVec 6) (c : BitVec 4) (n : Nat) (acq : Bool) (reuse : Nat) (a : Addr) (s : State) : Eff :=
  let cr := s.me.cap c
  let perform :=
    let key := pKey cr.v a.1.toNat
    let own := s.ownBytes key n
    if capHome cr.v then
      if s.me.micro.stage = 0 then
        let r := s.newRemote (.homeRead key 0 n) s.grp 0 s.strand (dieOf s.core)
        let s := { r.2 with pool := { r.2.pool with remotes := r.2.pool.remotes.upd r.1 (fun q => { q with own := own }) } }
        .keep (s.modMe (fun t => { t with micro := { stage := 1, id := r.1 } }))
      else
        match Tbl.find? s.pool.remotes s.me.micro.id with
        | none => .keep s
        | some q => match q.answer with
          | none => .keep s
          | some (v, po) => loaded d acq (overlay own (overlay q.own (lowBytes n v))) po (s.dropRemote s.me.micro.id)
    else onPage key cr.v reuse s (fun s =>
      let r := s.frameRead s.grp (pageOf key) (key % 65536) n
      loaded d acq (overlay own r.1) r.2.1 (r.2.2.countMine 5 1))
  if s.me.micro.stage = 0 then capAligned cr a n .rd perform else perform

/-- `st.p` and `st.p.rel` (R202, spec/10_phase.md R211): a release performs its boundary, waits for it
(stage 1), publishes its own bytes, which the version then holds no more, and waits for them (stage 2). -/
def storeP (d : BitVec 6) (c : BitVec 4) (n : Nat) (rel : Bool) (a : Addr) (s : State) : Eff :=
  let cr := s.me.cap c
  let x := s.me.rd d
  let ws := place (addrs (pKey cr.v a.1.toNat) n) (lowBytes n x.v)
  let own := fun (s : State) =>
    match s.acceptBytes s.grp true ws with
    | none => Eff.fatal 0x81
    | some _ =>
      let s := s.modGroup s.grp (fun y => { y with ver := { y.ver with p := y.ver.p.filter (fun e => !ws.any (fun w => w.1 == e.1)) } })
      let r := s.publish s.grp [] ws
      .keep (r.2.modMe (fun t => { t with micro := { stage := 2, id := r.1 } }))
  match s.me.micro.stage with
  | 0 => capAligned cr a n .wr (unlessPoison x.poison (
      if rel then
        let r := s.phaseBoundary s.grp
        .keep (r.2.modMe (fun t => { t with micro := { stage := 1, id := r.1 } }))
      else
        match s.acceptBytes s.grp true ws with
        | none => .fatal 0x81
        | some s => .done s))
  | 1 => if s.boundaryDone s.grp s.me.micro.id then own s else .keep s
  | _ => if s.boundaryDone s.grp s.me.micro.id then .done s else .keep s

/-- `ld.s`, one word. -/
def execLdSOneWord (pre : Pre) (d b : BitVec 6) (e : BitVec 4) (s : State) : Res :=
  issue (.ldSOneWord pre d b e) s (fun s => loadS d 8 (s.me.oneAddr b e) s)

/-- `ld.s`, two words. -/
def execLdSTwoWord (pre : Pre) (d b : BitVec 6) (sz : BitVec 2) (x : BitVec 6) (sc : BitVec 2) (disp : BitVec 20) (s : State) : Res :=
  issue (.ldSTwoWord pre d b sz x sc disp) s (fun s => loadS d (2 ^ sz.toNat) (s.me.mxAddr b x sc disp) s)

/-- `st.s`, one word. -/
def execStSOneWord (pre : Pre) (d b : BitVec 6) (e : BitVec 4) (s : State) : Res :=
  issue (.stSOneWord pre d b e) s (fun s => storeS d 8 (s.me.oneAddr b e) s)

/-- `st.s`, two words. -/
def execStSTwoWord (pre : Pre) (d b : BitVec 6) (sz : BitVec 2) (x : BitVec 6) (sc : BitVec 2) (disp : BitVec 20) (s : State) : Res :=
  issue (.stSTwoWord pre d b sz x sc disp) s (fun s => storeS d (2 ^ sz.toNat) (s.me.mxAddr b x sc disp) s)

/-- `ld.h`, one word. -/
def execLdHOneWord (pre : Pre) (d b : BitVec 6) (r : BitVec 2) (e : BitVec 4) (s : State) : Res :=
  issue (.ldHOneWord pre d b r e) s (fun s => loadH d 8 (s.me.oneAddr b e) s)

/-- `ld.h`, two words. -/
def execLdHTwoWord (pre : Pre) (d b : BitVec 6) (r sz : BitVec 2) (x : BitVec 6) (sc : BitVec 2) (disp : BitVec 20) (s : State) : Res :=
  issue (.ldHTwoWord pre d b r sz x sc disp) s (fun s => loadH d (2 ^ sz.toNat) (s.me.mxAddr b x sc disp) s)

/-- `st.h`, one word. -/
def execStHOneWord (pre : Pre) (d b : BitVec 6) (r : BitVec 2) (e : BitVec 4) (s : State) : Res :=
  issue (.stHOneWord pre d b r e) s (fun s => storeH d 8 (s.me.oneAddr b e) s)

/-- `st.h`, two words. -/
def execStHTwoWord (pre : Pre) (d b : BitVec 6) (r sz : BitVec 2) (x : BitVec 6) (sc : BitVec 2) (disp : BitVec 20) (s : State) : Res :=
  issue (.stHTwoWord pre d b r sz x sc disp) s (fun s => storeH d (2 ^ sz.toNat) (s.me.mxAddr b x sc disp) s)

/-- `ld.p`, one word. -/
def execLdPOneWord (pre : Pre) (d : BitVec 6) (o : BitVec 2) (c : BitVec 4) (r : BitVec 2) (e : BitVec 4) (s : State) : Res :=
  issue (.ldPOneWord pre d o c r e) s (loadP d c 8 (o == 1) r.toNat (oneOff e))

/-- `ld.p`, two words. -/
def execLdPTwoWord (pre : Pre) (d : BitVec 6) (o : BitVec 2) (c : BitVec 4) (r sz : BitVec 2) (x : BitVec 6) (sc : BitVec 2) (disp : BitVec 20) (s : State) : Res :=
  issue (.ldPTwoWord pre d o c r sz x sc disp) s (fun s => loadP d c (2 ^ sz.toNat) (o == 1) r.toNat (s.me.mxOff x sc disp) s)

/-- `st.p`, one word. -/
def execStPOneWord (pre : Pre) (d : BitVec 6) (o : BitVec 2) (c : BitVec 4) (r : BitVec 2) (e : BitVec 4) (s : State) : Res :=
  issue (.stPOneWord pre d o c r e) s (storeP d c 8 (o == 2) (oneOff e))

/-- `st.p`, two words. -/
def execStPTwoWord (pre : Pre) (d : BitVec 6) (o : BitVec 2) (c : BitVec 4) (r sz : BitVec 2) (x : BitVec 6) (sc : BitVec 2) (disp : BitVec 20) (s : State) : Res :=
  issue (.stPTwoWord pre d o c r sz x sc disp) s (fun s => storeP d c (2 ^ sz.toNat) (o == 2) (s.me.mxOff x sc disp) s)

/-- `ld.w`, one word. -/
def execLdWOneWord (pre : Pre) (d b : BitVec 6) (r : BitVec 2) (e : BitVec 4) (s : State) : Res :=
  issue (.ldWOneWord pre d b r e) s (fun s => loadW d 8 (s.me.oneAddr b e) s)

/-- `ld.w`, two words. -/
def execLdWTwoWord (pre : Pre) (d b : BitVec 6) (r sz : BitVec 2) (x : BitVec 6) (sc : BitVec 2) (disp : BitVec 20) (s : State) : Res :=
  issue (.ldWTwoWord pre d b r sz x sc disp) s (fun s => loadW d (2 ^ sz.toNat) (s.me.mxAddr b x sc disp) s)

/-! Atomics. -/

/-- `min` and `max` of 64-bit registers already sign-extended. -/
def signedMin (a b : Word) : Word := if a.slt b then a else b
def signedMax (a b : Word) : Word := if a.slt b then b else a

/-- The update `F` of R204 on `n` = 4 or 8 bytes; the low `8n` bits of the result count. -/
def amoResult (op : BitVec 3) (n : Nat) (old x : Word) : Word :=
  let ext := fun v : Word => if n = 4 then (v.extractLsb' 0 32).signExtend 64 else v
  match op.toNat with
  | 0 => old + x
  | 1 => signedMin (ext old) (ext x)
  | 2 => signedMax (ext old) (ext x)
  | 3 => old &&& x
  | 4 => old ||| x
  | 5 => old ^^^ x
  | _ => x

/-- The old value is written where `RET` = 1 (R204). -/
def amoReturn (ret : Bool) (d : BitVec 6) (old : Word) (s : State) : State :=
  if ret then s.modMe (fun t => t.result d { v := old }) else s

/-- `amo.s` (R204): indivisible in the scratchpad. -/
def execAmoS (pre : Pre) (d a b x : BitVec 6) (sc : BitVec 2) (op : BitVec 3) (ret sz : BitVec 1) (disp : BitVec 13) (s : State) : Res :=
  issue (.amoS pre d a b x sc op ret sz disp) s (fun s =>
    let n := axBytes sz
    let q := s.me.rd b
    let ad := s.me.axAddr a x sc disp n
    aligned ad n (onS ad.1 n s (fun as =>
      let r := s.sRead s.core as
      let old := extended r.1
      if r.2.1 then .containAt r.2.2 0x40
      else
        let s := (r.2.2.sWrite s.core as (lowBytes n (amoResult op n old q.v)) q.poison).watch ad.1.toNat n true true
        .done (amoReturn (ret == 1) d old s))))

/-- The update of an H atomic at its home (R204, R205): none where nothing is written. -/
abbrev Update := Word → Option Word

/-- An atomic's value at its home, once everything of the task that must be committed first is committed
(spec/10_phase.md R216). -/
def atomicH (va : Int) (n : Nat) (f : Update) (ret : Bool) (d : BitVec 6) (acq : Bool) (s : State) : Eff :=
  let g := s.grp
  match s.hPhys s.myCtx va .at_ with
  | none => .fatal 0x80
  | some pa =>
    let unit := pa / 8
    let held := match s.groups.find? g with
      | none => false
      | some x => x.ver.h.any (fun e => e.1 / 8 == unit)
    let s := if held then (s.publishUnit g false unit).2 else s
    let open_ := match s.groups.find? g with | none => false | some x => !x.ver.bounds.isEmpty
    if open_ then .keep (s.modMe (fun t => { t with micro := { stage := 2 } }))
    else
      let r := s.homeRead (addrs pa n)
      let old := extended r.1
      if r.2.1 then .containAt r.2.2 0x40
      else
        let s := match f old with
          | none => r.2.2
          | some v => (r.2.2.commitUnit unit (place (addrs pa n) (lowBytes n v))).sawOwn g unit
        let s := amoReturn ret d old s
        .done (if acq then s.beginPhase else s)

/-- The order of an H atomic: the checks of R203, the release boundary (stage 1), then the update. -/
def orderedH (a : Addr) (n : Nat) (poison : Bool) (f : Update) (ret : Bool) (d : BitVec 6) (ord : BitVec 2) (s : State) : Eff :=
  let go := atomicH a.1 n f ret d (ord.getLsbD 0)
  match s.me.micro.stage with
  | 0 => aligned a n (unlessPoison poison (
      if ord.getLsbD 1 then
        let r := s.phaseBoundary s.grp
        .keep (r.2.modMe (fun t => { t with micro := { stage := 1, id := r.1 } }))
      else go s))
  | 1 => if s.boundaryDone s.grp s.me.micro.id then go s else .keep s
  | _ => go s

/-- `amo.h` (R204). -/
def execAmoH (pre : Pre) (d a b x : BitVec 6) (sc : BitVec 2) (op : BitVec 3) (ret : BitVec 1) (ord : BitVec 2) (sz : BitVec 1) (disp : BitVec 13) (s : State) : Res :=
  issue (.amoH pre d a b x sc op ret ord sz disp) s (fun s =>
    let n := axBytes sz
    let q := s.me.rd b
    orderedH (s.me.axAddr a x sc disp n) n q.poison (fun old => some (amoResult op n old q.v)) (ret == 1) d ord s)

/-- The low `n` bytes are equal. -/
def sameBytes (n : Nat) (a b : Word) : Bool := lowBytes n a == lowBytes n b

/-- `cas.h` (R205). -/
def execCasH (pre : Pre) (d a b n x : BitVec 6) (ord : BitVec 2) (sz : BitVec 1) (disp : BitVec 13) (s : State) : Res :=
  issue (.casH pre d a b n x ord sz disp) s (fun s =>
    let w := axBytes sz
    let c := s.me.rd b
    let v := s.me.rd n
    orderedH (s.me.axAddr a x 0 disp w) w (c.poison || v.poison)
      (fun old => if sameBytes w old c.v then some v.v else none) true d ord s)

/-- The pool operation of a P atomic: sent (stage 3) once the task's earlier bytes are committed, finished
when the pool has answered (R186, spec/10_phase.md R216). -/
def atomicP (cr : BitVec 128) (off : Int) (n : Nat) (op : BitVec 3) (x cmp : Word) (cas ret : Bool) (d : BitVec 6)
    (acq : Bool) (s : State) : Eff :=
  let g := s.grp
  let key := pKey cr off.toNat
  if s.me.micro.stage = 3 then
    match (Tbl.find? s.pool.remotes s.me.micro.id).bind (fun r => r.answer) with
    | none => .keep s
    | some (old, po) =>
      let s := s.dropRemote s.me.micro.id
      if po then .containAt s 0x40
      else
        let s := amoReturn ret d (extended (lowBytes n old)) s
        .done (if acq then s.beginPhase else s)
  else
    let held := match s.groups.find? g with
      | none => false
      | some x => x.ver.p.any (fun e => e.1 / 8 == key / 8)
    let s := if held then (s.publishUnit g true (key / 8)).2 else s
    let open_ := match s.groups.find? g with | none => false | some x => !x.ver.bounds.isEmpty
    if open_ then .keep (s.modMe (fun t => { t with micro := { stage := 2 } }))
    else
      let r := s.newRemote (.atomic key n op x cmp cas) g 0 s.strand (dieOf s.core)
      .keep (r.2.modMe (fun t => { t with micro := { stage := 3, id := r.1 } }))

/-- The order of a P atomic: the checks of R203, the release boundary (stage 1), then the pool's operation. -/
def orderedP (c : BitVec 4) (a : Addr) (n : Nat) (poison : Bool) (op : BitVec 3) (x cmp : Word) (cas ret : Bool) (d : BitVec 6)
    (ord : BitVec 2) (s : State) : Eff :=
  let cr := s.me.cap c
  let go := atomicP cr.v a.1 n op x cmp cas ret d (ord.getLsbD 0)
  match s.me.micro.stage with
  | 0 => capAligned cr a n .at_ (unlessPoison poison (
      if ord.getLsbD 1 then
        let r := s.phaseBoundary s.grp
        .keep (r.2.modMe (fun t => { t with micro := { stage := 1, id := r.1 } }))
      else go s))
  | 1 => if s.boundaryDone s.grp s.me.micro.id then go s else .keep s
  | _ => go s

/-- `amo.p` (R204). -/
def execAmoP (pre : Pre) (d a b x : BitVec 6) (sc : BitVec 2) (op : BitVec 3) (ret : BitVec 1) (ord : BitVec 2) (sz : BitVec 1) (disp : BitVec 13) (s : State) : Res :=
  issue (.amoP pre d a b x sc op ret ord sz disp) s (fun s =>
    let n := axBytes sz
    let q := s.me.rd b
    orderedP (a.extractLsb' 0 4) (s.me.axAddr 60 x sc disp n) n q.poison op q.v 0 false (ret == 1) d ord s)

/-- `cas.p` (R205). -/
def execCasP (pre : Pre) (d a b n x : BitVec 6) (ord : BitVec 2) (sz : BitVec 1) (disp : BitVec 13) (s : State) : Res :=
  issue (.casP pre d a b n x ord sz disp) s (fun s =>
    let w := axBytes sz
    let c := s.me.rd b
    let v := s.me.rd n
    orderedP (a.extractLsb' 0 4) (s.me.axAddr 60 x 0 disp w) w (c.poison || v.poison) 6 v.v c.v true true d ord s)

/-! Probe and prefetch. -/

/-- The right that a probe kind asks for (R206). -/
def probeRight (k : BitVec 2) : Right := if k = 0 then .rd else if k = 1 then .wr else .at_

/-- `probe.h` (R206). -/
def execProbeH (pre : Pre) (d b : BitVec 6) (k : BitVec 2) (x : BitVec 6) (sc : BitVec 2) (disp : BitVec 20) (s : State) : Res :=
  issue (.probeH pre d b k x sc disp) s (fun s =>
    let a := s.me.mxAddr b x sc disp
    unlessPoison a.2 (
      match s.hLeaf s.myCtx a.1 (fun l => l.grants (probeRight k)) with
      | none => .trap 0x0B (addrInfo a.1) (zx k)
      | some l =>
        if l.grants (probeRight k) then
          scalarResult d { v := BitVec.ofNat 64 (l.size - a.1.toNat % l.size) } s
        else .trap 0x0B (addrInfo a.1) (zx k)))

/-- `probe.p` (R206). -/
def execProbeP (pre : Pre) (d : BitVec 6) (c : BitVec 4) (k : BitVec 2) (x : BitVec 6) (sc : BitVec 2) (disp : BitVec 20) (s : State) : Res :=
  issue (.probeP pre d c k x sc disp) s (fun s =>
    let a := s.me.mxOff x sc disp
    let cr := s.me.cap c
    unlessPoison (a.2 || cr.poison) (
      if capCheck cr.v a.1 1 (probeRight k) then
        scalarResult d { v := BitVec.ofInt 64 ((capLen cr.v : Int) - a.1) } s
      else .trap 0x0A (addrInfo a.1) 0))

/-- The cached pages of `n` bytes from an offset on: none of a HOME capability. -/
def claimedPages (cap : BitVec 128) (off n : Nat) : List Nat :=
  let lo := pKey cap off / 65536
  let hi := (pKey cap off + n - 1) / 65536
  if capHome cap then [] else (List.range (hi + 1 - lo)).map (fun i => pageOf ((lo + i) * 65536))

/-- The prefetch engine claims the pages of `n` bytes from an offset on, but for HOME pages (R189, R207). -/
def State.claimPages (s : State) (cap : BitVec 128) (off n reuse grp die : Nat) : State :=
  (claimedPages cap off n).foldl (fun s pk =>
      ((s.freshen pk).requestPage pk (leaseMs cap) true grp die).2.modPage pk (fun p => { p with reuse := reuse })) s

/-! Capabilities. -/

/-- Entry `i` of a context's capability table, as committed (R182): none where the table is not mapped, and
whether it is read poisoned. -/
def State.capEntry (s : State) (ctx i : Nat) : Option (BitVec 128 × Bool) × State :=
  match s.hPhysRange ctx (bitsOf ((s.ctxAt ctx).eff 3) 0 48 + 16 * i : Nat) 16 .rd with
  | none => (none, s)
  | some as =>
    let r := s.homeRead as
    let bs := if r.2.1 then r.1 else s.bytesAt ((s.ctxAt ctx).point 4 0) as
    (some (BitVec.ofNat 128 (natLE bs), r.2.1), r.2.2)

/-- The checks of `capld` on an entry (R183). -/
def State.capEntryOk (s : State) (ctx : Nat) (e : BitVec 128) : Bool :=
  capWorld e == (s.ctxAt ctx).world && capLC e != 3 && e.extractLsb' 112 2 == 0

/-- Entries of a context's capability table (spec/16_context.md R321). -/
def State.capCount (s : State) (ctx : Nat) : Nat := bitsOf ((s.ctxAt ctx).eff 3) 48 16

/-- Write a capability register. -/
def Strand.setCap (t : Strand) (d : BitVec 6) (v : CapReg) : Strand := { t with c := t.c.set {} d.toNat v }

/-- `capld` (R183). -/
def execCapld (pre : Pre) (d a : BitVec 6) (i : BitVec 12) (s : State) : Res :=
  issue (.capld pre d a i) s (fun s =>
    let r := s.me.rd a
    unlessPoison r.poison (
      let k := r.v.toNat + i.toNat
      if k ≥ s.capCount s.myCtx then .trap 0x0A (BitVec.ofNat 64 k) 0
      else match s.capEntry s.myCtx k with
        | (none, _) => .fatal 0x80
        | (some (e, po), s') =>
          if po then .done (s'.modMe (fun t => t.setCap d { v := e, poison := true }))
          else if s.capEntryOk s.myCtx e then .done (s'.modMe (fun t => t.setCap d { v := e }))
          else .trap 0x0A (BitVec.ofNat 64 k) 0))

/-- A capability narrowed to a window and a right mask (R183). -/
def narrowCap (c : BitVec 128) (xo xl : Word) (m : BitVec 4) : BitVec 128 :=
  c.extractLsb' 120 8 ++ (c.extractLsb' 116 4 &&& m) ++ c.extractLsb' 64 52 ++
    (c.extractLsb' 28 36 + xo.extractLsb' 8 36) ++ xl.extractLsb' 8 28

/-- `capderive` (R183). -/
def execCapderive (pre : Pre) (d a xo xl : BitVec 6) (rt : BitVec 4) (s : State) : Res :=
  issue (.capderive pre d a xo xl rt) s (fun s =>
    let o := s.me.rd xo
    let l := s.me.rd xl
    let c := s.me.cap (a.extractLsb' 0 4)
    unlessPoison (o.poison || l.poison) (
      if o.v.toNat % 256 ≠ 0 ∨ l.v.toNat % 256 ≠ 0 ∨ o.v.toNat + l.v.toNat > capLen c.v then .trap 0x0A o.v 0
      else .done (s.modMe (fun t => t.setCap d { v := narrowCap c.v o.v l.v rt, poison := c.poison }))))

/-- `capinfo` (R183). -/
def execCapinfo (pre : Pre) (d a : BitVec 6) (sel : BitVec 2) (s : State) : Res :=
  issue (.capinfo pre d a sel) s (fun s =>
    let c := s.me.cap (a.extractLsb' 0 4)
    let v : Word := match sel.toNat with
      | 0 => zx (capWorld c.v ++ c.v.extractLsb' 116 4 ++ (0#2 ++ capLC c.v))
      | 1 => zx (capObj c.v)
      | 2 => BitVec.ofNat 64 (capBase c.v)
      | _ => BitVec.ofNat 64 (capLen c.v)
    scalarResult d { v := v, poison := c.poison } s)

end Sys2Proof.Machine
end

