-- ==== Sys2Proof/Machine/Barrier.lean ====
section
/-! DEFINITION. The meeting points: group barriers, semaphores, `tokpush` and `tokpop`, memory counters and
futures (spec/13_barrier.md R260 to R273). -/

namespace Sys2Proof.Machine

/-! Group barriers. -/

/-- Barrier `j` where it is used and serves the moving strand's sub-group (R264). -/
def State.myBar (s : State) (j : Nat) : Option Barrier :=
  match s.myGroup with
  | none => none
  | some (_, x) => if (x.bar j).used && x.subOf (rankIn x.cores s.core) == j then some (x.bar j) else none

/-- The strand's arrival at barrier `j` (R261). -/
def State.arriveAt (s : State) (j : Nat) : State :=
  let m := s.me.mark
  (s.modMe (fun t => { t with arr := t.arr ||| (1#4 <<< j) })).barUpdate s.grp j
    (fun b => { b with arrive := b.arrive - 1, mark := b.mark.join m })

/-- The strand has seen a phase of barrier `b` end (R263, spec/10_phase.md R213). -/
def Strand.seesBar (t : Strand) (b : Barrier) : Strand := t.learn b.markDone

/-- `bar` (R264): stage 1 is the wait half. -/
def execBar (pre : Pre) (j : BitVec 6) (s : State) : Res :=
  issue (.bar pre j) s (fun s =>
    let k := j.toNat
    match s.myBar k with
    | none => .trap 0x0F 0 0
    | some b =>
      if s.me.micro.stage = 0 then
        if s.me.arr.getLsbD k then .wait (.arrival k)
        else
          .hold ((s.arriveAt k).modMe (fun t => { t with micro := { stage := 1, id := b.phase.toNat } })) (.barrier k b.phase)
      else if b.phase.toNat ≠ s.me.micro.id then .done (s.modMe (fun t => t.seesBar b))
      else .hold s (.barrier k b.phase))

/-- `bar.arr` (R264). -/
def execBarArr (pre : Pre) (d j : BitVec 6) (s : State) : Res :=
  issue (.barArr pre d j) s (fun s =>
    match s.myBar j.toNat with
    | none => .trap 0x0F 0 0
    | some b =>
      if s.me.arr.getLsbD j.toNat then .wait (.arrival j.toNat)
      else scalarResult d { v := zx b.phase } (s.arriveAt j.toNat))

/-- `bar.wait` (R264). -/
def execBarWait (pre : Pre) (a j : BitVec 6) (s : State) : Res :=
  issue (.barWait pre a j) s (fun s =>
    let r := s.me.rd a
    unlessPoison r.poison (
      match s.myBar j.toNat with
      | none => .trap 0x0F 0 0
      | some b =>
        if b.phase ≠ r.v.extractLsb' 0 16 then .done (s.modMe (fun t => t.seesBar b))
        else .wait (.barrier j.toNat b.phase)))

/-- `bar.exp` (R264). -/
def execBarExp (pre : Pre) (a j : BitVec 6) (s : State) : Res :=
  issue (.barExp pre a j) s (fun s =>
    let r := s.me.rd a
    unlessPoison r.poison (
      match s.myBar j.toNat with
      | none => .trap 0x0F 0 0
      | some _ =>
        if r.v.toNat ≥ 2 ^ 40 then .trap 0x0F 0 0
        else .done (s.barUpdate s.grp j.toNat (fun b => { b with bytes := b.bytes + r.v.toNat }))))

/-! Semaphores and tokens. -/

/-- `ksig` (R267). -/
def execKsig (pre : Pre) (k n : BitVec 6) (e : BitVec 2) (s : State) : Res :=
  issue (.ksig pre k n e) s (fun s =>
    if e = 0 then .done (s.modCore s.core (fun c => c.semAdd k.toNat n.toNat s.me.mark))
    else .done (s.enqueueSync (.ksig pre k n e)))

/-- `kwait` (R267). -/
def execKwait (pre : Pre) (k n : BitVec 6) (e : BitVec 2) (s : State) : Res :=
  issue (.kwait pre k n e) s (fun s =>
    if e = 0 then
      match s.myCore.semTake k.toNat n.toNat with
      | none => .wait (.grants [(8 + k.toNat, n.toNat)])
      | some (c, m) => .done ((s.setCore s.core c).modMe (fun t => t.learn m))
    else .done (s.enqueueSync (.kwait pre k n e)))

/-- `tokpush` (R268): its pushes, n into each FIFO, are all that its retirement does (`pushCount`). -/
def execTokpush (pre : Pre) (n : BitVec 6) (e : BitVec 2) (s : State) : Res :=
  issue (.tokpush pre n e) s (fun s =>
    if e = 0 then .done s else .done (s.enqueueSync (.tokpush pre n e)))

/-- `tokpop` (R268): the strand takes n tokens of each FIFO at issue. -/
def execTokpop (pre : Pre) (n : BitVec 6) (e : BitVec 2) (s : State) : Res :=
  issueN (.tokpop pre n e) n.toNat s (fun s =>
    if e = 0 then .done s else .done (s.enqueueSync (.tokpop pre n e)))

/-! Memory counters. -/

/-- The address of a counter register (R269): the low three bits cleared. -/
def counterAddr (v : Word) : Nat := v.toNat / 8 * 8
/-- The counter lies in S space. -/
def counterInS (v : Word) : Bool := v.getLsbD 2
/-- The condition of a `cnt.wait` (R269). -/
def counterCond (c : BitVec 2) (m x : Word) : Bool :=
  if c = 0 then decide (x.toNat ≤ m.toNat) else if c = 1 then decide (m.toNat ≤ x.toNat) else m == x

/-- A counter at its home: bytes' addresses and the space; an S piece may not be read back yet. -/
inductive Home
  | h (as : List Nat)
  | s (as : List Nat)
  | absent
  | fault
  deriving DecidableEq, Repr

/-- Where the counter of register value `v` lies, for an access with right `r`. -/
def State.counterHome (s : State) (v : Word) (r : Right) : Home :=
  if counterInS v then
    match s.sLoc s.core s.grp (counterAddr v) 8 with
    | .ok as => .s as
    | .absent => .absent
    | .outside => .fault
  else match s.hPhys s.myCtx (counterAddr v) r with
    | some pa => .h (addrs pa 8)
    | none => .fault

/-- The key of what the additions to a counter hand on to the moving strand's group (spec/10_phase.md R213): an S counter by rank
and partition address, an H counter by its home. -/
def State.counterKey (s : State) : Home → Nat
  | .s as => s.sMark s.core (as.headD 0)
  | .h as => hMark (as.headD 0) s.grp
  | _ => 0

/-- The counter's value at its home, and its poison. -/
def State.counterValue (s : State) (h : Home) : Word × Bool × State :=
  match h with
  | .h as => let r := s.homeRead as; (extended r.1, r.2.1, r.2.2)
  | .s as => let r := s.sRead s.core as; (extended r.1, r.2.1, r.2.2)
  | _ => (0, false, s)

/-- `cnt.wait` (R269): the strand is WAITING until the condition holds at the home. -/
def execCntWait (pre : Pre) (b a : BitVec 6) (s : State) : Res :=
  issue (.cntWait pre b a) s (fun s =>
    let x := s.me.rd b
    let q := s.me.rd a
    unlessPoison (q.poison || x.poison) (
      if q.v.extractLsb' 0 2 = 3 then .trap 0x0F 0 0
      else
        let home := s.counterHome q.v .rd
        match home with
        | .fault => .fatal 0x80
        | .absent => .stall
        | _ =>
          let r := s.counterValue home
          if r.2.1 then .containAt r.2.2 0x40
          else if counterCond (q.v.extractLsb' 0 2) r.1 x.v then
            let s := r.2.2.modMe (fun t => t.learn (r.2.2.marks.get {} (s.counterKey home)))
            .done (if counterInS q.v then s else s.beginPhase)
          else .wait .counter))

/-- Add to a counter at its home (R269). -/
def counterPlus (q x : Word) (s : State) : Eff :=
  let home := s.counterHome q .rdwr
  match home with
  | .fault => .fatal 0x80
  | .absent => .stall
  | _ =>
    let r := s.counterValue home
    if r.2.1 then .containAt r.2.2 0x40
    else
      let bs := wordBytes (r.1 + x)
      let key := s.counterKey home
      let m := s.me.mark.join (r.2.2.marks.get {} key)
      let note := fun s : State => { s with marks := r.2.2.marks.set {} key m }
      match home with
      | .h as => .done (note ((r.2.2.commitBytes (place as bs)).sawOwn s.grp (as.headD 0 / 8)))
      | .s as => .done (note (r.2.2.sWrite s.core as bs false))
      | _ => .done r.2.2

/-- `cnt.add` (R269): on an H counter a release, whose boundary stage 1 waits for. -/
def execCntAdd (pre : Pre) (b a : BitVec 6) (s : State) : Res :=
  issue (.cntAdd pre b a) s (fun s =>
    let x := s.me.rd b
    let q := s.me.rd a
    if s.me.micro.stage = 1 then
      if s.boundaryDone s.grp s.me.micro.id then counterPlus q.v x.v s else .keep s
    else unlessPoison (q.poison || x.poison) (
      if q.v.extractLsb' 0 2 ≠ 0 then .trap 0x0F 0 0
      else if counterInS q.v then counterPlus q.v x.v s
      else
        let r := s.phaseBoundary s.grp
        .keep (r.2.modMe (fun t => { t with micro := { stage := 1, id := r.1 } }))))

/-- A strand that waits for a counter reads it again: its turn comes at once where the wait would end. -/
def execCntWaitReread (c k : Nat) (s : State) : Res :=
  let t := s.strandAt c k
  let s' : State := { s with core := c, strand := k }
  let ends := match s'.fetchMine with
    | .instr (.cntWait _ b a) =>
      let x := t.rd b
      let q := t.rd a
      let home := s'.counterHome q.v .rd
      match home with
      | .absent => false
      | .fault => true
      | _ =>
        let r := s'.counterValue home
        r.2.1 || counterCond (q.v.extractLsb' 0 2) r.1 x.v
    | _ => true
  if t.life = .waiting && !t.stops && t.wait == .counter && ends then
    .next (((s.setStrand c k { t with life := t.active }).modCore c (fun co => co.count 7 1)).soon [.strand c k])
  else .next s

/-! Futures. -/

/-- A future's word at its home: none where it is not mapped. -/
def State.future (s : State) (a : Nat) (r : Right) : Option Nat := s.hPhys s.myCtx a r

/-- Groups parked on a future are woken (R272): PARKED becomes SAVED, and a group still being saved goes on to SAVED
after it has been PARKED (spec/12_group.md R254). The refresh point of the strand that parked is taken (R271); an xfence or an
acquire of the filling task counts for its own task alone (spec/10_phase.md R214, R221). -/
def State.wakeFuture (s : State) (pa : Nat) : State :=
  let es := s.waitTable.filter (fun w => w.addr == pa)
  let s := { s with waitTable := s.waitTable.filter (fun w => w.addr != pa) }
  es.foldl (fun s w =>
    (s.modGroup w.grp (fun y =>
      { y with parking := y.parking.map (fun p => { p with filled := true, mark := { rf := s.commits } }),
               st := if y.st = .parked then .saved else y.st }))) s

/-- `fset` at its home (R271, R273). -/
def fillFuture (a : Nat) (x : Word) (s : State) : Eff :=
  match s.future a .rdwr with
  | none => .fatal 0x80
  | some pa =>
    let r := s.homeRead (addrs pa 8)
    let old := extended r.1
    if r.2.1 then .containAt r.2.2 0x40
    else if old.getLsbD 63 then .done r.2.2
    else
      let v := 0x8000000000000000#64 ||| x
      .done (((r.2.2.commitUnit (pa / 8) (place (addrs pa 8) (wordBytes v))).sawOwn s.grp (pa / 8)).wakeFuture pa)

/-- `fset` (R271): stage 1 waits for its boundary. -/
def execFset (pre : Pre) (b a : BitVec 6) (s : State) : Res :=
  issue (.fset pre b a) s (fun s =>
    let x := s.me.rd b
    let q := s.me.rd a
    if s.me.micro.stage = 1 then
      if s.boundaryDone s.grp s.me.micro.id then fillFuture q.v.toNat x.v s else .keep s
    else unlessPoison q.poison (
      if q.v.toNat % 8 ≠ 0 then .trap 0x09 q.v 0
      else unlessPoison x.poison (
        let r := s.phaseBoundary s.grp
        .keep (r.2.modMe (fun t => { t with micro := { stage := 1, id := r.1 } })))))

/-- The wait table of a die has a FREE entry (R272). -/
def State.tableRoom (s : State) (die : Nat) : Bool :=
  decide ((s.waitTable.filter (fun w => w.die == die)).length < 4096)

/-- What the group of the moving strand leaves its cores for at the end of this clock. -/
def State.leaving (s : State) : Option Leave :=
  match s.myGroup with
  | none => none
  | some (_, x) => x.leave

/-- `park` (R271): where the future is EMPTY and the die's wait table has room, the group leaves its cores at the end
of the clock; it goes on after the `park` with the predicate set. A second `park` of the group in the clock is not
performed: its strand stops before it (R273). -/
def execPark (pre : Pre) (k a : BitVec 6) (s : State) : Res :=
  issue (.park pre k a) s (fun s =>
    let q := s.me.rd a
    let set := fun (v : Bool) (s : State) => s.modMe (fun t => t.wrP k.toNat { v := v })
    unlessPoison q.poison (
      if q.v.toNat % 8 ≠ 0 then .trap 0x09 q.v 0
      else match s.future q.v.toNat .rd with
        | none => .fatal 0x80
        | some pa =>
          let r := s.homeRead (addrs pa 8)
          let s := r.2.2
          if r.2.1 then .containAt s 0x40
          else if (extended r.1).getLsbD 63 then .done (set true s).beginPhase
          else if s.leaving == some .parks || s.leaving == some .exits then .stall
          else if s.tableRoom (dieOf s.core) then
            let s := { s with waitTable := s.waitTable ++ [({ die := dieOf s.core, addr := pa, ctx := s.myCtx, grp := s.grp } : WaitEntry)] }
            .done ((set true s).modGroup s.grp (fun y => { y with
              leave := some .parks, parking := some { addr := pa, rank := rankIn y.cores s.core, strand := s.strand } }))
          else .done (set false s)))

end Sys2Proof.Machine
end

