-- ==== Sys2Proof/Machine/Queue.lean ====
section
/-! DEFINITION. Command queues: the host's writes to a queue window, the consuming and checking of spores, their
release, and `enq` (spec/15_queue.md R298 to R319, spec/14_kernel.md R274 to R283). -/

namespace Sys2Proof.Machine

/-! The queue. -/

def Queue.ring (q : Queue) : Nat := bitsOf (q.word 0) 12 36 * 4096
def Queue.rsz (q : Queue) : Nat := bitsOf (q.word 0) 0 4
/-- Slots of the ring, and their size (R298, R300). -/
def Queue.slots (q : Queue) : Nat := 2 ^ (q.rsz + 4)
def Queue.slotBytes (q : Queue) : Nat := if q.authenticated then 128 else 64
def Queue.slotAddr (q : Queue) (i : BitVec 32) : Nat := q.ring + i.toNat % q.slots * q.slotBytes
/-- Slots made ready and not consumed. -/
def Queue.ready (q : Queue) : Nat := (q.tail - q.head).toNat
def Queue.sched (q : Queue) : Nat := bitsOf (q.word 2) 4 44 * 16
def Queue.ssz (q : Queue) : Nat := bitsOf (q.word 2) 0 4
/-- Address of the completion counter; 0 none. -/
def Queue.ccnt (q : Queue) : Nat := bitsOf (q.word 1) 0 48

/-- The fields of the descriptor words that are not reserved (R298). -/
def qdescMask (w : Nat) : Word :=
  match w with
  | 0 => 0x0000FFFFFFFFF00F
  | 1 => 0x0000FFFFFFFFFFFF
  | 2 => 0x000FFFFFFFFFFFFF
  | _ => 0xFFFFF00000000704

/-- A descriptor is valid (R298). -/
def State.queueValid (s : State) (x : Queue) : Bool :=
  decide (x.rsz ≤ 8) && decide (x.ssz ≤ 8) && decide (x.look ≤ 8) && (x.look == 0 || x.sched != 0) &&
  x.world == (s.ctxAt x.ctx).world && (!x.authenticated || x.keyFresh)

/-- `QDESC`, `QCTL` and `QSEQ` of a trusted world's queue accept writes only through that world's window; a guest
window reaches only its own world's queues (R299, spec/19_host.md R385). -/
def Queue.owns (x : Queue) : Via → Bool
  | .host => x.world == 0
  | .guest w => w != 0 && x.world == w
/-- `QLAUNCH` and `QTAIL` accept the host's writes as well. -/
def Queue.feeds (x : Queue) : Via → Bool
  | .host => true
  | .guest w => w != 0 && x.world == w

/-! Writes of the host (R300). -/

/-- A spore's 64 bytes where bytes are missing: those written at `off`, zeros elsewhere (R316). -/
def sporeBytes (off : Nat) (bs : List Byte) : List Byte := (List.replicate off 0 ++ bs ++ List.replicate 64 0).take 64

/-- A record of a write that takes no slot. -/
def State.rejectWrite (s : State) (q : Nat) (cause : BitVec 8) (digest : BitVec 32) : State :=
  s.journal { queue := q, st := .rejected, cause := cause, digest := digest }

/-- A slot is filled at `TAIL`: the bytes go into the ring and are kept as received. Where the context's tables do not translate
it with WR, memory takes none, and the slot is filled all the same (DESIGN CHOICE, log entry 73). -/
def State.fillSlot (s : State) (q : Nat) (bs : List Byte) : State :=
  let x := s.queueAt q
  let s := match s.hPhys x.ctx (x.slotAddr x.tail) .wr with
    | some pa => s.commitBytes (place (addrs pa bs.length) bs)
    | none => s
  s.modQueue q (fun x => { x with tail := x.tail + 1, received := x.received.put x.tail.toNat bs, held := none })

/-- A `QLAUNCH` write. On an authenticated queue the write at 0x00 is held for the seal at 0x40; a seal with no
spore held is no spore (log entry 27). -/
def State.qlaunch (s : State) (q off : Nat) (bs : List Byte) : State :=
  let x := s.queueAt q
  if x.st = .disabled then s
  else if x.dev then s.rejectWrite q 0x06 (digestOf (sporeBytes off bs))
  else if bs.length ≠ 64 ∨ !(off = 0 || (off = 0x40 && x.authenticated && x.held.isSome)) then
    s.rejectWrite q 0x01 (digestOf (sporeBytes off bs))
  else if x.authenticated && off == 0 then s.modQueue q (fun x => { x with held := some bs })
  else
    let spore := if x.authenticated then x.held.getD [] else bs
    let all := if x.authenticated then spore ++ bs else spore
    if s.pkg.st ≠ .serving then (s.modQueue q (fun x => { x with held := none })).rejectWrite q 0x05 (digestOf spore)
    else if x.ready + 1 > x.slots then (s.modQueue q (fun x => { x with held := none })).rejectWrite q 0x07 (digestOf spore)
    else s.fillSlot q all

/-- A `QTAIL` write. -/
def State.qtail (s : State) (q : Nat) (v : Word) : State :=
  let x := s.queueAt q
  let t := v.extractLsb' 0 32
  if x.st = .disabled || t = x.tail then s
  else if x.dev then s.rejectWrite q 0x06 0
  else if s.pkg.st ≠ .serving then s.rejectWrite q 0x05 0
  else if x.ready + (t - x.tail).toNat > x.slots then s.rejectWrite q 0x07 0
  else s.modQueue q (fun x => { x with tail := t })

/-- `QLAUNCH` (R300). -/
def execQlaunchWrite (via : Via) (q off : Nat) (bytes : List Byte) (s : State) : Res :=
  .next (if (s.queueAt q).feeds via then s.qlaunch q off bytes else s)

/-- `QTAIL` (R300). -/
def execQtailWrite (via : Via) (q : Nat) (v : BitVec 64) (s : State) : Res :=
  .next (if (s.queueAt q).feeds via then s.qtail q v else s)

/-! `QCTL` (R301). -/

/-- ENABLE. -/
def State.enableQueue (s : State) (q : Nat) : State :=
  let x := s.queueAt q
  match x.st with
  | .disabled =>
    if s.queueValid x then
      let s := s.modQueue q (fun x => { x with
        st := .active, head := 0, tail := 0, sseq := 0, expected := 0, err := 0, counterStop := false,
        held := none, received := [], buffer := [], keyFresh := false })
      s.modCtx x.ctx (fun c => if c.st = .loaded then { c with st := .runnable } else c)
    else s.modQueue q (fun x => { x with err := 0x0D })
  | .stopped => s.modQueue q (fun x => { x with st := .active, err := 0, counterStop := false })
  | _ => s

/-- STOP. -/
def State.stopQueue (s : State) (q : Nat) : State :=
  s.modQueue q (fun x => if x.st = .active then { x with st := .stopped } else x)

/-- RESYNC. -/
def State.resyncQueue (s : State) (q : Nat) : State :=
  s.modQueue q (fun x => if x.st = .halted ∧ x.expected.toNat ≤ x.qseq.toNat then
    { x with st := .active, expected := x.qseq } else x)

/-- REKEYED: a key has been installed since the queue stopped. -/
def State.rekeyQueue (s : State) (q : Nat) : State :=
  s.modQueue q (fun x => if (x.st = .error ∨ x.st = .rekey) ∧ x.keyFresh then
    { x with st := .active, expected := 0, keyFresh := false } else x)

/-- `QCTL` ENABLE. -/
def execQctlEnable (via : Via) (q : Nat) (s : State) : Res := .next (if (s.queueAt q).owns via then s.enableQueue q else s)
/-- `QCTL` STOP. -/
def execQctlStop (via : Via) (q : Nat) (s : State) : Res := .next (if (s.queueAt q).owns via then s.stopQueue q else s)
/-- `QCTL` DISABLE. -/
def execQctlDisable (via : Via) (q : Nat) (s : State) : Res := .next (if (s.queueAt q).owns via then s.disableQueue q else s)
/-- `QCTL` RESYNC. -/
def execQctlResync (via : Via) (q : Nat) (s : State) : Res := .next (if (s.queueAt q).owns via then s.resyncQueue q else s)
/-- `QCTL` REKEYED. -/
def execQctlRekeyed (via : Via) (q : Nat) (s : State) : Res := .next (if (s.queueAt q).owns via then s.rekeyQueue q else s)

/-- A descriptor word is written while the queue is DISABLED (R299). -/
def State.writeQdesc (s : State) (q w : Nat) (v : Word) : State :=
  if (s.queueAt q).st = .disabled ∧ w < 4 then
    s.modQueue q (fun x => { x with desc := x.desc.set 0 w (v &&& qdescMask w) })
  else s

/-- `QDESC` (R299). -/
def execQdescWrite (via : Via) (q word : Nat) (v : BitVec 64) (s : State) : Res :=
  .next (if (s.queueAt q).owns via then s.writeQdesc q word v else s)

/-! What the command complex reads of a context's H space: committed contents, translated with `RD`. -/

/-- `n` words from an 8-byte aligned address on; none where a word is not translated or is read poisoned. -/
def State.readHome (s : State) (ctx va : Nat) : Nat → Option (List Word) × State
  | 0 => (some [], s)
  | n + 1 =>
    match s.hPhys ctx va .rd with
    | none => (none, s)
    | some pa =>
      let r := s.homeRead (addrs pa 8)
      if r.2.1 then (none, r.2.2)
      else match r.2.2.readHome ctx (va + 8) n with
        | (some ws, s) => (some (BitVec.ofNat 64 (natLE r.1) :: ws), s)
        | (none, s) => (none, s)

/-! Kernel descriptors (spec/14_kernel.md R275 to R277). -/

/-- A descriptor's two words; with `pinna` its `GSIZE` is ignored. -/
def kdescOf (w0 w1 : Word) (pinna : Bool) : Option KDesc :=
  let pieces := bitsOf w1 21 5
  let gsize := bitsOf w1 16 5
  let imax := bitsOf w1 0 16
  if bitsOf w0 48 16 ≠ 0 ∨ bitsOf w1 26 38 ≠ 0 ∨ bitsOf w0 0 2 ≠ 0 ∨ pieces = 0 ∨ 24 < pieces ∨ imax = 0 then none
  else if !pinna && (gsize == 0 || decide (16 < gsize)) then none
  else some { entry := w0.extractLsb' 0 48, pieces := pieces, gsize := gsize, imax := imax }

/-- The kernel table's address. -/
def Context.ktab (c : Context) : Nat := bitsOf (c.eff 5) 0 48

/-- The descriptor of an entry as a spore captures it; none where R276 or R277 rejects it, or where its words are not translated
or read poisoned (DESIGN CHOICE, log entry 73). -/
def State.readKernel (s : State) (ctx k : Nat) (pinna : Bool) : Option KDesc × State :=
  let c := s.ctxAt ctx
  let st := (c.kernels.get {} k).st
  if st = .empty ∨ st = .unloading then (none, s)
  else match s.readHome ctx (c.ktab + 16 * k) 2 with
    | (some [w0, w1], s) => (kdescOf w0 w1 pinna, s)
    | (_, s) => (none, s)

/-- A launch that names an entry is accepted (R277). -/
def KEntry.hold (k : KEntry) : KEntry := { st := .busy, n := k.n + 1 }
def State.holdKernels (s : State) (x : Launch) : State :=
  s.modCtx x.ctx (fun c => { c with kernels := x.kernels.foldl (fun t k => t.set {} k (t.get {} k).hold) c.kernels })

/-- The kernel table after a code load (R277): an entry with a valid descriptor is LOADED; one whose descriptor the
driver has taken away is unloaded (log entry 26). -/
def State.loadKernels (s : State) (ctx : Nat) : State :=
  (List.range 1024).foldl (fun s k =>
    let c := s.ctxAt ctx
    let e := c.kernels.get {} k
    let r := s.readHome ctx (c.ktab + 16 * k) 2
    let ok := match r.1 with | some [w0, w1] => (kdescOf w0 w1 true).isSome | _ => false
    let st := match e.st with
      | .empty => if ok then KState.loaded else .empty
      | .loaded => if ok then KState.loaded else .empty
      | .busy => if ok then KState.busy else .unloading
      | .unloading => KState.unloading
    r.2.modCtx ctx (fun c => { c with kernels := c.kernels.set {} k { e with st := st } })) s

/-! Frond records (spec/14_kernel.md R279 to R283). -/

/-- A pinna record. -/
def pinnaRec (w v : Word) : Option PinnaRec :=
  let p : PinnaRec := { kidx := bitsOf w 0 10, inq := bitsOf w 10 3, ginit := bitsOf w 16 8, gmin := bitsOf w 24 8, gmax := bitsOf w 32 8 }
  if v ≠ 0 ∨ bitsOf w 40 24 ≠ 0 ∨ bitsOf w 13 3 ≠ 0 ∨ p.gmin = 0 ∨ p.ginit < p.gmin ∨ p.gmax < p.ginit then none else some p

/-- A rachis record. -/
def rachisRec (w v : Word) : Option Rachis :=
  let r : Rachis := { depth := bitsOf w 0 11, high := bitsOf w 16 11, low := bitsOf w 32 11, prod := bitsOf w 48 4, cons := bitsOf w 52 4 }
  if v ≠ 0 ∨ bitsOf w 56 8 ≠ 0 ∨ bitsOf w 43 5 ≠ 0 ∨ bitsOf w 27 5 ≠ 0 ∨ bitsOf w 11 5 ≠ 0 ∨
     r.depth < 16 ∨ 1024 < r.depth ∨ r.depth < r.high ∨ r.depth < r.low then none else some r

/-- Producers, consumers and inputs agree (R279): each queue one consumer and each pinna one input, one feed queue
consumed by pinna 0, and items flow towards higher pinnae. -/
def frondWired (ps : List PinnaRec) (qs : List Rachis) : Bool :=
  (List.zip (List.range qs.length) qs).all (fun e => match ps[e.2.cons]? with
    | some p => p.inq == e.1
    | none => false) &&
  (List.zip (List.range ps.length) ps).all (fun e => match qs[e.2.inq]? with
    | some r => r.cons == e.1
    | none => false) &&
  qs.all (fun r => if r.prod = 15 then r.cons == 0 else decide (r.prod < r.cons)) &&
  (qs.filter (fun r => r.prod == 15)).length == 1

/-- A frond of a record's 34 words and an item count; its kernels are read afterwards. -/
def frondOfWords (ws : List Word) (nitems : Nat) : Option Frond :=
  let w := ws.getD 0 0
  let npin := bitsOf w 0 4
  let nq := bitsOf w 8 4
  let gsize := bitsOf w 16 5
  let pair := fun i => (ws.getD (2 * i) 0, ws.getD (2 * i + 1) 0)
  if ws.getD 1 0 ≠ 0 ∨ bitsOf w 40 24 ≠ 0 ∨ bitsOf w 21 10 ≠ 0 ∨ bitsOf w 12 4 ≠ 0 ∨ bitsOf w 4 4 ≠ 0 ∨
     npin = 0 ∨ 8 < npin ∨ nq = 0 ∨ 8 < nq ∨ gsize = 0 ∨ 16 < gsize ∨ 2 ^ 32 < nitems then none
  else
    let rest := ((List.range (8 - npin)).map (fun i => pair (1 + npin + i))) ++ ((List.range (8 - nq)).map (fun i => pair (9 + nq + i)))
    if rest.any (fun p => p.1 != 0 || p.2 != 0) then none
    else match (List.range npin).mapM (fun i => pinnaRec (pair (1 + i)).1 (pair (1 + i)).2),
               (List.range nq).mapM (fun i => rachisRec (pair (9 + i)).1 (pair (9 + i)).2) with
      | some ps, some qs =>
        if frondWired ps qs && decide ((ps.map (fun p => p.ginit)).sum * gsize ≤ 128) then
          some { gsize := gsize, rbal := bitsOf w 32 8, fixed := w.getLsbD 31, pinnae := ps, queues := qs, nitems := nitems }
        else none
      | _, _ => none

/-- The pinnae with their kernels captured. -/
def State.readPinnae (s : State) (ctx : Nat) : List PinnaRec → Option (List PinnaRec) × State
  | [] => (some [], s)
  | p :: ps =>
    match s.readKernel ctx p.kidx true with
    | (none, s) => (none, s)
    | (some k, s) => match s.readPinnae ctx ps with
      | (some l, s) => (some ({ p with kdesc := k } :: l), s)
      | (none, s) => (none, s)

/-- A pinna of a frond record names an entry that is EMPTY or UNLOADING (R277). -/
def Context.frondUnloaded (c : Context) (ws : List Word) : Bool :=
  let npin := bitsOf (ws.getD 0 0) 0 4
  decide (npin ≤ 8) && (List.range npin).any (fun i =>
    let k := c.kernels.get {} (bitsOf (ws.getD (2 * (1 + i)) 0) 0 10)
    k.st == .empty || k.st == .unloading)

/-- The frond that a FROND spore names, or the cause that rejects it: KDESC_BAD for an entry that is not loaded (R277), then
FROND_REC (R283), which also a record gives that is not translated or reads poisoned (DESIGN CHOICE, log entry 73). -/
def State.readFrond (s : State) (ctx frec nitems : Nat) : Except (BitVec 8) Frond × State :=
  match s.readHome ctx frec 34 with
  | (none, s) => (.error 0x03, s)
  | (some ws, s) =>
    if (s.ctxAt ctx).frondUnloaded ws then (.error 0x02, s)
    else match frondOfWords ws nitems with
      | none => (.error 0x03, s)
      | some f => match s.readPinnae ctx f.pinnae with
        | (some ps, s) => (.ok { f with pinnae := ps }, s)
        | (none, s) => (.error 0x03, s)

/-! Spores (R302 to R304). -/

def sporeType (ws : List Word) : Nat := bitsOf (ws.getD 0 0) 0 4
def sporeBar (ws : List Word) : Bool := (ws.getD 0 0).getLsbD 4
def sporeTick (ws : List Word) : Nat := (ws.getD 1 0).toNat
/-- The H address in word 2: the counter, record or table. -/
def sporeAddr (ws : List Word) : Nat := bitsOf (ws.getD 2 0) 0 48

/-- The spore's words pass item 2 of R304. -/
def sporeOk (ws : List Word) : Bool :=
  let w := fun i => ws.getD i 0
  let z := fun (i lo n : Nat) => bitsOf (w i) lo n == 0
  z 0 18 46 && z 0 5 3 &&
  (match sporeType ws with
   | 0 => z 3 10 54 && decide (bitsOf (w 2) 32 32 + bitsOf (w 2) 0 32 < 2 ^ 32)
   | 1 => z 2 48 16 && z 2 0 4 && z 3 33 31
   | 2 => z 2 48 16 && z 2 0 6 && [3, 4, 5, 6, 7].all (fun i => w i == 0)
   | 3 => z 2 48 16 && z 2 0 3 && [4, 5, 6, 7].all (fun i => w i == 0)
   | 4 => z 2 49 15 && z 2 0 3 && [5, 6, 7].all (fun i => w i == 0)
   | 5 => z 3 10 6 && z 3 16 8 && decide (bitsOf (w 2) 32 32 + bitsOf (w 2) 0 32 < 2 ^ 32)
   | _ => false)

/-- A launch of a spore's words, or the cause that rejects it (R304 items 2 to 4). -/
def State.sporeLaunch (s : State) (q ctx : Nat) (sseq : Word) (digest : BitVec 32) (ws : List Word) :
    Except (BitVec 8) Launch × State :=
  let l : Launch := { queue := q, sseq := sseq, ctx := ctx, words := ws, digest := digest }
  if !sporeOk ws then (.error 0x01, s)
  else match sporeType ws with
    | 1 => match s.readFrond ctx (sporeAddr ws) (ws.getD 3 0).toNat with
      | (.ok f, s) => (.ok { l with frond := some f, ntasks := (f.pinnae.map (fun p => p.ginit)).sum }, s)
      | (.error e, s) => (.error e, s)
    | 2 => (.ok l, s)
    | 3 => (.ok l, s)
    | 4 => (.ok l, s)
    | _ => match s.readKernel ctx (bitsOf (ws.getD 3 0) 0 10) false with
      | (some k, s) => (.ok { l with kdesc := k, ntasks := bitsOf (ws.getD 2 0) 0 32 + 1 }, s)
      | (none, s) => (.error 0x02, s)

/-! Graph tables (R310). -/

/-- A node's outgoing edges as table indices. -/
def edgeIxs (w : Word) : List Nat := addrs (bitsOf w 32 32) (bitsOf w 16 16)

/-- An edge record. -/
def edgeRec (nnode : Nat) (ws : List Word) : Option GEdge :=
  let w := ws.getD 0 0
  let a := ws.getD 1 0
  let sp := bitsOf w 16 3
  if bitsOf w 19 45 ≠ 0 ∨ ws.getD 3 0 ≠ 0 ∨ nnode ≤ bitsOf w 0 16 ∨ !(sp = 2 || sp = 3) ∨
     (sp = 2 ∧ bitsOf a 48 16 ≠ 0) ∨ (sp = 3 ∧ bitsOf a 48 4 ≠ 0) then none
  else some { dst := bitsOf w 0 16, space := sp, addr := a, len := ws.getD 2 0 }

/-- A node's number, words and outgoing edges, read from the table. -/
structure RawNode where
  words : List Word
  pred : Nat
  outs : List GEdge

/-- Read edge records, in a node's list or in none. -/
def State.readEdges (s : State) (ctx base nnode : Nat) : List Nat → Option (List GEdge) × State
  | [] => (some [], s)
  | i :: is =>
    match s.readHome ctx (base + 32 * i) 4 with
    | (none, s) => (none, s)
    | (some ws, s) => match edgeRec nnode ws with
      | none => (none, s)
      | some e => match s.readEdges ctx base nnode is with
        | (some l, s) => (some (e :: l), s)
        | (none, s) => (none, s)

/-- Read the node records from a node on, with all edges of the table. `EDGE0` up to `NEDGE` is accepted, also of a node without
edges (DESIGN CHOICE, log entry 73). -/
def State.readNodes (s : State) (ctx gtab : Nat) (edges : List GEdge) : Nat → Nat → Option (List RawNode) × State
  | _, 0 => (some [], s)
  | i, n + 1 =>
    match s.readHome ctx (gtab + 64 + 128 * i) 16 with
    | (none, s) => (none, s)
    | (some ws, s) =>
      let w8 := ws.getD 8 0
      if bitsOf w8 32 32 + bitsOf w8 16 16 > edges.length ∨ (ws.drop 9).any (fun w => w != 0) then (none, s)
      else match s.readNodes ctx gtab edges (i + 1) n with
        | (some l, s) =>
          (some ({ words := ws.take 8, pred := bitsOf w8 0 16, outs := (edgeIxs w8).filterMap (fun k => edges[k]?) } :: l), s)
        | (none, s) => (none, s)

/-- Take away nodes without incoming edges, `fuel` times: what is left lies on or behind a cycle. -/
def peel : Nat → List (Nat × List Nat) → List (Nat × List Nat)
  | 0, l => l
  | k + 1, l => peel k (l.filter (fun n => l.any (fun m => m.2.contains n.1)))

/-- Predecessor counts are right and the edges have no cycle. -/
def graphOk (ns : List RawNode) : Bool :=
  let ix := List.zip (List.range ns.length) ns
  let into := fun k => (ns.map (fun n => (n.outs.filter (fun e => e.dst == k)).length)).sum
  ix.all (fun e => e.2.pred == into e.1) &&
  (peel ns.length (ix.map (fun e => (e.1, e.2.outs.map (fun g => g.dst))))).isEmpty

/-- The launches of a graph's nodes; none where a node's spore is rejected (R310). -/
def State.nodeLaunches (s : State) (q ctx : Nat) (sseq : Word) (digest : BitVec 32) : List RawNode → Option (List Launch) × State
  | [] => (some [], s)
  | n :: ns =>
    let t := sporeType n.words
    if !(t = 0 || t = 1 || t = 5) || sporeBar n.words || sporeTick n.words != 0 then (none, s)
    else match s.sporeLaunch q ctx sseq digest n.words with
      | (.error _, s) => (none, s)
      | (.ok l, s) => match s.nodeLaunches q ctx sseq digest ns with
        | (some ls, s) => (some (l :: ls), s)
        | (none, s) => (none, s)

/-- The graph that a GRAPH spore names: its nodes with their launches; a table that is not translated or reads poisoned is
GRAPH_BAD (DESIGN CHOICE, log entry 73). -/
def State.readGraph (s : State) (q ctx : Nat) (sseq : Word) (digest : BitVec 32) (gtab : Nat) :
    Option (List (RawNode × Launch)) × State :=
  match s.readHome ctx gtab 8 with
  | (none, s) => (none, s)
  | (some ws, s) =>
    let w := ws.getD 0 0
    let nnode := bitsOf w 0 16
    if nnode = 0 ∨ 4096 < nnode ∨ bitsOf w 32 32 ≠ 0 ∨ (ws.drop 1).any (fun v => v != 0) then (none, s)
    else match s.readEdges ctx (gtab + 64 + 128 * nnode) nnode (List.range (bitsOf w 16 16)) with
      | (none, s) => (none, s)
      | (some es, s) => match s.readNodes ctx gtab es 0 nnode with
        | (none, s) => (none, s)
        | (some ns, s) =>
          if !graphOk ns then (none, s)
          else match s.nodeLaunches q ctx sseq digest ns with
            | (some ls, s) => (some (List.zip ns ls), s)
            | (none, s) => (none, s)

/-! Acceptance. -/

/-- An accepted launch takes a number and holds its kernel entries. -/
def State.addLaunch (s : State) (l : Launch) : Nat × State :=
  let n := s.fresh
  (n.1, ({ n.2 with launches := n.2.launches.put n.1 l } : State).holdKernels l)

/-- A WAIT_COUNT is among the spores that a queue has accepted before (spec/10_phase.md R218, log entry 28). -/
def State.afterWait (s : State) (q : Nat) (sseq : Word) : Bool :=
  s.launches.any (fun e => e.2.queue == q && e.2.node.isNone && decide (e.2.sseq.toNat < sseq.toNat) && sporeType e.2.words == 3)

/-- A graph's nodes become launches that wait to be launched. A node's start refresh covers the regions of its incoming edges,
that of a node which waits for no other is its spore's (R311, spec/10_phase.md R218). -/
def State.addNodes (s : State) (g : Nat) (start : Start) (ns : List (RawNode × Launch)) : State :=
  let ix := List.zip (List.range ns.length) ns
  ix.foldl (fun s e =>
    let ins := ix.flatMap (fun f => f.2.1.outs.filter (fun o => o.dst == e.1))
    let r := s.addLaunch { e.2.2 with node := some (g, e.1), start := if e.2.1.pred = 0 then start else .regions ins }
    let node : GNode := { words := e.2.1.words, pred := e.2.1.pred, outs := e.2.1.outs, ins := ins, launch := some r.1 }
    r.2.modLaunch g (fun x => { x with graph := x.graph.put e.1 node })) s

/-- A spore is accepted. -/
def State.accept (s : State) (l : Launch) (nodes : List (RawNode × Launch)) : State :=
  let start : Start := if sporeBar l.words || s.afterWait l.queue l.sseq then .all else .nothing
  let r := s.addLaunch { l with start := start }
  (r.2.addNodes r.1 start nodes).launchRec r.1 .accepted 0

/-- A spore is rejected. -/
def State.reject (s : State) (q : Nat) (sseq : Word) (cause : BitVec 8) (digest : BitVec 32) : State :=
  s.journal { queue := q, st := .rejected, cause := cause, sseq := sseq, digest := digest }

/-- The checks of R304 on a slot read cleanly. -/
def State.checkSpore (s : State) (q : Nat) (sseq : Word) (bs : List Byte) : State :=
  let x := s.queueAt q
  let ws := bytesWords 8 (bs.take 64)
  let digest := digestOf (bs.take 64)
  match s.sporeLaunch q x.ctx sseq digest ws with
  | (.error c, s) => s.reject q sseq c digest
  | (.ok l, s) =>
    if sporeType ws = 2 then
      match s.readGraph q x.ctx sseq digest (sporeAddr ws) with
      | (some ns, s) => s.accept l ns
      | (none, s) => s.reject q sseq 0x0B digest
    else s.accept l []

/-- The bytes of slot `HEAD`, whether they were read cleanly, and the queue with the slot consumed. -/
def State.takeSlot (s : State) (q : Nat) : List Byte × Bool × State :=
  let x := s.queueAt q
  if x.dev then
    let s' := s.modQueue q (fun x => { x with buffer := x.buffer.drop 1, head := x.head + 1 })
    (wordsBytes (x.buffer.headD []), true, s')
  else
    let s' := s.modQueue q (fun x => { x with head := x.head + 1, received := x.received.erase x.head.toNat })
    match x.received.find? x.head.toNat with
    | some bs => (bs, true, s')
    | none =>
      match s.hPhys x.ctx (x.slotAddr x.head) .rd with
      | none => (List.replicate x.slotBytes 0, false, s')
      | some pa =>
        let r := s'.homeRead (addrs pa x.slotBytes)
        (r.1, !r.2.1, r.2.2)

/-- What the seal's `TAG` is taken over (R313). -/
def sealText (q : Nat) (seq : Word) (spore : List Byte) : List Byte := bytesLE 2 q ++ wordBytes seq ++ spore

/-- The checks of R314 on a slot of an authenticated queue, then R304. -/
def State.checkSealed (s : State) (q : Nat) (bs : List Byte) : State :=
  let x := s.queueAt q
  let spore := bs.take 64
  let ws := bytesWords 8 (bs.drop 64)
  let seq := ws.getD 0 0
  let tag := kmac256 (bytesLE 32 (x.key.getD 0).toNat) (sealText q seq spore) "CRELEK RING" 32
  let stop := fun (s : State) (st : QState) (cause : BitVec 8) =>
    (s.modQueue q (fun x => { x with st := st, keyFresh := if st = .error then false else x.keyFresh })).reject q seq cause (digestOf spore)
  if (ws.drop 5).any (fun w => w != 0) || wordsBytes ((ws.drop 1).take 4) != tag then stop s .error 0x08
  else if seq.toNat < x.expected.toNat then stop s .error 0x09
  else if x.expected.toNat < seq.toNat then stop s .halted 0x0A
  else
    let last := seq == BitVec.allOnes 64
    let s := s.modQueue q (fun x =>
      if last then { x with st := .rekey, keyFresh := false } else { x with expected := x.expected + 1 })
    s.checkSpore q seq bs

/-- A queue has a slot to consume now (R300, R301). -/
def State.consumable (s : State) (q : Nat) : Bool :=
  let x := s.queueAt q
  x.st == .active && s.pkg.st == .serving && (if x.dev then !x.buffer.isEmpty else x.ready != 0)

/-- The command complex consumes slot `HEAD` of an ACTIVE queue (R300, R303). -/
def execSporeConsume (q : Nat) (s : State) : Res :=
  if !s.consumable q then .next s
  else
    let x := s.queueAt q
    let r := s.takeSlot q
    if x.authenticated then
      if r.2.1 then .next (r.2.2.checkSealed q r.1) else .next (r.2.2.reject q 0 0x01 (digestOf (r.1.take 64)))
    else
      let s := r.2.2.modQueue q (fun x => { x with sseq := x.sseq + 1 })
      if r.2.1 then .next (s.checkSpore q x.sseq r.1) else .next (s.reject q x.sseq 0x01 (digestOf (r.1.take 64)))

/-! Release (R305, R306, R309). -/

/-- A launch has ended. -/
def LState.over : LState → Bool
  | .completed => true
  | .partly => true
  | .discarded => true
  | .rejected => true
  | _ => false

/-- The oldest unreleased spore of a queue. -/
def State.oldestAccepted (s : State) (q : Nat) : Option (Nat × Launch) :=
  List.find? (fun e : Nat × Launch => e.2.queue == q && e.2.st == .accepted && e.2.node.isNone) s.launches

/-- The queue may release: ACTIVE, or STOPPED and not by a counter fault (R305). -/
def State.releases (s : State) (q : Nat) : Bool :=
  let x := s.queueAt q
  s.pkg.st == .serving && (x.st == .active || (x.st == .stopped && !x.counterStop))

/-- `BAR` and `TICK` hold a spore back no longer. -/
def State.ripe (s : State) (l : Nat) (x : Launch) : Bool :=
  (!sporeBar x.words || s.launches.all (fun e => !(e.2.queue == x.queue && e.2.node.isNone && decide (e.1 < l)) || e.2.st.over)) &&
  decide (sporeTick x.words ≤ s.pkg.ns)

/-- A spore is released: its record, with SLIP where it has slipped (R306). -/
def State.releaseSpore (s : State) (l : Nat) (x : Launch) : State :=
  let slip := sporeTick x.words != 0 && decide (sporeTick x.words + 1000 ≤ s.pkg.ns)
  (s.modLaunch l (fun y => { y with st := .released })).launchRec l .released (if slip then 0x10 else 0)

/-- A WAIT_COUNT whose counter has been read. -/
def State.releaseWait (s : State) (l : Nat) (x : Launch) : State :=
  match s.counterRead x.ctx (sporeAddr x.words) with
  | (none, s) =>
    let s := s.finishLaunch l .discarded 0x0E
    (s.modQueue x.queue (fun y => { y with st := .stopped, counterStop := true })).counterFault x.queue (sporeAddr x.words)
  | (some (v, pa), s) =>
    if (x.words.getD 3 0).toNat ≤ (v + s.reported pa) % 2 ^ 64 then (s.releaseSpore l x).finishLaunch l .completed 0 else s

/-- A SIGNAL: its end, then its counter and its completion message (R305, R315). -/
def State.releaseSignal (s : State) (l : Nat) (x : Launch) : State :=
  let s := s.releaseSpore l x
  let ca := sporeAddr x.words
  let r := if ca = 0 then (false, s) else s.counterReport x.ctx ca (x.words.getD 3 0)
  if r.1 then (r.2.finishLaunch l .discarded 0x0E).counterFault x.queue ca
  else
    let s := r.2.finishLaunch l .completed 0
    if (x.words.getD 2 0).getLsbD 48 then
      s.report (.message (s.queueAt x.queue).world.toNat 1 x.ctx x.queue 0 (x.words.getD 4 0))
    else s

/-- The oldest unreleased spore of a queue is released where R305 lets it. -/
def execSporeRelease (q : Nat) (s : State) : Res :=
  match s.oldestAccepted q with
  | none => .next s
  | some (l, x) =>
    if !s.releases q || !s.ripe l x then .next s
    else match sporeType x.words with
      | 3 => .next (s.releaseWait l x)
      | 4 => .next (s.releaseSignal l x)
      | 2 => .next ((s.releaseSpore l x).soon [.event (.launchEnd l)])
      | _ => .next (s.releaseSpore l x)

/-! `enq` (R318). -/

/-- The eight registers from xa on. -/
def Strand.eight (t : Strand) (a : BitVec 6) : List Reg := (List.range 8).map (fun i => t.rd (a + BitVec.ofNat 6 i))

/-- `enq`: stage 1 waits for the boundary. -/
def execEnq (pre : Pre) (k : BitVec 4) (a : BitVec 6) (s : State) : Res :=
  issue (.enq pre k a) s (fun s =>
    let rs := s.me.eight a
    let q := bitsOf (s.me.rd a).v 8 10
    let hand := fun (s : State) =>
      let x := s.queueAt q
      if s.pkg.st = .serving ∧ x.st = .active ∧ x.buffer.length < 64 then
        Eff.done ((s.modQueue q (fun x => { x with buffer := x.buffer ++ [rs.map (fun r => r.v)], tail := x.tail + 1 })).modMe
          (fun t => t.wrP k.toNat { v := true }))
      else .done (s.modMe (fun t => t.wrP k.toNat { v := false }))
    if s.me.micro.stage = 1 then
      if s.boundaryDone s.grp s.me.micro.id then hand s else .keep s
    else
      unlessPoison (rs.any (fun r => r.poison)) (
        let x := s.queueAt q
        if !x.dev || x.ctx != s.myCtx then .trap 0x11 (BitVec.ofNat 64 q) 0
        else
          let r := s.phaseBoundary s.grp
          .keep (r.2.modMe (fun t => { t with micro := { stage := 1, id := r.1 } }))))

end Sys2Proof.Machine
end

