-- ==== Sys2Proof/Machine/Number.lean ====
section
/-! DEFINITION. Numbers: exact values, the floating-point formats, the one rounding function, conversions
and the BLK4 blocks (spec/04_numbers.md R57 to R70), and the functions of `vfn` (spec/07_vector.md R149). -/

namespace Sys2Proof.Machine

/-- An exact real of the form ±m × 2^e with a signed zero, an infinity, or NaN. -/
inductive Num
  | nan
  | inf (neg : Bool)
  | fin (neg : Bool) (m : Nat) (e : Int)
  deriving DecidableEq, Repr

/-- The rounding modes (R62). -/
inductive Mode
  | rne | rtz | rup | rdn
  deriving DecidableEq, Repr

/-- The rounding mode of a 2-bit field (R62). -/
def modeOf (b : BitVec 2) : Mode := if b = 0 then .rne else if b = 1 then .rtz else if b = 2 then .rup else .rdn

/-- A floating-point format: exponent and fraction widths and bias; `e4m3` has no infinity (R59). -/
structure Fmt where
  ew : Nat
  mw : Nat
  bias : Nat
  e4m3 : Bool := false
  deriving DecidableEq, Repr

def Fmt.fp32 : Fmt := { ew := 8, mw := 23, bias := 127 }
def Fmt.fp16 : Fmt := { ew := 5, mw := 10, bias := 15 }
def Fmt.bf16 : Fmt := { ew := 8, mw := 7, bias := 127 }
def Fmt.fp8e4m3 : Fmt := { ew := 4, mw := 3, bias := 7, e4m3 := true }
def Fmt.fp8e5m2 : Fmt := { ew := 5, mw := 2, bias := 15 }

/-- Bits of a number of the format. -/
def Fmt.width (f : Fmt) : Nat := 1 + f.ew + f.mw
/-- The exponent field of all ones, shifted to its place. -/
def Fmt.top (f : Fmt) : Nat := (2 ^ f.ew - 1) * 2 ^ f.mw
/-- The magnitude bits of the largest finite value (R59). -/
def Fmt.maxMag (f : Fmt) : Nat := if f.e4m3 then f.top + 6 else f.top - 1
/-- The canonical NaN (R59). -/
def Fmt.nan (f : Fmt) : Nat := if f.e4m3 then f.top + 7 else f.top + 2 ^ (f.mw - 1)
/-- The sign bit. -/
def Fmt.sign (f : Fmt) (neg : Bool) : Nat := if neg then 2 ^ (f.ew + f.mw) else 0

/-- A format code of R57, as a floating-point format. -/
def fmtOf (c : Nat) : Option Fmt :=
  match c with
  | 4 => some .fp8e4m3
  | 5 => some .fp8e5m2
  | 6 => some .fp16
  | 7 => some .bf16
  | 8 => some .fp32
  | _ => none

/-- The width of a format code of R57 in bits. -/
def codeWidth (c : Nat) : Nat :=
  match c with
  | 0 => 8
  | 1 => 16
  | 2 => 32
  | 3 => 64
  | 4 => 8
  | 5 => 8
  | 6 => 16
  | 7 => 16
  | 8 => 32
  | _ => 4

/-- The value that bits of a format stand for (R59). -/
def Fmt.value (f : Fmt) (b : Nat) : Num :=
  let neg := decide (2 ^ (f.ew + f.mw) ≤ b % 2 ^ f.width)
  let mag := b % 2 ^ (f.ew + f.mw)
  let ex := mag / 2 ^ f.mw
  let fr := mag % 2 ^ f.mw
  if ex = 2 ^ f.ew - 1 ∧ (f.e4m3 = false ∨ fr = 7) then
    if f.e4m3 = false ∧ fr = 0 then .inf neg else .nan
  else if ex = 0 then .fin neg fr (1 - f.bias - f.mw)
  else .fin neg (fr + 2 ^ f.mw) ((ex : Int) - f.bias - f.mw)

/-- The signed value of two's complement bits (R58). -/
def intOf (w b : Nat) : Int := if b % 2 ^ w < 2 ^ (w - 1) then (b % 2 ^ w : Nat) else ((b % 2 ^ w : Nat) : Int) - 2 ^ w

/-- An integer as an exact number. -/
def Num.ofInt (i : Int) : Num := .fin (decide (i < 0)) i.natAbs 0

/-- Two's complement bits of an integer. -/
def bitsOfInt (w : Nat) (i : Int) : Nat := (i % 2 ^ w).toNat

/-! Rounding. -/

/-- Whether a magnitude between `n` and `n + 1` goes up: `rem` of `den` lies above `n` (R62). -/
def roundsUp (mode : Mode) (neg : Bool) (odd : Bool) (rem den : Nat) : Bool :=
  match mode with
  | .rne => decide (den < 2 * rem) || (decide (2 * rem = den) && odd)
  | .rtz => false
  | .rup => !neg && decide (0 < rem)
  | .rdn => neg && decide (0 < rem)

/-- The multiple of 2^u that ±m × 2^e rounds to, as a count. -/
def roundTo (mode : Mode) (neg : Bool) (m : Nat) (e u : Int) : Nat :=
  if u ≤ e then m * 2 ^ (e - u).toNat
  else
    let d := 2 ^ (u - e).toNat
    let q := m / d
    if roundsUp mode neg (q % 2 == 1) (m % d) d then q + 1 else q

/-- The result of an overflow (R63). -/
def Fmt.overflow (f : Fmt) (mode : Mode) (sat neg : Bool) : Nat :=
  let toInf := match mode with
    | .rne => true
    | .rtz => false
    | .rup => !neg
    | .rdn => neg
  if sat || !toInf then f.sign neg + f.maxMag
  else if f.e4m3 then f.nan
  else f.sign neg + f.top

/-- `Round(x, fmt, mode)` with R63 under `sat` (R62). -/
def Fmt.round (f : Fmt) (mode : Mode) (sat : Bool) : Num → Nat
  | .nan => f.nan
  | .inf neg => if f.e4m3 then (if sat then f.sign neg + f.maxMag else f.nan) else f.sign neg + f.top
  | .fin neg m e =>
    if m = 0 then f.sign neg
    else
      let emin : Int := 1 - f.bias
      let l : Int := (m.log2 : Int) + e
      let u := max l emin - f.mw
      let n := roundTo mode neg m e u
      -- the field value: a count of 2^u of a number whose exponent field starts at 1 above the subnormals
      let mag := if n < 2 ^ f.mw then n else ((u + f.mw + f.bias).toNat - 1) * 2 ^ f.mw + n
      if mag ≤ f.maxMag then f.sign neg + mag else f.overflow mode sat neg

/-- An integer from an exact number: rounded, then clamped to `w` bits; NaN gives 0 (R64). -/
def roundInt (w : Nat) (mode : Mode) : Num → Int
  | .nan => 0
  | .inf neg => if neg then -(2 ^ (w - 1)) else 2 ^ (w - 1) - 1
  | .fin neg m e =>
    let n : Int := roundTo mode neg m e 0
    max (-(2 ^ (w - 1))) (min (2 ^ (w - 1) - 1) (if neg then -n else n))

/-- An integer kept in `w` bits: clamped with `sat`, else its low bits (R58). -/
def fitInt (w : Nat) (sat : Bool) (i : Int) : Nat :=
  bitsOfInt w (if sat then max (-(2 ^ (w - 1))) (min (2 ^ (w - 1) - 1) i) else i)

/-! Exact arithmetic. -/

def Num.neg : Num → Num
  | .nan => .nan
  | .inf n => .inf (!n)
  | .fin n m e => .fin (!n) m e

/-- A signed count at a common exponent. -/
def signedAt (neg : Bool) (m : Nat) (e u : Int) : Int :=
  let n : Int := (m * 2 ^ (e - u).toNat : Nat)
  if neg then -n else n

/-- The exact sum; an exact zero takes its sign by R61. -/
def Num.add (mode : Mode) : Num → Num → Num
  | .nan, _ => .nan
  | _, .nan => .nan
  | .inf a, .inf b => if a = b then .inf a else .nan
  | .inf a, .fin _ _ _ => .inf a
  | .fin _ _ _, .inf b => .inf b
  | .fin n1 m1 e1, .fin n2 m2 e2 =>
    let u := min e1 e2
    let t := signedAt n1 m1 e1 u + signedAt n2 m2 e2 u
    if t = 0 then .fin (if m1 = 0 ∧ m2 = 0 ∧ n1 = n2 then n1 else decide (mode = .rdn)) 0 0
    else .fin (decide (t < 0)) t.natAbs u

/-- The exact product. -/
def Num.mul : Num → Num → Num
  | .nan, _ => .nan
  | _, .nan => .nan
  | .inf a, .inf b => .inf (a != b)
  | .inf a, .fin n m _ => if m = 0 then .nan else .inf (a != n)
  | .fin n m _, .inf b => if m = 0 then .nan else .inf (n != b)
  | .fin n1 m1 e1, .fin n2 m2 e2 => .fin (n1 != n2) (m1 * m2) (e1 + e2)

/-- `a < b` for numbers other than NaN; with `zeros`, −0 lies below +0. -/
def Num.lt (zeros : Bool) : Num → Num → Bool
  | .nan, _ => false
  | _, .nan => false
  | .inf a, .inf b => a && !b
  | .inf a, .fin _ _ _ => a
  | .fin _ _ _, .inf b => !b
  | .fin n1 m1 e1, .fin n2 m2 e2 =>
    if m1 = 0 ∧ m2 = 0 then zeros && n1 && !n2
    else
      let u := min e1 e2
      decide (signedAt n1 m1 e1 u < signedAt n2 m2 e2 u)

def Num.isNan : Num → Bool
  | .nan => true
  | _ => false

/-! Elementary functions. -/

/-- The integer square root, by `fuel` bits from 2^fuel down. -/
def isqrt : Nat → Nat → Nat → Nat
  | 0, _, r => r
  | fuel + 1, n, r =>
    let c := r + 2 ^ fuel
    isqrt fuel n (if c * c ≤ n then c else r)

/-- A truncated quotient or root with a bit that says whether anything was cut off. -/
def sticky (neg : Bool) (q : Nat) (exact : Bool) (e : Int) : Num := .fin neg (2 * q + if exact then 0 else 1) (e - 1)

/-- 1 ÷ x for a finite nonzero x, sharp enough to round. -/
def rcpNum (neg : Bool) (m : Nat) (e : Int) : Num :=
  let s := m.log2 + 64
  sticky neg (2 ^ s / m) (2 ^ s % m == 0) (-(s : Int) - e)

/-- The same value with an even exponent. -/
def evenExp (m : Nat) (e : Int) : Nat × Int := if e % 2 = 0 then (m, e) else (2 * m, e - 1)

/-- The square root of a positive finite x. -/
def sqrtNum (m : Nat) (e : Int) : Num :=
  let p := evenExp m e
  let n := p.1 * 2 ^ 128
  let q := isqrt (n.log2 / 2 + 1) n 0
  sticky false q (q * q == n) (p.2 / 2 - 64)

/-- 1 ÷ √x for a positive finite x. -/
def rsqrtNum (m : Nat) (e : Int) : Num :=
  let p := evenExp m e
  let s := p.1.log2 + 64
  let n := 2 ^ (2 * s) / p.1
  let q := isqrt (n.log2 / 2 + 1) n 0
  sticky false q (q * q * p.1 == 2 ^ (2 * s)) (-(s : Int) - p.2 / 2)

/-- Fraction bits of the fixed-point enclosures. -/
def fixBits : Nat := 256
def fixOne : Nat := 2 ^ fixBits
/-- A bound on the enclosures' errors, in units of the last place. -/
def fixErr : Nat := 1024

/-- Σ z^(2j+1) ÷ (2j+1) for j from `k` on, with `t` = z^(2k+1); truncated. -/
def atanhSum (z2 : Nat) : Nat → Nat → Nat → Nat
  | 0, _, _ => 0
  | n + 1, k, t => t / (2 * k + 1) + atanhSum z2 n (k + 1) (t * z2 / fixOne)

/-- 2 atanh z for z in units of 2^−256 below 1/3. -/
def twoAtanh (z : Nat) : Nat := 2 * atanhSum (z * z / fixOne) 100 0 z

/-- ln 2 = 2 atanh(1/3). -/
def ln2 : Nat := twoAtanh (fixOne / 3)

/-- Σ y^k ÷ k! from `k` on, with `t` = y^k ÷ k!; truncated. -/
def expSum (y : Nat) : Nat → Nat → Nat → Nat
  | 0, _, _ => 0
  | n + 1, k, t => t + expSum y n (k + 1) (t * y / (fixOne * (k + 1)))

/-- An irrational value strictly between `lo` and `hi` (units of 2^e), rounded: where both ends agree that is
the result; where they do not, `Config.vfnTie` decides (log entry 12). -/
def roundBetween (f : Fmt) (mode : Mode) (sat neg : Bool) (lo hi : Nat) (e : Int) : Nat :=
  let a := f.round mode sat (.fin neg (2 * lo + 1) (e - 1))
  let b := f.round mode sat (.fin neg (2 * hi - 1) (e - 1))
  if a = b then a else if Config.vfnTie lo hi then a else b

/-- 2^x for a finite x (R149). -/
def exp2Bits (f : Fmt) (mode : Mode) (sat neg : Bool) (m : Nat) (e : Int) : Nat :=
  if m = 0 then f.round mode sat (.fin false 1 0)
  else if 12 ≤ (m.log2 : Int) + e then f.round mode sat (.fin false 1 (if neg then -5000 else 5000))
  else
    -- x in units of 2^−256; no format has finer bits
    let x := signedAt neg m e (-(fixBits : Int))
    let i := x / fixOne
    let fr := (x % fixOne).toNat
    if fr = 0 then f.round mode sat (.fin false 1 i)
    else
      let s := expSum (fr * ln2 / fixOne) 80 0 fixOne
      roundBetween f mode sat false (s - fixErr) (s + fixErr) (i - fixBits)

/-- log2 x for a positive finite x (R149). -/
def log2Bits (f : Fmt) (mode : Mode) (sat : Bool) (m : Nat) (e : Int) : Nat :=
  let l := m.log2
  let k : Int := (l : Int) + e
  if m = 2 ^ l then f.round mode sat (Num.ofInt k)
  else
    -- u = m ÷ 2^l lies between 1 and 2; z = (u − 1) ÷ (u + 1)
    let z := (m - 2 ^ l) * fixOne / (m + 2 ^ l)
    let g := twoAtanh z * fixOne / ln2
    let v : Int := k * fixOne + g
    if 0 ≤ v then roundBetween f mode sat false (v.toNat - fixErr) (v.toNat + fixErr) (-(fixBits : Int))
    else roundBetween f mode sat true ((-v).toNat - fixErr) ((-v).toNat + fixErr) (-(fixBits : Int))

/-- A function of `vfn`: exp2, log2, rcp, rsqrt, sqrt (R149). -/
def vfnBits (fn : Nat) (f : Fmt) (mode : Mode) (sat : Bool) (x : Num) : Nat :=
  match x with
  | .nan => f.nan
  | .inf neg =>
    match fn with
    | 0 => if neg then f.round mode sat (.fin false 0 0) else f.round mode sat (.inf false)
    | 1 => if neg then f.nan else f.round mode sat (.inf false)
    | 2 => f.round mode sat (.fin neg 0 0)
    | 3 => if neg then f.nan else f.round mode sat (.fin false 0 0)
    | _ => if neg then f.nan else f.round mode sat (.inf false)
  | .fin neg m e =>
    match fn with
    | 0 => exp2Bits f mode sat neg m e
    | 1 => if m = 0 then f.round mode sat (.inf true) else if neg then f.nan else log2Bits f mode sat m e
    | 2 => if m = 0 then f.round mode sat (.inf neg) else f.round mode sat (rcpNum neg m e)
    | 3 => if m = 0 then f.round mode sat (.inf neg) else if neg then f.nan else f.round mode sat (rsqrtNum m e)
    | _ => if m = 0 then f.round mode sat (.fin neg 0 0) else if neg then f.nan else f.round mode sat (sqrtNum m e)

/-! BLK4. -/

/-- The magnitude of a code's digit in types 01, 10 and 11, and whether the code is reserved (R69). -/
def digitMag (ty c : Nat) : Nat :=
  let t := match ty with
    | 1 => [0, 1, 2, 3, 4, 6, 8, 12]
    | 2 => [0, 1, 2, 4, 8, 0, 0, 0]
    | _ => [0, 1, 2, 3, 4, 6, 9, 15]
  t.getD (c % 8) 0

/-- `Digit(c, TYPE)` (R69). -/
def digit (ty c : Nat) : Int :=
  if ty = 0 then (if c < 8 then (c : Int) else (c : Int) - 16)
  else if c < 8 then (digitMag ty c : Int) else -(digitMag ty c : Int)

/-- A reserved code of type 10 (R69). -/
def reservedCode (ty c : Nat) : Bool := ty == 2 && decide (5 ≤ c % 8)

/-- The value of a BLK4 element of scale byte `sc`; a NaN block is NaN, a zero element +0 (R64, R69). -/
def blkValue (sc c : Nat) : Num :=
  if sc % 64 = 63 then .nan
  else
    let d := digit (sc / 64) c
    .fin (decide (d < 0)) d.natAbs ((sc % 64 : Nat) - 31)

/-- The points of a type's digit set from smallest to largest, with their codes; zero has code 0 (R65). -/
def blkPoints (ty : Nat) : List (Int × Nat) :=
  if ty = 0 then (List.range 16).map (fun k : Nat => ((k : Int) - 8, (k + 8) % 16))
  else
    let n := if ty = 2 then 5 else 8
    ((List.range (n - 1)).map (fun k => (-(digitMag ty (n - 1 - k) : Int), 8 + (n - 1 - k)))) ++
      (List.range n).map (fun k => ((digitMag ty k : Int), k))

/-- A point of the extended set: its value, its parity, and its code where it is a digit. -/
structure BlkPoint where
  p : Int
  odd : Bool
  code : Option Nat
  deriving DecidableEq, Repr

/-- The code's parity (R65). -/
def codeOdd (c : Nat) : Bool := c % 2 == 1

/-- The greatest point of the extended set that is at most `i`, and the point after it (R65). -/
def blkAround (ty : Nat) (i : Int) : BlkPoint × BlkPoint :=
  let ps := blkPoints ty
  let lo := ps.headD (0, 0)
  let hi := ps.getLastD (0, 0)
  let gLo := (ps.getD 1 (0, 0)).1 - lo.1
  let gHi := hi.1 - (ps.getD (ps.length - 2) (0, 0)).1
  let above := fun k : Int => ({ p := hi.1 + k * gHi, odd := (codeOdd hi.2) != (k % 2 == 1), code := if k = 0 then some hi.2 else none } : BlkPoint)
  let below := fun k : Int => ({ p := lo.1 - k * gLo, odd := (codeOdd lo.2) != (k % 2 == 1), code := if k = 0 then some lo.2 else none } : BlkPoint)
  if hi.1 ≤ i then
    let k := (i - hi.1) / gHi
    (above k, above (k + 1))
  else if i < lo.1 then
    let k := (lo.1 - i + gLo - 1) / gLo
    (below k, below (k - 1))
  else
    let n := (ps.filter (fun q => decide (q.1 ≤ i))).length
    let a := ps.getD (n - 1) (0, 0)
    let b := ps.getD n (0, 0)
    ({ p := a.1, odd := codeOdd a.2, code := some a.2 }, { p := b.1, odd := codeOdd b.2, code := some b.2 })

/-- The point that ±m × 2^e ÷ 2^(E−31) rounds to (R65). -/
def blkRound (ty : Nat) (mode : Mode) (neg : Bool) (m : Nat) (e : Int) (ex : Nat) : BlkPoint :=
  let sh := e - ((ex : Int) - 31)
  let den : Nat := if 0 ≤ sh then 1 else 2 ^ (-sh).toNat
  let n : Int := signedAt neg m (if 0 ≤ sh then sh else 0) 0
  let r := blkAround ty (n / den)
  let a := r.1
  let b := r.2
  if n = a.p * den then a
  else
    match mode with
    | .rup => b
    | .rdn => a
    | .rtz => if neg then b else a
    | .rne =>
      let d := 2 * n - (a.p + b.p) * den
      if d < 0 then a else if 0 < d then b else if a.odd then b else a

/-- The code that a value takes at scale exponent `ex`; none where it does not land (R65). -/
def blkCode (ty : Nat) (mode : Mode) (ex : Nat) : Num → Option Nat
  | .nan => none
  | .inf _ => none
  | .fin neg m e => if m = 0 then some 0 else (blkRound ty mode neg m e ex).code

/-- The code of a value rounded at exponent 62 and clamped (R65). -/
def blkClamp (ty : Nat) (mode : Mode) : Num → Nat
  | .nan => 0
  | .inf neg => if neg then ((blkPoints ty).headD (0, 0)).2 else ((blkPoints ty).getLastD (0, 0)).2
  | .fin neg m e =>
    match blkCode ty mode 62 (.fin neg m e) with
    | some c => c
    | none => if neg then ((blkPoints ty).headD (0, 0)).2 else ((blkPoints ty).getLastD (0, 0)).2

def Num.isZero : Num → Bool
  | .fin _ m _ => m == 0
  | _ => false

/-- The smallest exponent from `ex` on, of `n` tried, at which every value lands. -/
def blkSearch (ty : Nat) (mode : Mode) (vs : List Num) : Nat → Nat → Option Nat
  | 0, _ => none
  | n + 1, ex => if vs.all (fun v => (blkCode ty mode ex v).isSome) then some ex else blkSearch ty mode vs n (ex + 1)

/-- A block of values converted to BLK4: the codes and the scale byte (R65). -/
def blkOf (ty : Nat) (mode : Mode) (sat : Bool) (vs : List Num) : List Nat × Nat :=
  let zeros := vs.map (fun _ => 0)
  if vs.any Num.isNan then (zeros, ty * 64 + 63)
  else if vs.all Num.isZero then (zeros, ty * 64)
  else match blkSearch ty mode vs 63 0 with
    | some ex => (vs.map (fun v => (blkCode ty mode ex v).getD 0), ty * 64 + ex)
    | none =>
      if sat then (vs.map (blkClamp ty mode), ty * 64 + 62) else (zeros, ty * 64 + 63)

end Sys2Proof.Machine
end

