-- ==== Sys2Proof/Machine/Template.lean ====
section
/-! DEFINITION. Copy templates, and what a transfer still has to send (spec/11_copy.md R230 to R232, R235). -/

namespace Sys2Proof.Machine

/-! Templates. -/

/-- A template record (R230). -/
structure Tmpl where
  sa : Nat
  da : Nat
  e0 : Nat
  e1 : Nat
  e2 : Nat
  ss1 : Int
  ss2 : Int
  ds1 : Int
  ds2 : Int
  mcast : Nat
  rt : Nat
  rop : Nat
  dcap : Nat
  scap : Nat
  esz : Nat
  dsp : Nat
  ssp : Nat
  sdec : Nat
  sadr : Nat
  sbar : Nat
  sigk : Nat
  deriving DecidableEq, Repr

/-- A signed 32-bit field. -/
def strideOf (w : Word) (lo : Nat) : Int := (w.extractLsb' lo 32).toInt

/-- The fields of a template's eight words (R230). -/
def Tmpl.of (ws : List Word) : Tmpl :=
  let w := fun i => ws.getD i 0
  { sa := bitsOf (w 0) 0 48, da := bitsOf (w 1) 0 48
    e0 := bitsOf (w 2) 0 24, e1 := bitsOf (w 2) 24 20, e2 := bitsOf (w 2) 44 20
    ss1 := strideOf (w 3) 0, ss2 := strideOf (w 3) 32, ds1 := strideOf (w 4) 0, ds2 := strideOf (w 4) 32
    mcast := bitsOf (w 5) 24 16, rt := bitsOf (w 5) 20 4, rop := bitsOf (w 5) 18 2
    dcap := bitsOf (w 5) 14 4, scap := bitsOf (w 5) 10 4, esz := bitsOf (w 5) 6 4
    dsp := bitsOf (w 5) 3 3, ssp := bitsOf (w 5) 0 3
    sdec := bitsOf (w 6) 48 16, sadr := bitsOf (w 6) 0 48
    sbar := bitsOf (w 7) 2 2, sigk := bitsOf (w 7) 0 2 }

/-- Reserved fields are zero and the rules of R230 and R231 hold. `RT` is tested where `ROP` is 1 alone (DESIGN CHOICE, log entry
71). -/
def templateOk (ws : List Word) : Bool :=
  let w := fun i => ws.getD i 0
  let t := Tmpl.of ws
  bitsOf (w 0) 48 16 == 0 && bitsOf (w 1) 48 16 == 0 && bitsOf (w 5) 40 24 == 0 && bitsOf (w 7) 4 60 == 0 &&
  decide (t.esz ≤ 8) && decide (t.ssp ≤ 4) && decide (t.dsp ≤ 3) && !(t.mcast != 0 && t.dsp != 0) &&
  decide (t.rop ≤ 1) &&
  (t.rop == 0 || (t.dsp == 0 && (t.rt == 2 || t.rt == 6 || t.rt == 7 || t.rt == 8) && 2 ^ t.esz * 8 == codeWidth t.rt)) &&
  !((t.sigk == 1 || t.sigk == 2) && t.sadr % 8 != 0)

/-- Bytes of an element. -/
def Tmpl.n (t : Tmpl) : Nat := 2 ^ t.esz
/-- The number of elements. -/
def Tmpl.count (t : Tmpl) : Nat := t.e0 * t.e1 * t.e2
/-- The coordinates of an element, i0 running fastest. -/
def Tmpl.i0 (t : Tmpl) (e : Nat) : Nat := e % t.e0
def Tmpl.i1 (t : Tmpl) (e : Nat) : Nat := e / t.e0 % t.e1
def Tmpl.i2 (t : Tmpl) (e : Nat) : Nat := e / (t.e0 * t.e1)
/-- The addresses of an element (R232). -/
def Tmpl.src (t : Tmpl) (off : BitVec 48) (e : Nat) : Int :=
  (t.sa + (off.toNat + t.i0 e) * t.n : Nat) + t.i1 e * t.ss1 + t.i2 e * t.ss2
def Tmpl.dst (t : Tmpl) (off : BitVec 48) (e : Nat) : Int :=
  (t.da + (off.toNat + t.i0 e) * t.n : Nat) + t.i1 e * t.ds1 + t.i2 e * t.ds2

def Transfer.tm (t : Transfer) : Tmpl := Tmpl.of t.tmpl
def Transfer.cap (t : Transfer) (i : Nat) : CapReg := t.caps.get {} i

/-! What a transfer still has to send. -/

/-- A receiver gets the elements from its first up to the one at which it, or the source, was denied. -/
def Transfer.endFor (t : Transfer) (r : Receiver) : Nat :=
  min (r.dropAt.getD t.tm.count) (t.srcDeny.getD t.tm.count)

/-- An element is still to be sent. -/
def Transfer.unsent (t : Transfer) (e : Nat) : Bool :=
  !t.landed.get false e && t.receivers.any (fun r => decide (r.start ≤ e ∧ e < t.endFor r))

/-- Something remains to be sent to a receiver still served (R235). -/
def Transfer.remains (t : Transfer) : Bool := (List.range t.tm.count).any t.unsent

/-- The elements before this one have been judged (R235): an element lands only after every open one up to it has been
judged. -/
def Transfer.judged (t : Transfer) : Nat := t.landed.foldl (fun m e => max m (e.1 + 1)) 0

/-- An element judged has yet to land: an access begun. -/
def Transfer.gaps (t : Transfer) : Bool := (List.range t.judged).any t.unsent

/-- A receiver has yet to get an element, in this round or, after a denial, in a later one. -/
def Transfer.owes (t : Transfer) (r : Receiver) (e : Nat) : Bool :=
  decide (r.start ≤ e) && !(t.landed.get false e && decide (e < t.endFor r))

/-- A receiver that lacks elements. -/
def Transfer.lacks (t : Transfer) (r : Receiver) : Bool := decide (r.start < t.tm.count ∧ t.endFor r < t.tm.count)

/-- The transfer has landed: every receiver holds every element. -/
def Transfer.hasLanded (t : Transfer) : Bool := t.started && !t.remains && !t.receivers.any t.lacks

end Sys2Proof.Machine
end

