-- ==== Sys2Proof/Machine/Context.lean ====
section
/-! DEFINITION. The context window: creating, loading, invalidating, binding and ending a context, its supervisor
requests and its keys (spec/16_context.md R320 to R329, R334; spec/19_host.md R385, R394). -/

namespace Sys2Proof.Machine

/-! Commands. -/

/-- A command the spec gives no row for, or that comes by another party's path (R323, R325). -/
def State.ctxError (s : State) (n : Nat) (e : BitVec 8) : State := s.modCtx n (fun c => { c with err := e })

/-- Who may issue CREATE, CODELOAD and INVAL: the host for world 0, else the world's guest driver (R325). -/
def Context.drives (c : Context) : Via → Bool
  | .host => c.world == 0
  | .guest w => w != 0 && c.world == w
/-- A guest window reaches only its own world's contexts (spec/19_host.md R385). -/
def Context.reached (c : Context) : Via → Bool
  | .host => true
  | .guest w => w != 0 && c.world == w

/-- A command of the context window, by the path it comes. -/
def State.command (s : State) (via : Via) (n : Nat) (allowed : Bool) (f : State → State) : State :=
  if !(s.ctxAt n).reached via then s
  else if allowed then f s else s.ctxError n 2

/-! CREATE. -/

/-- Byte ranges of HBM that a context takes: its partition, version region and save area (R321, R336). -/
def Context.partition (c : Context) : Nat × Nat := (c.partLo, c.partHi)
def Context.regions (c : Context) : List (Nat × Nat) :=
  let save := bitsOf (c.word 6) 0 48
  let vreg := bitsOf (c.word 7) 0 48
  [(vreg, vreg + c.versionBytes), (save, save + bitsOf (c.word 6) 48 16 * 0x3010000 + 0x1000)]
def Context.extents (c : Context) : List (Nat × Nat) := c.partition :: c.regions

/-- Two ranges share a byte. -/
def meets (a b : Nat × Nat) : Bool := decide (a.1 < b.2 ∧ b.1 < a.2 ∧ a.1 < a.2 ∧ b.1 < b.2)

/-- Every address of the descriptor meets its alignment (R321, R322). -/
def Context.aligned (c : Context) : Bool :=
  let z := fun (i n : Nat) => bitsOf (c.word i) 0 n == 0
  z 2 2 && z 3 4 && z 4 6 && z 5 4 && z 6 16 && bitsOf (c.word 7) 0 21 == 0 && z 11 3

/-- The descriptor is valid (R322). -/
def State.ctxValid (s : State) (n : Nat) : Bool :=
  let c := s.ctxAt n
  let others := (s.contexts.filter (fun e => e.1 != n && e.2.st.exists)).map (fun e => e.2)
  c.aligned && decide (bitsOf (c.word 10) 8 8 + bitsOf (c.word 10) 0 8 ≤ 128) &&
  c.extents.all (fun r => decide (r.2 ≤ Config.hbmBytes)) &&
  others.all (fun o => c.extents.all (fun a => o.extents.all (fun b => !meets a b))) &&
  (c :: others).all (fun o => c.regions.all (fun a => !meets a o.partition)) &&
  (c.world == 0 || (s.worldKeys.find? c.world.toNat).isSome)

/-- CREATE (R326): what an earlier context of the number left is gone, and its counters are 0 where they stand (R342). -/
def State.createCtx (s : State) (n : Nat) : State :=
  let c := s.ctxAt n
  if c.st.exists then s.ctxError n 2
  else if !s.ctxValid n then s.ctxError n 1
  else
    let s := s.commitBytes ((List.range 16).flatMap (fun i => match c.counterAt i with
      | some a => place (addrs a 8) (wordBytes 0)
      | none => []))
    s.setCtx n { desc := c.desc, st := .created, fcause := c.fcause, inv := c.inv, len := c.len, keyq := c.keyq, born := s.commits }

/-- `CTXCTL` CREATE. -/
def execCtxctlCreate (via : Via) (n : Nat) (s : State) : Res :=
  .next (s.command via n ((s.ctxAt n).drives via) (fun s => s.createCtx n))

/-! CODELOAD and INVAL (R324). -/

/-- The range that `CTXINV` and `CTXLEN` name. -/
def Context.named (c : Context) : Inval := { kind := bitsOf c.inv 61 3, addr := bitsOf c.inv 0 48, len := c.len.toNat }

/-- CODELOAD starts; refused at the last `CGEN`. -/
def State.startLoad (s : State) (n : Nat) : State :=
  let c := s.ctxAt n
  if !c.st.alive || c.pendingLoad.isSome then s.ctxError n 2
  else if c.cgen = BitVec.allOnes 32 then s.ctxError n 4
  else s.modCtx n (fun c => { c with pendingLoad := some c.named })

/-- `CTXCTL` CODELOAD. -/
def execCtxctlCodeload (via : Via) (n : Nat) (s : State) : Res :=
  .next (s.command via n ((s.ctxAt n).drives via) (fun s => s.startLoad n))

/-- A prefetch of the context is outstanding: a branch-target register is PREPARING (spec/05_strand.md R92). -/
def State.prefetching (s : State) (n : Nat) : Bool :=
  s.cores.any (fun e => (match e.2.group.bind (fun g => s.groups.find? g) with
    | some x => x.ctx == n
    | none => false) && e.2.strands.any (fun t => t.2.b.any (fun b => b.2.st == .preparing)))

/-- Bits as bytes, the first bit lowest. -/
def packBits (bs : List Bool) : List Byte :=
  let v := bs.foldr (fun b n => 2 * n + b.toNat) 0
  bytesLE ((bs.length + 7) / 8) v

/-- The bytes of a code range and its line marks, as the load finds them; a byte not mapped counts as 0. -/
def State.codeBytes (s : State) (n a len : Nat) : List Byte :=
  (addrs a len).map (fun (va : Nat) => match s.iLeaf n (va : Int) (fun _ => true) with
    | some l => s.rawByte (l.1.pa + va % l.1.size)
    | none => 0)
def State.codeMarks (s : State) (n a len : Nat) : List Bool :=
  (List.range ((a % 32 + len + 31) / 32)).map (fun i =>
    let va := (a / 32 + i) * 32
    match s.iLeaf n (va : Int) (fun _ => true) with
    | some l => s.dataMarked n none (l.1.pa + va % l.1.size)
    | none => false)

/-- `CMEAS` takes in a code load (spec/19_host.md R394); the widths of its parts are the model's (log entry 30). -/
def State.measure (s : State) (n : Nat) (r : Inval) : BitVec 512 :=
  let c := s.ctxAt n
  BitVec.ofNat 512 (natLE (shake256 (bytesLE 64 c.cmeas.toNat ++ bytesLE 8 r.addr ++ bytesLE 8 r.len ++
    s.codeBytes n r.addr r.len ++ packBits (s.codeMarks n r.addr r.len)) 64))

/-- A range's entries are dropped: from now on it is read as committed now. -/
def Context.drop (c : Context) (kind lo hi now : Nat) : Context :=
  if c.cached.isNone then c else { c with invals := c.invals ++ [{ kind := kind, lo := lo, hi := hi, point := now }] }
def Context.refreshWord (c : Context) (i : Nat) : Context :=
  if c.cached.isNone then c else { c with held := c.held.set 0 i (c.word i) }

/-- A code load completes once no prefetch is outstanding: the range is read afresh, `CGEN` rises (R324), the
kernel table is looked at again (spec/14_kernel.md R277). -/
def execCodeloadComplete (n : Nat) (s : State) : Res :=
  let c := s.ctxAt n
  match c.pendingLoad with
  | none => .next s
  | some r =>
    if !c.st.alive then .next (s.modCtx n (fun c => { c with pendingLoad := none }))
    else if s.prefetching n then .next s
    else
      let s := s.modCtx n (fun c =>
        let c := (((c.drop 2 r.addr (r.addr + r.len) s.commits).drop 5 r.addr (r.addr + r.len) s.commits).refreshWord 11).refreshWord 5
        { c with pendingLoad := none, cgen := c.cgen + 1, st := if c.st = .created then .loaded else c.st })
      let s := s.modCtx n (fun c => { c with cmeas := s.measure n r })
      .next (s.loadKernels n)

/-- INVAL starts; kinds 5 to 7 are ignored (R323). -/
def State.startInval (s : State) (n : Nat) : State :=
  let c := s.ctxAt n
  if !c.st.alive || c.pendingInval.isSome then s.ctxError n 2
  else if 4 < c.named.kind then s
  else s.modCtx n (fun c => { c with pendingInval := some c.named })

/-- `CTXCTL` INVAL. -/
def execCtxctlInval (via : Via) (n : Nat) (s : State) : Res :=
  .next (s.command via n ((s.ctxAt n).drives via) (fun s => s.startInval n))

/-- A transfer of the context is under way with a template it has read. -/
def State.templateUsed (s : State) (n : Nat) : Bool :=
  s.cores.any (fun e => e.2.channels.any (fun k => k.2.st == .busy && k.2.queue.any (fun t => t.started &&
    (match s.groups.find? t.grp with | some x => x.ctx == n | none => false))))

/-- A transfer of the context has judged an H element that has not landed: an access begun (spec/11_copy.md R235). -/
def State.copyOpen (s : State) (n : Nat) : Bool :=
  s.cores.any (fun e => e.2.channels.any (fun k => k.2.queue.any (fun t => t.started && (t.tm.ssp == 2 || t.tm.dsp == 2) && t.gaps &&
    (match s.groups.find? t.grp with | some x => x.ctx == n | none => false))))

/-- An invalidation completes once no entry of its range is in use by an access begun before it (R324). -/
def execInvalComplete (n : Nat) (s : State) : Res :=
  let c := s.ctxAt n
  match c.pendingInval with
  | none => .next s
  | some r =>
    if !c.st.alive then .next (s.modCtx n (fun c => { c with pendingInval := none }))
    else if (r.kind = 3 && s.templateUsed n) || (decide (r.kind ≤ 1) && s.copyOpen n) then .next s
    else
      let now := s.commits
      let f : Context → Context := match r.kind with
        | 0 => fun c => c.drop 1 0 (2 ^ 48) now
        | 1 => fun c => c.drop 1 r.addr (r.addr + r.len) now
        | 2 => fun c => c.drop 2 r.addr (r.addr + r.len) now
        | 3 => fun c => (c.drop 3 0 1 now).refreshWord 4
        | _ => fun c => (c.drop 4 0 1 now).refreshWord 3
      .next (s.modCtx n (fun c => { f c with pendingInval := none }))

/-! END and BIND. -/

/-- The queues of a context lose their keys. -/
def State.eraseKeys (s : State) (n : Nat) : State :=
  (List.range 1024).foldl (fun s q => if (s.queueAt q).ctx = n then
    s.modQueue q (fun x => { x with key := none, keyFresh := false }) else s) s

/-- A group of the context exists: placed, saved, or still to be placed for a launch released. -/
def State.hasGroups (s : State) (n : Nat) : Bool :=
  s.groups.any (fun e => e.2.ctx == n && e.2.st != .retired && e.2.st != .ended) ||
  s.launches.any (fun e => e.2.ctx == n && e.2.st.live)

/-- END (R326): with a group, first as fatal KILLED, or with the lower code of its clock (R327). The world's key goes with
its last context. -/
def State.endCtx (s : State) (n : Nat) : State :=
  let c := s.ctxAt n
  if !c.st.exists then s.ctxError n 2
  else
    let s := if c.st.alive && (s.hasGroups n || c.dying.isSome) then s.fatalNow n (c.worst 0x84) else s
    let s := (List.range 1024).foldl (fun s q => if (s.queueAt q).ctx = n then s.disableQueue q else s) s
    let s := (s.eraseKeys n).modCtx n (fun c => { c with
      st := .retired, pendingLoad := none, pendingInval := none, requests := [], kernels := [], deficit := 0 })
    if s.contexts.any (fun e => e.2.world == c.world && e.2.st.exists) then s
    else { s with worldKeys := s.worldKeys.erase c.world.toNat }

/-- `CTXCTL` END. -/
def execCtxctlEnd (via : Via) (n : Nat) (s : State) : Res :=
  .next (s.command via n true (fun s => s.endCtx n))

/-- BIND (R325). -/
def State.bindCtx (s : State) (n : Nat) (w : BitVec 8) : State :=
  let c := s.ctxAt n
  if c.st.exists then s.ctxError n 2
  else s.setCtx n { c with desc := ([0, 1, 2, 3, 4, 5, 11].foldl (fun t i => Tbl.set 0 t i 0) c.desc).set 0 0 (w ++ 0#56) }

/-- `CTXCTL` BIND: the host driver's alone. -/
def execCtxctlBind (via : Via) (n : Nat) (world : BitVec 8) (s : State) : Res :=
  .next (s.command via n (via == .host) (fun s => s.bindCtx n world))

/-! Supervisor requests (R334). -/

/-- The request that `CTXREQ` and `CTXREQV` show: the oldest not answered and not read. Requests stay listed until they are
answered (spec/19_host.md R395): once all of them have been read, they are shown again from the oldest on (log entry 68). -/
def Context.shown (c : Context) : Option SvRequest :=
  match c.requests.find? (fun r => !r.popped && r.response.isNone) with
  | some r => some r
  | none => c.requests.find? (fun r => r.response.isNone)

/-- The request shown is read: it comes after the others that wait. -/
def Context.pop (c : Context) (r : SvRequest) : Context :=
  { c with requests := c.requests.map (fun q => { q with popped := q.tag == r.tag || (q.popped && !r.popped) }) }

/-- Reading `CTXREQ` pops the request shown (R323). -/
def execCtxreqRead (via : Via) (n : Nat) (s : State) : Res :=
  let c := s.ctxAt n
  if !c.drives via then .next s
  else match c.shown with
    | none => .next s
    | some r => .next (s.modCtx n (fun c => c.pop r))

/-- A write of `CTXRSP`: the response is held with its request until the strand takes it (R334). -/
def State.respond (s : State) (n : Nat) (v : Word) : State :=
  s.modCtx n (fun c => { c with requests := c.requests.map (fun q =>
    if q.tag = v.extractLsb' 0 16 ∧ q.response.isNone then { q with response := some (v.extractLsb' 16 48) } else q) })

/-- `CTXRSP`. -/
def execCtxrspWrite (via : Via) (n : Nat) (v : BitVec 64) (s : State) : Res :=
  .next (if (s.ctxAt n).drives via then s.respond n v else s)

/-! Keys (R323, R325). -/

/-- `KEYW`: the world's guest driver installs its key while the world has none; otherwise `ERR` := KEY (log entry 29). -/
def execKeywWrite (via : Via) (n : Nat) (key : BitVec 256) (s : State) : Res :=
  let c := s.ctxAt n
  if c.world = 0 ∨ !c.drives via then .next s
  else if (s.worldKeys.find? c.world.toNat).isSome then .next (s.ctxError n 3)
  else .next { s with worldKeys := s.worldKeys.put c.world.toNat key }

/-- `KEYQN`: `KEYQ` becomes the key of a queue of the context's world (log entry 29). -/
def State.installKey (s : State) (n : Nat) (v : Word) : State :=
  let c := s.ctxAt n
  let q := bitsOf v 0 10
  if (s.queueAt q).world = c.world then s.modQueue q (fun x => { x with key := some c.keyq, keyFresh := true })
  else s.ctxError n 3
def execKeyqnWrite (via : Via) (n : Nat) (v : BitVec 64) (s : State) : Res :=
  let c := s.ctxAt n
  .next (if c.world = 0 ∨ !c.drives via then s else s.installKey n v)

end Sys2Proof.Machine
end

