-- ==== Sys2Proof/Machine/Flags.lean ====
section
/-! DEFINITION. What compares test and predicates compute (spec/06_scalar.md R125, R126). The machine has
no arithmetic flags (R112). -/

namespace Sys2Proof.Machine

/-- The conditions eq, ne, lt, le (R125). -/
def cmpSigned (c : BitVec 2) (a b : Word) : Bool :=
  if c = 0 then a == b else if c = 1 then a != b else if c = 2 then a.slt b else a.sle b

/-- The conditions ltu, leu, tst, tnz (R125). -/
def cmpUnsigned (c : BitVec 2) (a b : Word) : Bool :=
  if c = 0 then a.ult b else if c = 1 then a.ule b else if c = 2 then (a &&& b) == 0 else (a &&& b) != 0

/-- A compare's predicate: the poison of either source passes on (R125). -/
def cmpResult (f : Word → Word → Bool) (a b : Reg) : PBit := { v := f a.v b.v, poison := a.poison || b.poison }

/-- A predicate operation (R126). -/
def predOp (f : Bool → Bool → Bool) (a b : PBit) : PBit := { v := f a.v b.v, poison := a.poison || b.poison }

/-- Whether a predicate has the stated sense: 0 asks for 1, 1 asks for 0 (spec/05_strand.md R100). -/
def sense (p : PBit) (e : BitVec 1) : Bool := if e = 0 then p.v else !p.v

end Sys2Proof.Machine
end

