-- ==== Sys2Proof/Machine/Frond.lean ====
section
/-! DEFINITION. Rachis queues, the five frond queue instructions, the feed and the rebalancing step
(spec/14_kernel.md R285 to R297). -/

namespace Sys2Proof.Machine

/-! Rachis queues. -/

/-- A queue of a frond. -/
def Frond.queue (f : Frond) (q : Nat) : Option Rachis := f.queues[q]?
def Frond.setQueue (f : Frond) (q : Nat) (r : Rachis) : Frond := { f with queues := f.queues.set q r }

/-- The occupancy (R285). -/
def Rachis.occ (r : Rachis) : Nat := r.items.length
/-- A queue is DRAINED (R286). -/
def Rachis.drained (r : Rachis) : Bool := r.fin == some r.head
/-- Item `HEAD` can be taken in clock `now`: it entered in an earlier clock and no other take has been served in
this one (R285). -/
def Rachis.served (r : Rachis) (now : Nat) : Option (List Word) :=
  match r.items.find? r.head with
  | none => none
  | some i => if r.entered.get 0 r.head < now && r.takenAt != some now then some i else none
/-- Take item `HEAD`. -/
def Rachis.take (r : Rachis) (now : Nat) : Rachis :=
  { r with head := r.head + 1, items := r.items.erase r.head, entered := r.entered.erase r.head, spoilt := r.spoilt.erase r.head,
           takenAt := some now }
/-- Item `s` enters. -/
def Rachis.enter (r : Rachis) (s : Nat) (i : List Word) (now : Nat) : Rachis :=
  { r with items := r.items.put s i, entered := r.entered.put s now, spoilt := r.spoilt.erase s }

/-- Lines of a queue's storage that an uncorrectable error or a failed tag has met: the items there are zeros, with poison
(spec/09_page.md R197). -/
def Rachis.spoil (r : Rachis) (hit : Nat → Bool) : Rachis :=
  { r with
    items := r.items.map (fun e => (e.1, if hit e.1 then List.replicate 8 0 else e.2))
    spoilt := r.items.foldl (fun t e => if hit e.1 then t.set false e.1 true else t) r.spoilt }
/-- The slot of item `s` is full. -/
def Rachis.full (r : Rachis) (s : Nat) : Bool := (r.items.find? s).isSome

/-- The frond of a launch. -/
def State.frondOf (s : State) (l : Nat) : Option Frond := (s.launches.find? l).bind (fun x => x.frond)
def State.modFrond (s : State) (l : Nat) (f : Frond → Frond) : State :=
  s.modLaunch l (fun x => { x with frond := x.frond.map f })

/-- The frond, the pinna slot and the launch of the moving strand's group. -/
def State.myFrond (s : State) : Option (Nat × Frond × PinnaSlot) :=
  match s.myGroup with
  | none => none
  | some (_, x) => match s.frondOf x.launch, x.pinna with
    | some f, some p => some (x.launch, f, p)
    | _, _ => none

/-- The groups of a launch at a pinna that have neither retired nor ended: n(p) (R288). -/
def State.pinnaGroups (s : State) (l p : Nat) : List (Nat × Group) :=
  s.groups.filter (fun e => e.2.launch == l && e.2.st != .retired && e.2.st != .ended &&
    (match e.2.pinna with | some q => q.pinna == p | none => false))

/-! Instructions. -/

/-- Whether a queue must be the pinna's input or one of its outputs. -/
inductive QEnd
  | input | output
  deriving DecidableEq, Repr

/-- The checks of R292 after the poison checks: the launch, queue number, queue and address. -/
def State.queueCheck (s : State) (xa : Word) (e : QEnd) : Option (Nat × Nat × Rachis × Nat) :=
  match s.myFrond with
  | none => none
  | some (l, f, p) =>
    let lead := s.strand == 0 && (match s.myGroup with | some (_, x) => x.cores.headD 0 == s.core | none => false)
    let q := bitsOf xa 0 3
    match f.queue q with
    | none => none
    | some r =>
      let mine := match e with
        | .input => decide (r.cons = p.pinna)
        | .output => decide (r.prod = p.pinna)
      if lead && bitsOf xa 3 3 == 0 && mine then some (l, q, r, bitsOf xa 6 58 * 64) else none

/-- A marked group moves: it ends as `gexit` ends it, at the end of the clock (R289). -/
def State.moveGroup (s : State) (g : Nat) : State :=
  s.modGroup g (fun y => { y with leave := some .exits, pinna := y.pinna.map (fun p => { p with moving := true }) })

/-- The moving strand's group carries a mark. -/
def State.marked (s : State) : Bool :=
  match s.myFrond with
  | some (_, _, p) => p.mark.isSome
  | none => false

/-- A take from the input queue (R293), whose line takes the item's mark (spec/11_copy.md R236); `wait` is what `qpop` or `qtry` does where item `HEAD` is not there. -/
def takeItem (d : BitVec 6) (xa : Word) (s : State) (wait : Eff) : Eff :=
  match s.queueCheck xa .input with
  | none => .trap 0x10 0 0
  | some (l, q, r, a) =>
    if s.marked then .keep (s.moveGroup s.grp)
    else if r.drained then scalarResult d { v := BitVec.allOnes 64 } s
    else match r.served s.pkg.clocks with
      | none => wait
      | some item => onS a 64 s (fun as =>
          let n := r.head
          let s := s.modFrond l (fun f => f.setQueue q (r.take s.pkg.clocks))
          let s := (s.sWrite s.core as (wordsBytes item) (r.spoilt.get false n)).beginPhase
          let s := s.modGroup s.grp (fun y => { y with pinna := y.pinna.map (fun p => { p with taken := some n }) })
          scalarResult d { v := BitVec.ofNat 64 n } s)

/-- `qpop` (R293). -/
def execQpop (pre : Pre) (d a : BitVec 6) (s : State) : Res :=
  issue (.qpop pre d a) s (fun s =>
    let x := s.me.rd a
    unlessPoison x.poison (takeItem d x.v s (.wait .rachis)))

/-- `qtry` (R293). -/
def execQtry (pre : Pre) (d a : BitVec 6) (s : State) : Res :=
  issue (.qtry pre d a) s (fun s =>
    let x := s.me.rd a
    unlessPoison x.poison (takeItem d x.v s (scalarResult d { v := BitVec.allOnes 64 - 1 } s)))

/-- The last part of a `qpush` (R294): once its boundary has completed it waits for room and enters its item. -/
def pushItem (l q a n : Nat) (s : State) : Eff :=
  match (s.frondOf l).bind (fun f => f.queue q) with
  | none => .trap 0x10 0 0
  | some r =>
    if r.head + r.depth ≤ n then .hold (s.modMe (fun t => { t with micro := { stage := 2 } })) .rachis
    else if n < r.head || r.full n then .contain 0x10
    else onS a 64 s (fun as =>
      let b := s.sRead s.core as
      if b.2.1 then .containAt b.2.2 0x40
      else .done (b.2.2.modFrond l (fun f => f.setQueue q (r.enter n (bytesWords 8 b.1) s.pkg.clocks))))

/-- `qpush` (R294): stage 1 waits for its boundary, stage 2 for room. -/
def execQpush (pre : Pre) (b a : BitVec 6) (s : State) : Res :=
  issue (.qpush pre b a) s (fun s =>
    let x := s.me.rd a
    let i := s.me.rd b
    unlessPoison (x.poison || i.poison) (
      match s.queueCheck x.v .output with
      | none => .trap 0x10 0 0
      | some (l, q, r, at') =>
        let n := i.v.toNat
        match s.me.micro.stage with
        | 1 => if s.boundaryDone s.grp s.me.micro.id then pushItem l q at' n s else .keep s
        | 2 => pushItem l q at' n s
        | _ =>
          let past := match r.fin with | some e => decide (e ≤ n) | none => false
          if 2 ^ 32 ≤ n || n < r.head || r.full n || past then .trap 0x10 0 0
          else onS at' 64 s (fun as =>
            let k := s.sRead s.core as
            if k.2.1 then .containAt k.2.2 0x40
            else
              let p := k.2.2.phaseBoundary s.grp
              .keep (p.2.modMe (fun t => { t with micro := { stage := 1, id := p.1 } })))))

/-- `qclose` (R295). -/
def execQclose (pre : Pre) (b a : BitVec 6) (s : State) : Res :=
  issue (.qclose pre b a) s (fun s =>
    let x := s.me.rd a
    let i := s.me.rd b
    unlessPoison (x.poison || i.poison) (
      match s.queueCheck x.v .output with
      | none => .trap 0x10 0 0
      | some (l, q, r, _) =>
        let e := i.v.toNat
        if 2 ^ 32 < e || e < r.head || r.items.any (fun k => decide (e ≤ k.1)) then .trap 0x10 0 0
        else match r.fin with
          | some v => if v = e then .done s else .trap 0x10 0 0
          | none => .done (s.modFrond l (fun f => f.setQueue q { r with fin := some e }))))

/-- What `pid` reads (R296). -/
def pidValue (s : State) (l : Nat) (f : Frond) (p : PinnaSlot) (sel : Nat) : Word :=
  match sel with
  | 0 => BitVec.ofNat 64 p.pinna
  | 1 => BitVec.ofNat 64 (s.pinnaGroups l p.pinna).length
  | 2 => match f.queues.find? (fun r => r.cons == p.pinna) with
    | some r => match r.fin with | some e => BitVec.ofNat 64 e | none => BitVec.allOnes 64
    | none => BitVec.allOnes 64
  | 3 => BitVec.ofNat 64 f.nitems
  | _ => BitVec.ofNat 64 p.number

/-- `pid` (R296). -/
def execPid (pre : Pre) (d sel : BitVec 6) (s : State) : Res :=
  issue (.pid pre d sel) s (fun s =>
    match s.myFrond with
    | none => .trap 0x10 0 0
    | some (l, f, p) => scalarResult d { v := pidValue s l f p sel.toNat } s)

/-! The feed and the rebalancing step. -/

/-- The feed queue's number: its producer is the feed (R279). -/
def Frond.feedQueue (f : Frond) : Nat := rankIn (f.queues.map (fun r => r.prod)) 15

/-- The next feed item enters as soon as the window allows (R285). -/
def execFeedItemEnter (launch : Nat) (s : State) : Res :=
  match s.launches.find? launch with
  | none => .next s
  | some x => match x.frond with
    | none => .next s
    | some f => match f.queue f.feedQueue with
      | none => .next s
      | some r =>
        let k := f.feedNext
        if x.st = .running && decide (k < f.nitems) && decide (k < r.head + r.depth) && !r.full k then
          let item := BitVec.ofNat 64 k :: (List.range 4).map (fun i => x.words.getD (4 + i) 0) ++ [0, 0, 0]
          .next (s.modFrond launch (fun f => { f.setQueue f.feedQueue (r.enter k item s.pkg.clocks) with feedNext := k + 1 }))
        else .next s

/-- The occupancy, the high-water mark of a pinna's input queue, and whether all its outputs are below their
low-water marks (R288). -/
def Frond.input (f : Frond) (p : Nat) : Option Rachis := f.queues.find? (fun r => r.cons == p)
def Frond.occ (f : Frond) (p : Nat) : Nat := match f.input p with | some r => r.occ | none => 0
def Frond.excess (f : Frond) (p : Nat) : Nat := match f.input p with | some r => r.occ - r.high | none => 0
def Frond.outputsLow (f : Frond) (p : Nat) : Bool := f.queues.all (fun r => r.prod != p || decide (r.occ < r.low))

/-- The first of a list that no other beats. -/
def bestOf (better : Nat → Nat → Bool) : List Nat → Option Nat
  | [] => none
  | p :: ps => match bestOf better ps with
    | none => some p
    | some q => if better q p then some q else some p

/-- The pinna to which a group moves, and the one it leaves (R288). -/
def State.rebalancePair (s : State) (l : Nat) (f : Frond) : Option (Nat × Nat) :=
  let ps := List.range f.pinnae.length
  let n := fun p => (s.pinnaGroups l p).length
  let rec' := fun p => f.pinnae[p]?
  let high := ps.filter (fun p => decide (0 < f.excess p) && f.outputsLow p &&
    (match rec' p with | some r => decide (n p < r.gmax) | none => false))
  match bestOf (fun q p => decide (f.excess p < f.excess q)) high with
  | none => none
  | some t =>
    let low := ps.filter (fun p => p != t && (match rec' p with | some r => decide (r.gmin < n p) | none => false))
    match bestOf (fun q p => decide (f.occ q ≤ f.occ p)) low with
    | none => none
    | some d => some (t, d)

/-- The lead of a RUNNING group waits in its `qpop`. -/
def State.leadWaits (s : State) (x : Group) : Bool :=
  let t := s.strandAt (x.cores.headD 0) 0
  x.st == .running && t.life == .waiting && t.wait == .rachis && t.micro.stage == 0

/-- The group's number in its frond. -/
def Group.number (x : Group) : Nat := match x.pinna with | some p => p.number | none => 0

/-- A rebalancing step is due: the frame counter has reached a multiple of `RBAL` since the launch became RUNNING or took
its last step (R287). -/
def Frond.due (f : Frond) (frame : Nat) : Bool :=
  let r := if f.rbal = 0 then 1 else f.rbal
  decide (f.lastFrame / r < frame / r)

/-- The rebalancing step of a launch, where it is due (R287, R288). -/
def State.rebalance (s : State) (launch : Nat) : State :=
  match s.launches.find? launch with
  | none => s
  | some x => match x.frond with
    | none => s
    | some f =>
      let frame := s.pkg.ns / 10000
      if x.st != .running || !f.due frame then s
      else
        let s := s.modFrond launch (fun f => { f with lastFrame := frame })
        let pending := s.groups.any (fun e => e.2.launch == launch && e.2.st != .retired && e.2.st != .ended &&
          (match e.2.pinna with | some p => p.mark.isSome || p.moving | none => false))
        if f.fixed || pending then s
        else match s.rebalancePair launch f with
          | none => s
          | some (t, d) =>
            let gs := s.pinnaGroups launch d
            let waits := gs.filter (fun e => s.leadWaits e.2)
            let lowest := bestOf (fun a b => decide (a < b)) (waits.map (fun e => e.2.number))
            let highest := bestOf (fun a b => decide (b < a)) (gs.map (fun e => e.2.number))
            let num := match lowest with | some k => some k | none => highest
            match gs.find? (fun e => some e.2.number == num) with
            | none => s
            | some (g, y) =>
              let s := s.modGroup g (fun y => { y with pinna := y.pinna.map (fun p => { p with mark := some t }) })
              if s.leadWaits y then s.moveGroup g else s

/-- The rebalancing step (R287). -/
def execFrondRebalance (launch : Nat) (s : State) : Res := .next (s.rebalance launch)

end Sys2Proof.Machine
end

