-- ==== Sys2Proof/Machine/Turn.lean ====
section
/-! DEFINITION. Whose turn it is and what it performs: the schedule's movers (spec/00_scope.md R5), the
conditions under which a strand moves (spec/05_strand.md R82, R84; spec/16_context.md R341), and what
drivers write from outside. -/

namespace Sys2Proof.Machine

/-- The next turn and the schedule behind it. An empty schedule leaves the turn to the strand that moved
last, one clock later (log entry 8). -/
def State.nextTurn (s : State) : Turn × List Turn :=
  match s.schedule with
  | [] => ({ mover := .strand s.core s.strand }, [])
  | t :: rest => (t, rest)

/-- The strand or the sequencer whose turn it is. -/
def State.focus (s : State) : Mover → State
  | .strand c k => { s with core := c, strand := k, seqTurn := false }
  | .ahead c k => { s with core := c, strand := k, seqTurn := false }
  | .sequencer p => { s with port := p, seqTurn := true }
  | _ => s

/-- The strand's `PC` is the address of an instruction's first word, where alone a breakpoint fires (spec/02_encoding.md R40):
its word is fetched and is no extension word. -/
def State.atFirstWord (s : State) : Bool :=
  match s.fetchMine with
  | .instr _ => true
  | .illegal w => !isExtWord w
  | .fault _ _ => false

/-- An instruction breakpoint of the core names the strand's `PC` in its context (R341). -/
def State.breakpointHere (s : State) : Bool :=
  let t := s.me
  let c := s.ctxAt s.myCtx
  !t.skipBreak && s.atFirstWord && (c.word 0).getLsbD 0 &&
  (List.range 4).any (fun i =>
    let b := s.myCore.dbg.ibp.get 0 i
    b.getLsbD 63 && bitsOf b 48 12 == s.myCtx && b.extractLsb' 2 46 == t.pc.extractLsb' 2 46)

/-- The strand to which a channel's fault goes: its owner, or where that is DONE the lowest-numbered strand of the
core that is not (spec/11_copy.md R246). -/
def Core.faultStrand (co : Core) (owner : Nat) : Option Nat :=
  if (co.strandAt owner).life = .done then (List.range 8).find? (fun k => (co.strandAt k).life != .done)
  else some owner

/-- The lowest channel whose COPY_FAULT goes to a strand now (R246). -/
def Core.owedChannel (co : Core) (k : Nat) : Option Nat :=
  (List.range 8).find? (fun ch => (co.chan ch).fpend && co.faultStrand (co.chan ch).faultOwner == some k)

/-- A COPY_FAULT is owed to the strand (spec/11_copy.md R246). -/
def State.copyFaultOwed (s : State) : Bool :=
  (s.myCore.owedChannel s.strand).isSome

/-- What the strand is to perform: the instruction it is inside of, else what stands at its `PC`. -/
def State.pcInstr (s : State) : Instr :=
  match s.me.micro.instr with
  | some i => i
  | none => match s.fetchMine with
    | .instr i => i
    | .illegal w => if isExtWord w then .fetchFault else .illegalEncoding
    | .fault _ _ => .fetchFault

/-- What the moving strand performs in its turn, where it performs anything (R82, R84). One that is to stop issues nothing
more; a halt or fault that its boundary owes keeps it there until every earlier S instruction has retired (spec/11_copy.md R246;
log entry 63). -/
def State.strandInstr (s : State) : Option Instr :=
  let t := s.me
  match s.myGroup with
  | none => none
  | some (_, x) =>
    if x.contain.isSome || !(x.st == .running || x.st == .saving) then none
    else if t.micro.stage = 0 && t.stops && t.life != .halted then none
    else if t.watchHit && t.micro.stage = 0 && (t.life == .running || t.life == .handler || t.life == .waiting) then
      some (.watchpoint s.core s.strand)
    else match t.life with
      | .running =>
        if t.micro.stage = 0 && s.copyFaultOwed then some (.copyFaultTaken s.core s.strand)
        else if t.micro.stage = 0 && s.breakpointHere then some (.instructionBreakpoint s.core s.strand)
        else some s.pcInstr
      | .handler =>
        if t.micro.stage = 0 && s.breakpointHere then some (.instructionBreakpoint s.core s.strand)
        else some s.pcInstr
      | .waiting =>
        if t.stops then none
        else if !t.inHandler && s.copyFaultOwed then some (.copyFaultTaken s.core s.strand)
        else some (.strandWaitSatisfied s.core s.strand)
      | .halted =>
        if !t.stepping then none
        else if t.micro.stage = 0 && !t.inHandler && s.copyFaultOwed then some (.copyFaultTaken s.core s.strand)
        else some s.pcInstr
      | _ => none

/-- What the sequencer of the focus port performs in its turn (spec/18_link.md R378, R380). -/
def State.sequencerInstr (s : State) : Option Instr :=
  let q := (s.portAt s.port).seq
  match q.st with
  | .running =>
    match q.word with
    | none => some (.sequencerWordFetch s.port)
    | some w =>
      match decodeSq w with
      | .ok i => some i
      | .bad _ => some (.sequencerWordFetch s.port)
  | .waiting => some (.sequencerWaitEnd s.port)
  | .fencing => some (.sequencerWaitEnd s.port)
  | _ => none

/-! Sealing (spec/09_page.md R200): where a trusted world has its data. -/

/-- A context of a trusted world that is in being satisfies a test. -/
def State.trusted (s : State) (p : Context → Bool) : Bool :=
  s.contexts.any (fun e => e.2.st.alive && e.2.world != 0 && p e.2)

/-- An HBM byte of a context: in its partition, its version region or its save area (spec/16_context.md R320, R322). -/
def Context.holdsHbm (c : Context) (a : Nat) : Bool :=
  let within := fun base len : Nat => decide (base ≤ a) && decide (a < base + len)
  let vsize := bitsOf (c.word 7) 48 16
  within (bitsOf (c.word 8) 28 20 * 2 ^ 28) (bitsOf (c.word 8) 48 16 * 2 ^ 28) ||
  within (bitsOf (c.word 7) 0 48) ((if vsize = 0 then 256 else vsize) * 2 ^ 20) ||
  within c.saveAt (c.slots * slotBytes + 0x1000)

/-- A cluster SRAM byte of a context's allotment. -/
def Context.holdsC (c : Context) (a : Nat) : Bool :=
  let o := a % 2 ^ 23 / 65536
  decide (bitsOf (c.word 10) 8 8 ≤ o) && decide (o < bitsOf (c.word 10) 8 8 + bitsOf (c.word 10) 0 8)

/-- A failed tag zeroes and marks the eight lines of its unit (spec/09_page.md R197). -/
def Mem.failUnit (m : Mem) (unit : Nat) : Mem :=
  (addrs (unit * 8) 8).foldl (fun m l => ({ m with latent := m.latent.set false l true } : Mem).detect l) m
def Page.failUnit (p : Page) (unit : Nat) : Page :=
  { p with frame := p.frame.setRange 0 (unit * 512) (List.replicate 512 0)
           poison := (addrs (unit * 8) 8).foldl (fun t l => t.set false l true) p.poison
           latent := (addrs (unit * 8) 8).foldl (fun t l => t.set false l false) p.latent }

/-- Parts of a saved core's slot that have been written (spec/16_context.md R336), by offset and length: its records with the
engine area, and the images of tiles and banks. -/
def CoreSave.written (v : CoreSave) : List (Nat × Nat) :=
  (0, 0x1C000) :: (v.tiles.filterMap (fun e => if e.2.st = .live then some (0x1C000 + 88064 * e.1, 88064) else none) ++
    v.banks.flatMap (fun e => (if e.2.active.st = .loaded then [(0x72000 + 270336 * (2 * e.1), 270336)] else []) ++
      (if e.2.shadow.st = .loaded then [(0x72000 + 270336 * (2 * e.1 + 1), 270336)] else [])))

/-- The tags of a range of HBM fail where a group of a trusted world has its save area: the ranks whose records or images it
touches are lost, and so are the pieces that it touches and that have not been read back (R328). -/
def State.spoilSlots (s : State) (a n : Nat) : State :=
  let hit := fun base len : Nat => decide (a < base + len) && decide (base < a + n)
  (s.groups.filter (fun e => (s.ctxAt e.2.ctx).world != 0)).foldl (fun s e => match e.2.slot with
    | none => s
    | some k =>
      let c := s.ctxAt e.2.ctx
      let pieces := (List.zip (List.range e.2.size) (match e.2.saved with
        | some l => l.map (fun v => v.pieces)
        | none => (List.range e.2.size).map (fun r => e.2.images.get [] r))).flatMap (fun r => (r.2.filter (fun p =>
          hit (c.coreSlotAt k r.1 + 0x282000 + 16384 * p.1) 16384)).map (fun p => (r.1, p.1)))
      s.modGroup e.1 (fun x => { x with
        badImages := x.badImages ++ pieces.filter (fun p => !x.badImages.contains p)
        saved := x.saved.map (fun l => (List.zip (List.range l.length) l).map (fun v =>
          if hit (c.slotAt k) 0x10000 || v.2.written.any (fun p => hit (c.coreSlotAt k v.1 + p.1) p.2) then { v.2 with lost := true }
          else v.2)) })) s

/-- A driver writes memory from outside: HBM, where each 8-byte unit is a commit, the weight store, or host
memory. -/
def State.driverWrite (s : State) (target addr : Nat) (bs : List Byte) : State :=
  let ws := place (addrs addr bs.length) bs
  match target with
  | 0 => (s.commitBytes (ws.filter (fun w => decide (w.1 < Config.hbmBytes)))).spoilSlots addr bs.length
  | 1 => { s with weights := s.weights.writeAt (ws.filter (fun w => decide (w.1 < Config.weightBytes))) false }
  | _ => { s with host := s.host.setRange 0 addr bs }

/-- The tag of a 512-byte unit of HBM that holds data of a trusted world fails. -/
def State.failTag (s : State) (unit : Nat) : State :=
  if unit * 512 < Config.hbmBytes ∧ s.trusted (fun c => c.holdsHbm (unit * 512)) = true then
    ({ s with hbm := s.hbm.failUnit unit }.spoilSlots (unit * 512) 512).event 0x07 0xFF 0xFF (unit * 512) 0 else s

/-- Change a rachis queue, named by 8 × its launch + its number. -/
def State.modRachis (s : State) (idx : Nat) (f : Rachis → Rachis) : State :=
  s.modFrond (idx / 8) (fun x => { x with queues := (List.zip (List.range x.queues.length) x.queues).map (fun e =>
    if e.1 = idx % 8 then f e.2 else e.2) })

/-- A line of memory takes an error that no code corrects (spec/09_page.md R197): HBM (0), a core's scratchpad (1),
or the frame of a cached pool page (2); or, of data of a trusted world, a GCM tag fails (R200): of a 512-byte unit of
HBM (3; in the save area, spec/16_context.md R328), of a unit of a group's slot of the save area (4), of a unit of cluster
SRAM (5) or of a pool page's frame (6). A rachis queue, 8 × its launch + its number, is hit in the line of an item in its
storage in the LLC (7) or, of a trusted world, in the tag of eight slots of it (8; spec/14_kernel.md R285; log entry 65). -/
def State.upsetLine (s : State) (target idx line : Nat) : State :=
  match target with
  | 0 => if line * 64 < Config.hbmBytes then { s with hbm := { s.hbm with latent := s.hbm.latent.set false line true } } else s
  | 1 => if idx < Config.cores ∧ line < 6144 then
      s.modCore idx (fun c => { c with spad := { c.spad with latent := c.spad.latent.set false line true } }) else s
  | 2 => if line < 1024 then
      { s with pool := { s.pool with pages := s.pool.pages.upd idx (fun p => { p with latent := p.latent.set false line true }) } } else s
  | 3 => s.failTag line
  | 4 => match (s.groups.find? idx).bind (fun x => x.slot.map (fun k => (s.ctxAt x.ctx).slotAt k)) with
    | none => s
    | some a => if line * 512 < slotBytes then s.failTag (a / 512 + line) else s
  | 5 => if line * 512 < 64 * 2 ^ 23 ∧ s.trusted (fun c => c.holdsC (line * 512)) = true then
      { s with sealed := s.sealed.failUnit line }.event 0x07 0xFF 0xFF (line * 512) 0 else s
  | 6 => if line < 128 ∧ s.trusted (fun _ => true) = true then
      { s with pool := { s.pool with pages := s.pool.pages.upd idx (fun p => p.failUnit line) } }.event
        0x07 0xFF 0xFF (idx * 65536 + line * 512) 0 else s
  | 7 => s.modRachis idx (fun r => r.spoil (fun n => n == line))
  | 8 => match (s.launches.find? (idx / 8)).bind (fun x => x.frond.bind (fun f => (f.queue (idx % 8)).map (fun r => (x, r)))) with
    | none => s
    | some (x, r) => if (s.ctxAt x.ctx).world = 0 ∨ r.depth ≤ line * 8 then s
      else (s.modRachis idx (fun r => r.spoil (fun n => n % r.depth / 8 == line))).event 0x07 0xFF 0xFF 0 0
  | _ => s

/-- An event or a host operation of the schedule: an instruction that is no word of a program. -/
def eventOk (i : Instr) : Bool := encode i == .event && i.wf

/-- What still reaches a FAILED package: writes to its registers, for which no rule makes an exception of the state (a queue's
launch registers reject, spec/01_package.md R21), and the loss of power. -/
def survives : Instr → Bool
  | .pkgCtlDrain _ _ => true
  | .pkgCtlResume _ => true
  | .pkgCtlReset _ => true
  | .pkgPwrWrite _ _ => true
  | .qlaunchWrite _ _ _ _ => true
  | .qtailWrite _ _ _ => true
  | .qctlEnable _ _ => true
  | .qctlStop _ _ => true
  | .qctlDisable _ _ => true
  | .qctlResync _ _ => true
  | .qctlRekeyed _ _ => true
  | .qdescWrite _ _ _ _ => true
  | .ctxctlCreate _ _ => true
  | .ctxctlCodeload _ _ => true
  | .ctxctlInval _ _ => true
  | .ctxctlEnd _ _ => true
  | .ctxctlBind _ _ _ => true
  | .ctxreqRead _ _ => true
  | .ctxrspWrite _ _ _ => true
  | .keywWrite _ _ _ => true
  | .keyqnWrite _ _ _ => true
  | .dctlHalt _ _ _ _ => true
  | .dctlResume _ _ _ _ => true
  | .dctlStep _ _ _ _ => true
  | .dstateWrite _ _ _ _ => true
  | .atctlWrite _ _ => true
  | .registerWrite _ _ _ => true
  | .pctlEnable _ _ _ => true
  | .pctlDisable _ _ => true
  | .pctlRetrain _ _ _ => true
  | .pctlBypass _ _ => true
  | .pctlUnbypass _ _ => true
  | .laserRetClear _ _ _ => true
  | .powerLoss => true
  | _ => false

/-- What a turn performs. A FAILED package is stopped (spec/01_package.md R19). -/
def State.turnInstr (s : State) : Mover → Option Instr
  | .strand _ _ => if s.pkg.st = .failed then none else s.strandInstr
  | .ahead _ _ => none
  | .behind _ _ => none
  | .unit _ _ _ => none
  | .land _ _ _ _ _ _ => none
  | .sequencer _ => if s.pkg.st = .failed then none else s.sequencerInstr
  | .event i => if eventOk i && (survives i || s.pkg.st != .failed) then some i else none
  | .driver _ _ _ => none
  | .upset _ _ _ => none

/-- What a turn does where no instruction, event or host operation is performed. -/
def State.outside (s : State) : Mover → State
  | .driver t a bs => s.driverWrite t a bs
  | .upset t i l => s.upsetLine t i l
  | _ => s

/-! Placing one instruction. -/

/-- Write bytes of HBM from outside, without a commit. -/
def State.pokeHbm (s : State) (a : Nat) (bs : List Byte) : State :=
  { s with hbm := s.hbm.writeAt (place (addrs a bs.length) bs) false }

/-- A launched program in place: context 1 with its code page at I address 0, its one-core group 1 RUNNING on
core 0 with strand 0 at `PC` 0 and the other strands DONE. A program is loaded from outside the machine
(log entry 9). -/
def State.placeProgram (s : State) (bs : List Byte) : State :=
  let base := 2 ^ 28
  let leaf : Word := 0xE400000000000000#64 ||| BitVec.ofNat 64 (2 ^ 29)
  let table : Word := 0x8000000000000000#64 ||| BitVec.ofNat 64 (base + 8192)
  let s := ((s.pokeHbm base (wordBytes table)).pokeHbm (base + 8192) (wordBytes leaf)).pokeHbm (2 ^ 29) bs
  let s := s.pokeHbm (base + 65536 + 2 ^ 20) [0]
  let c : Context :=
    { desc := [(0, 0#64), (1, BitVec.ofNat 64 base), (8, BitVec.ofNat 64 (2 * 2 ^ 48 + base)),
               (11, BitVec.ofNat 64 (base + 65536))]
      st := .running }
  let g : Group := { ctx := 1, launch := 1, st := .running, size := 1, cores := [0] }
  let done : Strand := { life := .done }
  let strands : Tbl Strand := (0, { life := .running, released := true }) :: (List.range 7).map (fun k => (k + 1, done))
  let co : Core := { group := some 1, strands := strands }
  { (s.setCtx 1 c).setCore 0 co with
    schedule := [], core := 0, strand := 0, seqTurn := false, groups := s.groups.put 1 g }

/-- `s` with one instruction where the next turn performs it: at the `PC` of strand 0 of core 0, or, for a
sequencer word, as the word that the sequencer of port 0 has fetched. -/
def State.placeWord (s : State) (nbits w : Nat) : State :=
  let v := w % 2 ^ nbits
  match (decode (bytesLE 8 v)).1.instr?, decodeSq (BitVec.ofNat 64 v) with
  | none, .ok _ =>
    let s := s.placeProgram []
    let s := s.modSeq 0 (fun q => { q with st := .running, grp := some 1, word := some (BitVec.ofNat 64 v) })
    { s with schedule := [{ mover := .sequencer 0 }] }
  | _, _ => s.placeProgram (bytesLE 8 v)

end Sys2Proof.Machine
end

