-- ==== Sys2Proof/Machine/Control.lean ====
section
/-! DEFINITION. The strand's own instructions: branch-target registers and transfers, hardware loops,
`nop`, `ifence`, `sdone` (spec/05_strand.md R92 to R111). -/

namespace Sys2Proof.Machine

/-- The code generation of the moving strand's context (R94). -/
def State.myCgen (s : State) : BitVec 32 := (s.ctxAt s.myCtx).cgen

/-- Prepare register `n` for target `tgt` (R92, the `bprep` row). -/
def Strand.prepare (t : Strand) (n : Nat) (tgt : BitVec 48) (cgen : BitVec 32) : Strand :=
  t.setBtr n { target := tgt, st := .preparing, cgen := cgen, fgen := t.fgen }

/-- A target that cannot be prepared is recorded, never trapped (R41, R96). -/
def Strand.faultBtr (t : Strand) (n : Nat) (cause : BitVec 8) : Strand :=
  t.setBtr n { t.btr n with st := .faulted, cause := cause }

/-- `EINFO` of a transfer's trap (spec/16_context.md R331): the fetch address for FETCH_UNMAPPED and FETCH_DATA, which
is the recorded target; the transfer's own first word for ILLEGAL (log entry 52). -/
def transferInfo (i : Instr) (cause : BitVec 8) (target : BitVec 48) : Word :=
  if cause = 0x03 ∨ cause = 0x04 then zx target else if cause = 0x01 then instrWord i else 0

/-- The target of a `bprep` (R96). -/
def prepTarget (pc : BitVec 48) (o : BitVec 15) : Int := pc.toNat + 4 * o.toInt

/-- `bprep` (R96). -/
def execBprep (pre : Pre) (b : BitVec 3) (o : BitVec 15) (s : State) : Res :=
  issue (.bprep pre b o) s (fun s =>
    let a := prepTarget s.me.pc o
    if a < 0 ∨ a ≥ 2 ^ 48 then .done (s.modMe (fun t => t.faultBtr b.toNat 0x03))
    else .done (s.modMe (fun t => t.prepare b.toNat (BitVec.ofInt 48 a) s.myCgen)))

/-- `bprepi` (R97). -/
def execBprepi (pre : Pre) (b a : BitVec 6) (s : State) : Res :=
  issue (.bprepi pre b a) s (fun s =>
    let r := s.me.rd a
    unlessPoison r.poison (
      if r.v.extractLsb' 48 16 ≠ 0 then
        .done (s.modMe (fun t => t.setBtr b.toNat { t.btr b.toNat with st := .faulted, cause := 0x03, target := 0 }))
      else if r.v.extractLsb' 0 2 ≠ 0 then
        .done (s.modMe (fun t => t.setBtr b.toNat
          { t.btr b.toNat with st := .faulted, cause := 0x01, target := r.v.extractLsb' 0 48 }))
      else .done (s.modMe (fun t => t.prepare b.toNat (r.v.extractLsb' 0 48) s.myCgen))))

/-- A saved cause as `bprepi.meta` takes it (R92). -/
def savedCause (c : BitVec 8) : BitVec 8 := if c = 0x03 ∨ c = 0x04 ∨ c = 0x01 then c else 0x01

/-- Register `n` restored from a meta word (R92, R95); the target stays. That the recorded `CGEN` and `FGEN` stay where
the saved state is EMPTY or FAULTED is the model's choice (log entry 55). -/
def Strand.restoreMeta (t : Strand) (n : Nat) (w : Word) : Strand :=
  let b := t.btr n
  match (w.extractLsb' 0 2).toNat with
  | 0 => t.setBtr n { b with st := .empty, cause := 0 }
  | 3 => t.setBtr n { b with st := .faulted, cause := savedCause (w.extractLsb' 8 8) }
  | _ => t.setBtr n { b with st := .preparing, cause := 0, cgen := w.extractLsb' 32 32, fgen := w.extractLsb' 16 16 }

/-- `bprepi.meta` (R97). -/
def execBprepiMeta (pre : Pre) (b a : BitVec 6) (s : State) : Res :=
  issue (.bprepiMeta pre b a) s (fun s =>
    let r := s.me.rd a
    unlessPoison r.poison (.done (s.modMe (fun t => t.restoreMeta b.toNat r.v))))

/-- The state code of R95. -/
def BState.code : BState → Nat
  | .empty => 0
  | .preparing => 1
  | .ready => 2
  | .faulted => 3

/-- The meta word (R95). -/
def Btr.meta (b : Btr) : Word :=
  b.cgen ++ (b.fgen ++ ((if b.st = .faulted then b.cause else 0) ++ BitVec.ofNat 8 b.st.code))

/-- `bget` (R98): 0 when EMPTY. -/
def execBget (pre : Pre) (d b : BitVec 6) (s : State) : Res :=
  issue (.bget pre d b) s (fun s =>
    let r := s.me.btr b.toNat
    scalarResult d { v := if r.st = .empty then 0 else zx r.target } s)

/-- `bget.meta` (R98). -/
def execBgetMeta (pre : Pre) (d b : BitVec 6) (s : State) : Res :=
  issue (.bgetMeta pre d b) s (fun s => scalarResult d { v := (s.me.btr b.toNat).meta } s)

/-- `binv` (R99). R92 and R99 name `STATE` and `TARGET`; that the recorded `CGEN` and `FGEN` go back to 0 too is the
model's choice (log entry 55). -/
def execBinv (pre : Pre) (b : BitVec 3) (s : State) : Res :=
  issue (.binv pre b) s (fun s => .done (s.modMe (fun t => t.setBtr b.toNat {})))

/-- The effect of a transfer (R100): `link` prepares b7 with the return address. A stale register repeats
the checks of R41 against the current mapping (R94). -/
def transfer (i : Instr) (b : BitVec 3) (p : BitVec 4) (e : BitVec 1) (link : Bool) (s : State) : Eff :=
  let t := s.me
  let pr := t.rdP p.toNat
  unlessPoison pr.poison (
    if !sense pr e then .done s
    else if !t.loops.isEmpty then .trap 0x05 0 0
    else
      let n := b.toNat
      let r := t.btr n
      let go := fun (s : State) =>
        let s := if link then s.modMe (fun t => t.prepare 7 (t.pc + 4) s.myCgen) else s
        Eff.goto s r.target
      match r.st with
      | .empty => .trap 0x02 0 0
      | .faulted => .trap r.cause (transferInfo i r.cause r.target) 0
      | .preparing => .stall
      | .ready =>
        if r.cgen = s.myCgen ∧ r.fgen = t.fgen then go s
        else match s.targetFault s.myCtx r.target.toNat with
          | some c => .trapAfter (fun t => t.faultBtr n c) c (transferInfo i c r.target) 0
          | none => go (s.modMe (fun t => t.setBtr n { r with cgen := s.myCgen, fgen := t.fgen })))

/-- `jmp` (R100). -/
def execJmp (pre : Pre) (b : BitVec 3) (p : BitVec 4) (e : BitVec 1) (s : State) : Res :=
  issue (.jmp pre b p e) s (transfer (.jmp pre b p e) b p e false)

/-- `call` (R100). -/
def execCall (pre : Pre) (b : BitVec 3) (p : BitVec 4) (e : BitVec 1) (s : State) : Res :=
  issue (.call pre b p e) s (transfer (.call pre b p e) b p e true)

/-- The word address of a code address (R102). -/
def wordAddr (pc : BitVec 48) : BitVec 46 := pc.extractLsb' 2 46

/-- The strand opens a loop of count `n` (R106). -/
def Strand.openLoop (t : Strand) (rot : Bool) (depth : BitVec 2) (n : Word) : Strand :=
  let e : LoopEntry := { remain := n, rot := rot, depth := depth, start := wordAddr (t.pc + 4) }
  let sg : BitVec 4 := if n = 0 then 0 else 1
  match t.loops with
  | [] => { t with sg := sg, loops := [e], rb := 0 }
  | top :: rest => { t with sg := sg, loops := { e with outer := t.sg } :: { top with nest := true } :: rest }

/-- The effect of `lsetup` (R106): at most two loops, none inside the handler (spec/16_context.md R332). -/
def loopSetup (rot : Bool) (depth : BitVec 2) (n : Word) (s : State) : Eff :=
  let t := s.me
  if t.loops.length ≥ 2 || t.inHandler then .trap 0x05 0 0
  else .done (s.setMe (t.openLoop rot depth n))

/-- `lsetup` with the count in a register (R106). -/
def execLsetupReg (pre : Pre) (r : BitVec 1) (e : BitVec 2) (a : BitVec 6) (s : State) : Res :=
  issue (.lsetupReg pre r e a) s (fun s =>
    unlessPoison (s.me.rd a).poison (loopSetup (r == 1) e (s.me.rd a).v s))

/-- `lsetup` with an immediate count (R106). -/
def execLsetupImm (pre : Pre) (r : BitVec 1) (e : BitVec 2) (i : BitVec 12) (s : State) : Res :=
  issue (.lsetupImm pre r e i) s (loopSetup (r == 1) e (zx i))

/-- Words of the body from `START` to `PC`, inclusive (R105). -/
def bodyWords (e : LoopEntry) (pc : BitVec 48) : Int := ((pc.toNat / 4 : Nat) : Int) - e.start.toNat + 1

/-- The stage window of a loop of depth `D` shifted by one pass (R107). -/
def shiftStages (sg : BitVec 4) (depth : BitVec 2) (feed : Bool) : BitVec 4 :=
  ((sg <<< 1) &&& (BitVec.ofNat 4 (2 ^ (depth.toNat + 1) - 2))) ||| (if feed then 1 else 0)

/-- The strand after an `lclose` of its innermost loop `e`, with the address it goes on at (R107). -/
def Strand.closePass (t : Strand) (e : LoopEntry) (rest : List LoopEntry) : Strand × BitVec 48 :=
  let e := { e with remain := if t.sg.getLsbD 0 then e.remain - 1 else e.remain }
  let rb := if e.rot then t.rb + 1 else t.rb
  let asked := t.preemptAt.isSome
  let sg := shiftStages t.sg e.depth (decide (e.remain ≠ 0) && !asked && !e.brk)
  let start : BitVec 48 := e.start ++ 0#2
  if sg ≠ 0 then ({ t with rb := rb, sg := sg, loops := e :: rest }, start)
  else if asked && decide (e.remain ≠ 0) && !e.brk then
    ({ t with rb := rb, sg := sg, loops := { e with susp := true } :: rest }, start)
  else
    ({ t with rb := rb, loops := rest, sg := if rest.isEmpty then 0xF else e.outer }, t.pc + 4)

/-- `lclose` (R107). -/
def execLclose (pre : Pre) (s : State) : Res :=
  issue (.lclose pre) s (fun s =>
    let t := s.me
    match t.loops with
    | [] => .trap 0x05 0 0
    | e :: rest =>
      if !e.nest && decide (bodyWords e t.pc > 64) then .trap 0x05 0 0
      else
        let r := t.closePass e rest
        .goto (s.setMe r.1) r.2)

/-- `lbreak` (R108). -/
def execLbreak (pre : Pre) (p : BitVec 4) (e : BitVec 1) (s : State) : Res :=
  issue (.lbreak pre p e) s (fun s =>
    let t := s.me
    let pr := t.rdP p.toNat
    unlessPoison pr.poison (
      match t.loops with
      | [] => .trap 0x05 0 0
      | top :: rest =>
        if sense pr e then .done (s.setMe { t with loops := { top with brk := true } :: rest }) else .done s))

/-- `nop` (R110). -/
def execNop (pre : Pre) (s : State) : Res := issue (.nop pre) s (fun s => .done s)

/-- `ifence` (R101). -/
def execIfence (pre : Pre) (s : State) : Res :=
  issue (.ifence pre) s (fun s => .done (s.modMe (fun t => { t with fgen := t.fgen + 1 })))

/-- `sdone` (R111): the strand becomes DONE. R82 has a row from RUNNING only; that an `sdone` in the handler does the
same is the model's choice (log entry 55). -/
def execSdone (pre : Pre) (s : State) : Res :=
  issue (.sdone pre) s (fun s =>
    if s.me.loops.isEmpty then .finish s (fun s => (s.modMe (fun t => t.retire (t.pc + 4))).strandDone s.core s.strand)
    else .trap 0x05 0 0)

/-- The prefetch of a PREPARING register ends with the checks of `bprep` (R92). -/
def execBtrPrefetchDone (c k b : Nat) (s : State) : Res :=
  let t := s.strandAt c k
  let r := t.btr b
  if r.st = .preparing then
    let ctx := ({ s with core := c, strand := k } : State).myCtx
    match s.targetFault ctx r.target.toNat with
    | none => .next (s.setStrand c k (t.setBtr b { r with st := .ready }))
    | some f => .next (s.setStrand c k (t.faultBtr b f))
  else .next s

/-- The first word of an encoding that is no instruction traps ILLEGAL (spec/02_encoding.md R46), where the strand
whose turn it is stands at it and is to issue (R82), once every earlier S instruction has retired (R86). -/
def execIllegalEncoding (s : State) : Res :=
  match s.strandInstr, s.fetchMine with
  | some .illegalEncoding, .illegal w => .next (if s.me.outs = 0 then s.takeTrap 0x01 (zx w) 0 else s)
  | _, _ => .next s

/-- A fetch that fails its checks, or reaches an extension word, traps with the check's cause (R41), where the strand
whose turn it is is to issue; a page without the execute right is fatal (spec/09_page.md R194). -/
def execFetchFault (s : State) : Res :=
  match s.strandInstr, s.fetchMine with
  | some .fetchFault, .fault c a =>
    .next (if c = 0x80 then s.fatalMine c else if s.me.outs = 0 then s.takeTrap c a 0 else s)
  | some .fetchFault, .illegal w => .next (if s.me.outs = 0 then s.takeTrap 0x01 (zx w) 0 else s)
  | _, _ => .next s

end Sys2Proof.Machine
end

