-- ==== Sys2Proof/Machine/Debug.lean ====
section
/-! DEFINITION. The debug unit: halting, resuming and stepping a strand, breakpoints and watchpoints, and the record of
a strand's state (spec/16_context.md R337, R338, R341). -/

namespace Sys2Proof.Machine

/-! A strand's record (R337) and control block (R338), as 1,520 words. -/

/-- A 64-bit word of a wide register, and the register with that word replaced. -/
def wordIn {n : Nat} (v : BitVec n) (j : Nat) : Word := v.extractLsb' (64 * j) 64
def setWordIn {n : Nat} (v : BitVec n) (j : Nat) (w : Word) : BitVec n :=
  (v &&& ~~~ ((BitVec.allOnes 64).setWidth n <<< (64 * j))) ||| (w.setWidth n <<< (64 * j))

/-- A loop stack entry as its two words (spec/05_strand.md R102). -/
def LoopEntry.word1 (e : LoopEntry) : Word :=
  1#1 ++ BitVec.ofBool e.susp ++ BitVec.ofBool e.brk ++ BitVec.ofBool e.rot ++ BitVec.ofBool e.nest ++ e.depth ++ e.outer ++ 0#5 ++
    e.start ++ 0#2
/-- The loop stack from the outermost entry on: in the handler, the one kept aside. -/
def Strand.stack (t : Strand) : List LoopEntry := (match t.hidden with | some h => h.loops | none => t.loops).reverse
def Strand.loopWord (t : Strand) (j : Nat) : Word :=
  match t.stack[j / 2]? with
  | none => t.loopSpare.get 0 j
  | some e => if j % 2 = 0 then e.remain else e.word1

/-- `CTRL` (R337). -/
def Life.code : Life → Nat
  | .waiting => 1
  | .handler => 2
  | .done => 3
  | _ => 0
def Strand.ctrl (t : Strand) : Word :=
  let l := if t.life = .halted ∨ t.life = .saved then t.haltedFrom else t.life
  let pred := (List.range 16).foldl (fun n k => if (t.p.get {} k).v || k == 0 then n + 2 ^ k else n) 0
  t.fgen ++ BitVec.ofNat 16 pred ++ t.sg ++ t.rb ++ 0#12 ++ BitVec.ofBool ((t.life == .halted && !t.unmarked) || t.haltMark) ++
    BitVec.ofNat 3 l.code ++ 0#8

/-- The poison bits of x, o, l, p, v, w, z, m and c, in that order from bit 0 (log entry 31). -/
def Strand.poisons (t : Strand) : BitVec 256 :=
  let bs := (List.range 48).map (fun k => (t.x.get {} k).poison) ++ (List.range 8).map (fun k => (t.o.get {} k).poison) ++
    (List.range 4).map (fun k => (t.l.get {} k).poison) ++ (List.range 16).map (fun k => (t.p.get {} k).poison) ++
    (List.range 32).map (fun k => (t.vr.get {} k).poison) ++ (List.range 8).map (fun k => (t.w.get {} k).poison) ++
    (List.range 2).map (fun k => (t.z.get {} k).poison) ++ (List.range 8).map (fun k => (t.m.get {} k).poison) ++
    (List.range 16).map (fun k => (t.c.get {} k).poison)
  BitVec.ofNat 256 (bs.foldr (fun b n => 2 * n + b.toNat) 0)

/-- The hidden loop context: [1:0] its depth, [7:4] s3 to s0, [11:8] `RB`, [63] kept (log entry 31). -/
def Strand.hiddenWord (t : Strand) : Word :=
  match t.hidden with
  | none => 0
  | some h => 1#1 ++ 0#51 ++ h.rb ++ h.sg ++ 0#2 ++ BitVec.ofNat 2 h.loops.length

/-- The wait-half mark and phase token. -/
def Strand.waitWord (t : Strand) : Word :=
  match t.waitHalf with
  | some (_, tok) => 0#47 ++ 1#1 ++ tok
  | none => match t.micro.stage, t.wait with
    | 1, .barrier _ tok => 0#47 ++ 1#1 ++ tok
    | _, _ => 0

/-- A word of the control block. -/
def Strand.blockWord (t : Strand) (j : Nat) : Word :=
  if j < 8 then (t.b.get {} j).meta
  else if j < 12 then wordIn t.poisons (j - 8)
  else if j = 12 then t.epc
  else if j = 13 then t.ecause
  else if j = 14 then t.einfo
  else if j = 15 then t.einfo2
  else if j < 24 then (t.ho.get {} (j - 16)).v
  else if j < 28 then (t.hl.get {} (j - 24)).v
  else if j = 28 then t.hiddenWord
  else if j = 29 then t.svrsp
  else if j = 30 then (match t.svtag with | some g => zx g | none => 0)
  else if j = 31 then t.waitWord
  else 0

/-- A word of the record, and of the control block behind it. -/
def Strand.recordWord (t : Strand) (i : Nat) : Word :=
  if i < 48 then (t.x.get {} i).v
  else if i < 56 then (t.o.get {} (i - 48)).v
  else if i < 60 then (t.l.get {} (i - 56)).v
  else if i < 68 then zx (t.b.get {} (i - 60)).target
  else if i < 100 then wordIn (t.c.get {} ((i - 68) / 2)).v (i % 2)
  else if i < 104 then t.loopWord (i - 100)
  else if i = 104 then zx t.pc
  else if i = 105 then t.ctrl
  else if i = 106 then zx t.vt
  else if i < 112 then 0
  else if i < 1136 then wordIn (t.vr.get {} ((i - 112) / 32)).v ((i - 112) % 32)
  else if i < 1392 then wordIn (t.w.get {} ((i - 1136) / 32)).v ((i - 1136) % 32)
  else if i < 1456 then wordIn (t.z.get {} ((i - 1392) / 32)).v ((i - 1392) % 32)
  else if i < 1488 then wordIn (t.m.get {} ((i - 1456) / 4)).v ((i - 1456) % 4)
  else t.blockWord (i - 1488)

/-- Another value in a scalar register, in a file. -/
def setRegV (t : Tbl Reg) (k : Nat) (w : Word) : Tbl Reg := t.set {} k { t.get {} k with v := w }
def setVRegV (t : Tbl VReg) (k j : Nat) (w : Word) : Tbl VReg := t.set {} k { t.get {} k with v := setWordIn (t.get {} k).v j w }

/-- A loop stack entry of two words; none where it is not VALID. -/
def loopOf (w0 w1 : Word) : Option LoopEntry :=
  if w1.getLsbD 63 then
    some { remain := w0, susp := w1.getLsbD 62, brk := w1.getLsbD 61, rot := w1.getLsbD 60, nest := w1.getLsbD 59,
           depth := w1.extractLsb' 57 2, outer := w1.extractLsb' 53 4, start := w1.extractLsb' 2 46 }
  else none

/-- A write of a word of the loop stack. An entry in use behind one that is not counts once that one is written. -/
def Strand.setLoopWord (t : Strand) (j : Nat) (w : Word) : Strand :=
  let ws := (List.range 4).map (fun k => if k = j then (if k % 2 = 0 then w else w &&& 0xFFE0FFFFFFFFFFFC) else t.loopWord k)
  let used := (([0, 2].map (fun k => loopOf (ws.getD k 0) (ws.getD (k + 1) 0))).takeWhile (fun e => e.isSome)).filterMap id
  let l := used.reverse
  let t : Strand := { t with loopSpare := (List.range 4).foldl (fun (r : Tbl Word) k =>
    r.set 0 k (if k / 2 < used.length then 0 else ws.getD k 0)) [] }
  match t.hidden with
  | some h => { t with hidden := some { h with loops := l } }
  | none => { t with loops := l }

/-- The strand is put into its handler or out of it, with its loop context set aside or taken back
(spec/16_context.md R332, R345). -/
def Strand.setHandler (t : Strand) (on : Bool) : Strand :=
  match on, t.hidden with
  | true, none => { t with hidden := some { loops := t.loops, sg := t.sg, rb := t.rb }, loops := [], sg := 0xF, rb := 0
                           haltedFrom := if t.haltedFrom = .waiting then .waiting else .handler }
  | false, some h => { t with hidden := none, loops := h.loops, sg := h.sg, rb := h.rb
                              haltedFrom := if t.haltedFrom = .waiting then .waiting else .running }
  | _, _ => t

/-- A HALTED strand is put at an instruction boundary: nothing of the instruction it was in is left. -/
def Strand.afresh (t : Strand) : Strand :=
  { t with micro := {}, wait := .grants [], haltedFrom := if t.haltedFrom = .waiting then t.active else t.haltedFrom }

/-- A write of `ST`: the state that the strand left (R82). RUNNING is outside the handler, HANDLER inside it; WAITING is
a state of the instruction it is at, which a strand that was not waiting does not have. -/
def Strand.setSt (t : Strand) (st : Nat) : Strand :=
  match st with
  | 0 => { (t.afresh.setHandler false) with haltedFrom := .running }
  | 1 => { t with haltedFrom := .waiting }
  | 2 => { (t.afresh.setHandler true) with haltedFrom := .handler }
  | 3 => { t.afresh with haltedFrom := .done }
  | _ => t

/-- A write of `CTRL`: the state the strand left (R82) is `ST`; a write that keeps it keeps what the strand waits for.
`HALT` is the halt mark that a HALTED strand keeps at a pre-emption. -/
def Strand.setCtrl (t : Strand) (w : Word) : Strand :=
  let p := (List.range 16).foldl (fun (q : Tbl PBit) k =>
    if k = 0 then q else q.set {} k { q.get {} k with v := w.getLsbD (32 + k) }) t.p
  let t := if bitsOf w 8 3 = t.haltedFrom.code then t else t.setSt (bitsOf w 8 3)
  { t with unmarked := t.life == .halted && !w.getLsbD 11, fgen := w.extractLsb' 48 16, p := p, sg := w.extractLsb' 28 4, rb := w.extractLsb' 24 4 }

/-- A write of the hidden loop context: [63] puts the strand into the handler or out of it, [1:0] is how many entries,
outermost first, are kept aside. -/
def Strand.setHidden (t : Strand) (w : Word) : Strand :=
  let t := t.setHandler (w.getLsbD 63)
  let d := bitsOf w 0 2
  let fit := fun (l : List LoopEntry) => List.replicate (d - l.length) { remain := 0 } ++ l.drop (l.length - d)
  { t with hidden := t.hidden.map (fun h => { loops := fit h.loops, rb := w.extractLsb' 8 4, sg := w.extractLsb' 4 4 }) }

/-- A write of the wait-half mark and phase token (R265): inside the handler they are kept, outside it the strand is in
the wait half of the `bar` at its `PC`, of barrier `j`, or at that instruction. -/
def Strand.setWaitHalf (t : Strand) (j : Nat) (w : Word) : Strand :=
  let tok := w.extractLsb' 0 16
  if t.inHandler then { t with waitHalf := if w.getLsbD 16 then some (j, tok) else none }
  else if w.getLsbD 16 then { t with micro := { stage := 1, id := tok.toNat }, wait := .barrier j tok, haltedFrom := .waiting }
  else if t.waitWord = 0 then t
  else t.afresh

/-- Other poison bits. -/
def Strand.setPoisons (t : Strand) (b : BitVec 256) : Strand :=
  let mapR := fun (n lo : Nat) (f : Tbl Reg) => (List.range n).foldl (fun f k => f.set {} k { f.get {} k with poison := b.getLsbD (lo + k) }) f
  let mapV := fun (n lo : Nat) (f : Tbl VReg) => (List.range n).foldl (fun f k => f.set {} k { f.get {} k with poison := b.getLsbD (lo + k) }) f
  { t with
    x := mapR 48 0 t.x, o := mapR 8 48 t.o, l := mapR 4 56 t.l
    p := (List.range 16).foldl (fun (f : Tbl PBit) k => f.set {} k { f.get {} k with poison := b.getLsbD (60 + k) }) t.p
    vr := mapV 32 76 t.vr, w := mapV 8 108 t.w, z := mapV 2 116 t.z
    m := (List.range 8).foldl (fun (f : Tbl MReg) k => f.set {} k { f.get {} k with poison := b.getLsbD (118 + k) }) t.m
    c := (List.range 16).foldl (fun (f : Tbl CapReg) k => f.set {} k { f.get {} k with poison := b.getLsbD (126 + k) }) t.c }

/-- A write of a word of the control block; the meta words ignore it. `bar` is the barrier of the `bar` at which the
strand stands or, in the handler, to which it returns. -/
def Strand.setBlockWord (t : Strand) (bar j : Nat) (w : Word) : Strand :=
  if j < 8 then t
  else if j < 12 then t.setPoisons (setWordIn t.poisons (j - 8) w)
  else if j = 12 then { t with epc := w }
  else if j = 13 then { t with ecause := w }
  else if j = 14 then { t with einfo := w }
  else if j = 15 then { t with einfo2 := w }
  else if j < 24 then { t with ho := setRegV t.ho (j - 16) w }
  else if j < 28 then { t with hl := setRegV t.hl (j - 24) w }
  else if j = 28 then t.setHidden w
  else if j = 29 then { t with svrsp := w }
  else if j = 30 then { t with svtag := some (w.extractLsb' 0 16) }
  else if j = 31 then t.setWaitHalf bar w
  else t

/-- A word-aligned code address (spec/05_strand.md R81). -/
def codeAddr (w : Word) : BitVec 48 := w.extractLsb' 2 46 ++ 0#2

/-- A write of a word of the record; the capability registers ignore it (R341). A code address is taken word-aligned
(spec/05_strand.md R81), and a new `PC` starts at an instruction's beginning; reserved bits of `VT` stay 0. -/
def Strand.setRecordWord (t : Strand) (bar i : Nat) (w : Word) : Strand :=
  if i < 48 then { t with x := setRegV t.x i w }
  else if i < 56 then { t with o := setRegV t.o (i - 48) w }
  else if i < 60 then { t with l := setRegV t.l (i - 56) w }
  else if i < 68 then { t with b := t.b.set {} (i - 60) { t.b.get {} (i - 60) with target := codeAddr w } }
  else if i < 100 then t
  else if i < 104 then t.setLoopWord (i - 100) w
  else if i = 104 then { t.afresh with pc := codeAddr w }
  else if i = 105 then t.setCtrl w
  else if i = 106 then { t with vt := (w.extractLsb' 0 12).setWidth 16 }
  else if i < 112 then t
  else if i < 1136 then { t with vr := setVRegV t.vr ((i - 112) / 32) ((i - 112) % 32) w }
  else if i < 1392 then { t with w := setVRegV t.w ((i - 1136) / 32) ((i - 1136) % 32) w }
  else if i < 1456 then { t with z := setVRegV t.z ((i - 1392) / 32) ((i - 1392) % 32) w }
  else if i < 1488 then
    let k := (i - 1456) / 4
    { t with m := t.m.set {} k { t.m.get {} k with v := setWordIn (t.m.get {} k).v ((i - 1456) % 4) w } }
  else t.setBlockWord bar (i - 1488) w

/-! The debug window. -/

/-- A debug window is reached, but in RESET, which holds the cores in reset (spec/01_package.md R19): by the host where the core holds no group or one of a world-0 context with `DBGEN`, by
a guest where it holds one of its world's contexts with `DBGEN` (R341, spec/19_host.md R385). -/
def State.debugReach (s : State) (via : Via) (c : Nat) : Bool :=
  s.pkg.st != .reset &&
  match (s.groupOf c).bind (fun g => s.groups.find? g) with
  | none => via == .host
  | some x =>
    let k := s.ctxAt x.ctx
    (k.word 0).getLsbD 0 && (match via with | .host => k.world == 0 | .guest w => w != 0 && k.world == w)

/-- A halt reaches a strand in clock `now` (spec/05_strand.md R82): HALTED with the state it left recorded, at the
instruction boundary, once every earlier instruction has retired (spec/06_scalar.md R113). A strand that a pre-emption
reached in the same clock stops at that boundary and is saved with the halt mark (R83); one that has been DRAINING or SAVED since
an earlier clock has no row for a halt. -/
def Strand.halt (t : Strand) (now : Nat) : Strand :=
  let moves := t.life == .running || t.life == .waiting || t.life == .handler
  if t.preemptAt.isSome then
    if t.preemptAt != some now then t
    else if t.life == .saved then { t with haltMark := true }
    else if moves then ({ t with haltMark := true, stopSoon := true } : Strand).settleStop
    else t
  else if !moves then t
  else if t.stopSoon then { t with haltMark := true }
  else if t.outs == 0 && (t.life == .waiting || t.micro.stage == 0) then { t with life := .halted, haltedFrom := t.life }
  else { t with haltSoon := true }

/-- A strand goes on in the state it left. -/
def Strand.unhalt (t : Strand) : Strand :=
  if t.life = .halted then { t with life := t.haltedFrom, stepping := false, watchHit := false, unmarked := false, loopSpare := [] } else t

/-- A strand bit of the halted-by marks. -/
def strandBit (k : Nat) : BitVec 8 := 1#8 <<< k
def Debug.cleared (d : Debug) (k : Nat) : Debug :=
  { d with byBreak := d.byBreak &&& ~~~ strandBit k, byWatch := d.byWatch &&& ~~~ strandBit k }

/-- A write of `DCTL` with its `BRKH`. -/
def State.debugWrite (s : State) (via : Via) (c : Nat) (brkh : Bool) (f : State → State) : State :=
  if s.debugReach via c then f (s.modCore c (fun co => { co with dbg := { co.dbg with brkh := brkh } })) else s

/-- `DCTL` halt. -/
def State.haltStrand (s : State) (c k : Nat) : State := s.modStrand c k (fun t => t.halt s.pkg.clocks)
def execDctlHalt (via : Via) (c k : Nat) (brkh : Bool) (s : State) : Res :=
  .next (s.debugWrite via c brkh (fun s => s.haltStrand c k))

/-- `DCTL` resume. -/
def State.resumeStrand (s : State) (c k : Nat) : State :=
  if (s.strandAt c k).life = .halted then
    (s.modStrand c k Strand.unhalt).modCore c (fun co => { co with dbg := co.dbg.cleared k })
  else s
def execDctlResume (via : Via) (c k : Nat) (brkh : Bool) (s : State) : Res :=
  .next (s.debugWrite via c brkh (fun s => s.resumeStrand c k))

/-- `DCTL` step: the strand's next turn issues one instruction, and it stays HALTED (spec/05_strand.md R82). -/
def State.stepStrand (s : State) (c k : Nat) : State :=
  s.modStrand c k (fun t => if t.life = .halted then { t with stepping := true } else t)
def execDctlStep (via : Via) (c k : Nat) (brkh : Bool) (s : State) : Res :=
  .next (s.debugWrite via c brkh (fun s => s.stepStrand c k))

/-- `DSEL`: strand and page. -/
def Debug.strand (d : Debug) : Nat := bitsOf d.dsel 0 3
def Debug.page (d : Debug) : Nat := bitsOf d.dsel 8 3

/-- The barrier of the `bar` at which a strand stands or, in its handler, to which it returns. -/
def State.barHere (s : State) (c k : Nat) : Nat :=
  let there : State := { s with core := c, strand := k }
  let t := there.me
  match s.fetchAt there.myCtx (if t.inHandler then t.epc.extractLsb' 0 48 else t.pc) with
  | .instr (.bar _ j) => j.toNat
  | _ => 0

/-- A write of `DSTATE`, at an offset of its window: one aligned word of a HALTED strand (R341). -/
def State.writeDstate (s : State) (c off : Nat) (v : Word) : State :=
  let d := (s.coreAt c).dbg
  let i := (2048 * d.page + (off - 0x800)) / 8
  if off < 0x800 ∨ 0xFFF < off ∨ off % 8 ≠ 0 ∨ 5 < d.page ∨ 1520 ≤ i then s
  else s.modStrand c d.strand (fun t => if t.life = .halted then t.setRecordWord (s.barHere c d.strand) i v else t)

/-- `DSTATE`. -/
def execDstateWrite (via : Via) (c off : Nat) (v : BitVec 64) (s : State) : Res :=
  .next (if s.debugReach via c then s.writeDstate c off v else s)

/-- Halt a strand and note by what; a DRAINING strand goes on without (R82). -/
def State.debugHalt (s : State) (c k : Nat) (byBreak : Bool) : State :=
  (s.modStrand c k (fun t => { t.halt s.pkg.clocks with
    skipBreak := t.skipBreak || byBreak, watchHit := t.watchHit && byBreak })).modCore c
    (fun co => if (co.strandAt k).life != .halted then co else { co with dbg := if byBreak then { co.dbg with byBreak := co.dbg.byBreak ||| strandBit k }
                                  else { co.dbg with byWatch := co.dbg.byWatch ||| strandBit k } })

/-- A strand stands at an instruction boundary, with every earlier instruction retired, and is to move. -/
def Strand.ready (t : Strand) : Bool :=
  t.between && (t.life == .running || t.life == .handler || t.life == .waiting)

/-- An instruction breakpoint halts the strand before the instruction (R341). -/
def execInstructionBreakpoint (c k : Nat) (s : State) : Res :=
  let t := s.strandAt c k
  let there : State := { s with core := c, strand := k }
  .next (if t.ready && t.life != .waiting && there.breakpointHere then s.debugHalt c k true else s)

/-- A watchpoint that has matched halts the strand at its next boundary (R341). -/
def execWatchpoint (c k : Nat) (s : State) : Res :=
  let t := s.strandAt c k
  .next (if t.ready && t.watchHit then s.debugHalt c k false else s)

end Sys2Proof.Machine
end

