-- ==== Sys2Proof/Machine/Matrix.lean ====
section
/-! DEFINITION. The matrix engine's arithmetic: aligned blocks, block sums, accumulation, normalisation and
drains (spec/04_numbers.md R71 to R78) on tiles and weight banks (spec/08_tile.md R154, R170 to R175). -/

namespace Sys2Proof.Machine

/-! Formats and shapes. -/

/-- A format word's fields (spec/08_tile.md R155). -/
def wordAF (w : BitVec 32) : Nat := (w.extractLsb' 0 4).toNat
def wordBF (w : BitVec 32) : Nat := (w.extractLsb' 4 4).toNat
def wordOF (w : BitVec 32) : Nat := (w.extractLsb' 8 4).toNat
def wordRM (w : BitVec 32) : Mode := modeOf (w.extractLsb' 12 2)
def wordSat (w : BitVec 32) : Bool := w.getLsbD 14

/-- A matrix operand format (R57). -/
def operandFmt (c : Nat) : Bool := c == 0 || c == 4 || c == 5 || c == 6 || c == 7 || c == 9
/-- A matrix output format (R57). -/
def outputFmt (c : Nat) : Bool := c == 2 || (decide (4 ≤ c) && decide (c ≤ 8))

/-- Planes of an A element (R71) and magnitude bits of a B cell (R72). -/
def planesA (c : Nat) : Nat := if c = 9 then 4 else if c = 6 ∨ c = 7 then 16 else 8
def planesB (c : Nat) : Nat := if c = 9 then 4 else if c = 6 ∨ c = 7 then 15 else 8

/-- A shape register's fields (spec/08_tile.md R170). -/
def shapeM (v : Word) : Nat := bitsOf v 0 8
def shapeN (v : Word) : Nat := bitsOf v 8 8
def shapeK (v : Word) : Nat := bitsOf v 16 11
/-- The shape field map holds. -/
def shapeOk (v : Word) : Bool :=
  bitsOf v 27 37 == 0 && decide (shapeM v ≤ 128 ∧ shapeN v ≤ 128 ∧ shapeK v ≤ 1024)

/-- K-blocks of an extent. -/
def kBlocks (k : Nat) : Nat := (k + 31) / 32

/-- Bytes of a line of `k` elements. Of a short last BLK4 block only the elements' bytes are read: R170 leaves open whether
the rest of its 16 bytes is (DEDUCED, log entry 59). -/
def lineBytes (fm k : Nat) : Nat := (k * codeWidth fm + 7) / 8

/-! Aligned blocks. -/

/-- One element of an aligned block: sign, magnitude, and what it was before alignment. -/
structure AElem where
  neg : Bool := false
  q : Nat := 0
  inf : Bool := false
  zero : Bool := true
  deriving DecidableEq, Repr

/-- An aligned K-block (R71). -/
structure ABlock where
  els : List AElem := []
  x : Int := 0
  nan : Bool := false
  trunc : Bool := false
  code : Bool := false
  deriving DecidableEq, Repr

/-- `Floor(Log2(|v|))` of a finite nonzero number. -/
def Num.exp : Num → Option Int
  | .fin _ m e => if m = 0 then none else some ((m.log2 : Int) + e)
  | _ => none

/-- A floating-point element at block exponent `x`, and whether it lost bits. -/
def alignElem (x : Int) : Num → AElem × Bool
  | .nan => ({ zero := false }, false)
  | .inf neg => ({ neg := neg, inf := true, zero := false }, false)
  | .fin neg m e =>
    if m = 0 then ({}, false)
    else if x ≤ e then ({ neg := neg, q := m * 2 ^ (e - x).toNat, zero := false }, false)
    else
      let d := 2 ^ (x - e).toNat
      ({ neg := neg, q := m / d, zero := false }, m % d != 0)

/-- `AlignBlock` (R71) of the elements of a block, whose missing elements are zero; `sc` is a BLK4 block's
scale byte. -/
def alignBlock (fm p : Nat) (els : List Nat) (sc : Nat) : ABlock :=
  if fm = 9 then
    { els := els.map (fun c =>
        let d := digit (sc / 64) c
        { neg := decide (d < 0), q := d.natAbs, zero := d == 0 })
      x := (sc % 64 : Nat) - 31
      nan := sc % 64 == 63
      code := els.any (reservedCode (sc / 64)) }
  else
    match fmtOf fm with
    | none => { els := els.map (fun b =>
        let v := intOf 8 b
        { neg := decide (v < 0), q := v.natAbs, zero := v == 0 }) }
    | some f =>
      let ns := els.map f.value
      let x : Int := match ns.filterMap Num.exp with
        | [] => 0
        | e :: es => es.foldl max e - p + 1
      let r := ns.map (alignElem x)
      { els := r.map (fun y => y.1), x := x, nan := ns.any Num.isNan, trunc := r.any (fun y => y.2) }

/-! Weight banks. -/

/-- A cell of a bank (R72): sign and magnitude, both 0 for an infinite element (R71). -/
def cellOf (a : AElem) : BitVec 16 := BitVec.ofNat 16 ((if a.neg && !a.inf then 2 ^ 15 else 0) + a.q % 2 ^ 15)

/-- A block's special flags, as bits by position. -/
def flagsOf (b : ABlock) : BlockFlags :=
  let bits := fun f : AElem → Bool =>
    ((List.range 32).zip b.els).foldl (fun (acc : BitVec 32) p => if f p.2 then acc ||| (1#32 <<< p.1) else acc) 0
  { nan := b.nan, inf := bits (fun a => a.inf), neg := bits (fun a => a.neg), zero := ~~~ bits (fun a => !a.zero) }

/-- Store column `j`'s block `kb` (R72). -/
def Bank.store (bk : Bank) (j kb : Nat) (b : ABlock) : Bank :=
  { bk with
    cells := ((List.range 32).zip b.els).foldl (fun t p => t.set 0 ((kb * 32 + p.1) * 128 + j) (cellOf p.2)) bk.cells
    exps := bk.exps.set 0 (kb * 128 + j) (BitVec.ofInt 16 b.x)
    flags := bk.flags.set {} (kb * 128 + j) (flagsOf b) }

/-- A block contribution (R73). -/
inductive Sum
  | nan
  | inf (neg : Bool)
  | fin (s : Int) (z : Int)
  deriving DecidableEq, Repr

/-- The infinite products of a block: none, one sign, or a NaN (R73). -/
def blockInf : List (AElem × Bool × Bool × Bool) → Option Bool → Option (Option Bool)
  | [], acc => some acc
  | (a, binf, bneg, bzero) :: t, acc =>
    if a.inf || binf then
      if (a.inf && bzero) || (binf && a.zero) then none
      else
        let sg := a.neg != bneg
        match acc with
        | none => blockInf t (some sg)
        | some g => if g = sg then blockInf t acc else none
    else blockInf t acc

/-- The 32 elements of a block: a short one is read as if padded with zero elements (R71). -/
def ABlock.padded (a : ABlock) : List AElem := a.els ++ List.replicate (32 - a.els.length) ({ zero := true } : AElem)

/-- `BlockSum` of an A block and column `j`'s block `kb` of a bank (R73). -/
def blockSum (a : ABlock) (bk : Bank) (kb j : Nat) : Sum :=
  let fl := bk.flags.get {} (kb * 128 + j)
  if a.nan || fl.nan then .nan
  else
    let ks := (List.range 32).zip a.padded
    match blockInf (ks.map (fun p => (p.2, fl.inf.getLsbD p.1, fl.neg.getLsbD p.1, fl.zero.getLsbD p.1))) none with
    | none => .nan
    | some (some g) => .inf g
    | some none =>
      let s := ks.foldl (fun (acc : Int) p =>
        let c := bk.cells.get 0 ((kb * 32 + p.1) * 128 + j)
        let v : Int := (p.2.q * (c.extractLsb' 0 15).toNat : Nat)
        if p.2.neg != c.getLsbD 15 then acc - v else acc + v) 0
      .fin s (a.x + (bk.exps.get 0 (kb * 128 + j)).toInt)

/-! Accumulation. -/

/-- The smallest exponent at which S × 2^(Z − e) fits 32 bits (R75). -/
def fitExp (s z : Int) : Int :=
  let l := s.natAbs.log2
  if s < 0 ∧ s.natAbs = 2 ^ l then z + l - 31 else z + l - 30

/-- A segment of a row is empty (R74). -/
def Tile.segEmpty (t : Tile) (i g : Nat) : Bool :=
  (List.range 16).all (fun c => t.acc.get 0 (i * 128 + g * 16 + c) == 0 && t.spc.get 0 (i * 128 + g * 16 + c) == 0)

/-- Set status bits. -/
def Tile.flag (t : Tile) (b : BitVec 8) : Tile := { t with status := t.status ||| b }

/-- A finite contribution to an element (R75). -/
def Tile.addFin (t : Tile) (ix : Nat) (e : Int) (s z : Int) : Tile :=
  let sh := z - e
  let v : Int := if 0 ≤ sh then s * 2 ^ sh.toNat else s / 2 ^ (-sh).toNat
  let lost := decide (sh < 0) && s % 2 ^ (-sh).toNat != 0
  let t := if lost then t.flag 4 else t
  let x := (t.acc.get 0 ix).toInt + v
  if x > 2 ^ 39 - 1 then ({ t with acc := t.acc.set 0 ix (BitVec.ofInt 40 (2 ^ 39 - 1)) } : Tile).flag 8
  else if x < -(2 ^ 39) then ({ t with acc := t.acc.set 0 ix (BitVec.ofInt 40 (-(2 ^ 39))) } : Tile).flag 8
  else { t with acc := t.acc.set 0 ix (BitVec.ofInt 40 x) }

/-- One contribution to an element (R75). -/
def Tile.contribute (t : Tile) (ix : Nat) (e : Int) : Sum → Tile
  | .nan => { t with spc := t.spc.set 0 ix 3 }
  | .inf neg =>
    let q : BitVec 2 := if neg then 2 else 1
    let old := t.spc.get 0 ix
    if old = 0 then { t with spc := t.spc.set 0 ix q }
    else if old ≠ 3 ∧ old ≠ q then { t with spc := t.spc.set 0 ix 3 }
    else t
  | .fin s z => if t.spc.get 0 ix = 0 then t.addFin ix e s z else t

/-- `Accumulate` on one segment of row `i`, whose columns below `n` take part (R75, spec/08_tile.md R173). -/
def Tile.accumulate (t : Tile) (i g n : Nat) (ints : Bool) (sums : Nat → Sum) : Tile :=
  let js := ((List.range 16).map (fun c => g * 16 + c)).filter (fun j => decide (j < n))
  let cs := js.map (fun j => (j, sums j))
  let es := cs.filterMap (fun c => match c.2 with | .fin s z => if s = 0 then none else some (fitExp s z) | _ => none)
  let t := match es with
    | [] => t
    | e :: r =>
      if t.segEmpty i g then
        { t with sexp := t.sexp.set 0 (i * 8 + g) (if ints then 0 else BitVec.ofInt 16 (r.foldl max e)) }
      else t
  let e := (t.sexp.get 0 (i * 8 + g)).toInt
  cs.foldl (fun t c => t.contribute (i * 128 + c.1) e c.2) t

/-- One K-block of a row (R75). -/
def Tile.accumulateBlock (t : Tile) (i n : Nat) (ints : Bool) (a : ABlock) (bk : Bank) (kb : Nat) : Tile :=
  let t := if a.trunc then t.flag 1 else t
  let t := if a.code then t.flag 16 else t
  (List.range 8).foldl (fun t g => t.accumulate i g n ints (fun j => blockSum a bk kb j)) t

/-- `ClearRow` (spec/08_tile.md R173). -/
def Tile.clearRow (t : Tile) (i : Nat) : Tile :=
  { t with
    acc := t.acc.filter (fun e => e.1 / 128 != i)
    spc := t.spc.filter (fun e => e.1 / 128 != i)
    sexp := t.sexp.filter (fun e => e.1 / 8 != i)
    rowPoison := t.rowPoison &&& ~~~ (1#128 <<< i) }

/-- `tzero` (spec/08_tile.md R174): the tile is CLEAR; shape and status byte are kept. -/
def Tile.zero (t : Tile) : Tile := { t with st := .clear, acc := [], spc := [], sexp := [], rowPoison := 0 }

/-- The smallest n at which a value fits 32 bits after a right shift by n (R77). -/
def shiftFit (v : Int) : Nat :=
  let l := v.natAbs.log2
  if v = 0 then 0 else if v < 0 ∧ v.natAbs = 2 ^ l then l - 31 else l - 30

/-- `Normalise` (R77). -/
def Tile.normalise (t : Tile) (i g : Nat) : Tile :=
  let ix := ((List.range 16).map (fun c => i * 128 + g * 16 + c)).filter (fun k => t.spc.get 0 k == 0)
  let n := (ix.map (fun k => shiftFit (t.acc.get 0 k).toInt)).foldl max 0
  if n = 0 then t
  else
    let t := ix.foldl (fun t k =>
      let v := (t.acc.get 0 k).toInt
      let t := if v % 2 ^ n ≠ 0 then t.flag 4 else t
      { t with acc := t.acc.set 0 k (BitVec.ofInt 40 (v / 2 ^ n)) }) t
    { t with sexp := t.sexp.set 0 (i * 8 + g) (t.sexp.get 0 (i * 8 + g) + BitVec.ofNat 16 n) }

/-- `tnorm` (spec/08_tile.md R174). -/
def Tile.normAll (t : Tile) : Tile :=
  (List.range 128).foldl (fun t i => (List.range 8).foldl (fun t g => t.normalise i g) t) t

/-! Drains. -/

/-- The value of an element (R78). -/
def Tile.value (t : Tile) (i j : Nat) : Num :=
  match (t.spc.get 0 (i * 128 + j)).toNat with
  | 1 => .inf false
  | 2 => .inf true
  | 3 => .nan
  | _ =>
    let v := (t.acc.get 0 (i * 128 + j)).toInt
    .fin (decide (v < 0)) v.natAbs (t.sexp.get 0 (i * 8 + j / 16)).toInt

/-- `Drain` (R78): the bits of an output element. -/
def drainBits (fm : Nat) (mode : Mode) (sat : Bool) (x : Num) : Nat :=
  match fmtOf fm with
  | some f => f.round mode sat x
  | none => bitsOfInt 32 (roundInt 32 mode x)

/-! Tile commands (spec/08_tile.md R158 to R160). -/

/-- The kind of a tile command (R160). -/
inductive TKind
  | cfg | load | swap | mma | mmaz | zero | norm | drain
  deriving DecidableEq, Repr

/-- What an entry's command is: kind, tile, semaphore fields, stride in bytes, `clr`. -/
structure TCmd where
  kind : TKind
  t : Nat
  wsem : Nat
  wcnt : Nat
  ssem : Nat
  scnt : Nat
  stride : Nat := 0
  clr : Bool := false
  deriving DecidableEq, Repr

def tcmd (i : Instr) : Option TCmd :=
  let mk := fun (kind : TKind) (d : BitVec 6) (ws wc ss sc : BitVec 4) (st : BitVec 10) (z : BitVec 1) =>
    some ({ kind := kind, t := d.toNat, wsem := ws.toNat, wcnt := wc.toNat, ssem := ss.toNat, scnt := sc.toNat,
            stride := st.toNat * 16, clr := z == 1 } : TCmd)
  match i with
  | .tcfg _ d _ ws wc ss sc => mk .cfg d ws wc ss sc 0 0
  | .wload _ d _ _ ws wc ss sc st => mk .load d ws wc ss sc st 0
  | .wswap _ d ws wc ss sc => mk .swap d ws wc ss sc 0 0
  | .tmma _ d _ _ ws wc ss sc st => mk .mma d ws wc ss sc st 0
  | .tmmaZ _ d _ _ ws wc ss sc st => mk .mmaz d ws wc ss sc st 0
  | .tzero _ d ws wc ss sc => mk .zero d ws wc ss sc 0 0
  | .tnorm _ d ws wc ss sc => mk .norm d ws wc ss sc 0 0
  | .tdrain _ d _ ws wc ss sc st z => mk .drain d ws wc ss sc st z
  | _ => none

/-- An earlier command to the same tile that must be COMPLETE before `k` starts (R160). -/
def TKind.needs (k e : TKind) : Bool :=
  match k with
  | .cfg => false
  | .load => e == .load || e == .swap
  | .swap => true
  | .mma => e == .swap || e == .mmaz || e == .zero || e == .norm || e == .drain
  | _ => e != .cfg && e != .load

/-- An entry's command waits for an older one of its tile (R160). -/
def Core.tileBlocked (co : Core) (e : MEntry) (cmd : TCmd) : Bool :=
  (co.mq.takeWhile (fun o => o.id != e.id)).any (fun o => o.st != .complete && (match tcmd o.instr with
    | some oc => oc.t == cmd.t && cmd.kind.needs oc.kind
    | none => false))

end Sys2Proof.Machine
end

