-- ==== Sys2Proof/Machine/Refine.lean ====
section
/-! DEFINITION. The refinement loop controller: its block, its status word and its five instructions
(spec/17_refinement.md R349 to R360). -/

namespace Sys2Proof.Machine

/-! The block (R350). -/

/-- A word of the block. -/
def Rlc.word (r : Rlc) (i : Nat) : Word := r.block.get 0 i
def Rlc.maxit (r : Rlc) : Nat := bitsOf (r.word 0) 32 16
def Rlc.ns (r : Rlc) : Nat := bitsOf (r.word 0) 24 4
def Rlc.plad (r : Rlc) : Nat := bitsOf (r.word 0) 20 2
def Rlc.pdiv (r : Rlc) : Nat := bitsOf (r.word 0) 18 2
def Rlc.pstg (r : Rlc) : Nat := bitsOf (r.word 0) 16 2
def Rlc.nrm1 (r : Rlc) : Nat := bitsOf (r.word 0) 0 2
/-- `TAU`, `RHOS` and `RHOD` as FP32 bit patterns. -/
def Rlc.tau (r : Rlc) : Nat := bitsOf (r.word 1) 0 32
def Rlc.rhos (r : Rlc) : Nat := bitsOf (r.word 1) 32 32
def Rlc.rhod (r : Rlc) : Nat := bitsOf (r.word 2) 0 32
/-- The record of a rung: format word and term count − 1. -/
def Rlc.fmt (r : Rlc) (k : Nat) : BitVec 32 := (r.word (7 + k)).extractLsb' 0 32
def Rlc.trm1 (r : Rlc) (k : Nat) : Nat := bitsOf (r.word (7 + k)) 32 2

/-- An FP32 bit pattern as an exact number. -/
def fp32Num (b : Nat) : Num := Fmt.fp32.value b

/-- A norm or tolerance is NaN, infinite or negative; −0 counts as zero (R351, R357). -/
def Num.unfit : Num → Bool
  | .nan => true
  | .inf _ => true
  | .fin neg m _ => neg && m != 0

/-- NaN, infinite, zero or negative (R351). -/
def Num.notPositive : Num → Bool
  | .fin neg m _ => neg || m == 0
  | _ => true

/-- A used rung is legal (R351, spec/08_tile.md R155). -/
def Rlc.rungOk (r : Rlc) (k : Nat) : Bool :=
  let f := r.fmt k
  r.trm1 k != 3 && (f.extractLsb' 15 17).toNat == 0 && operandFmt (wordAF f) && operandFmt (wordBF f) && outputFmt (wordOF f)

/-- The block is good (R351). -/
def Rlc.good (r : Rlc) : Bool :=
  let z := fun (i lo n : Nat) => bitsOf (r.word i) lo n == 0
  z 0 48 16 && z 0 28 4 && z 0 22 2 && z 0 2 14 && z 2 32 32 &&
  ([3, 4, 5, 6]).all (fun i => z i 48 16 && !z i 0 48 && z i 0 2) &&
  ([0, 1, 2, 3]).all (fun k => z (7 + k) 34 30 && (if k ≤ r.nrm1 then r.rungOk k else r.word (7 + k) == 0)) &&
  (List.range 21).all (fun i => r.word (11 + i) == 0) &&
  r.maxit != 0 && r.ns != 0 && decide (r.plad ≤ 1) && decide (r.pdiv ≤ 2) && decide (r.pstg ≤ 1) &&
  !(fp32Num r.tau).unfit && !(fp32Num r.rhos).notPositive && !(fp32Num r.rhod).notPositive

/-- The block as 32 words. -/
def blockTable (ws : List Word) : Tbl Word := (Tbl.setRange 0 [] 0 ws : Tbl Word)

/-- `rlc.run` of a block (R353): `STATE` 1 is ACTIVE, 2 EXITED, 3 TRAPPED. -/
def Rlc.load (ws : List Word) : Rlc :=
  let r : Rlc := { held := true, block := blockTable ws, state := 1 }
  if r.good then r else { state := 2, exit := 6 }

/-- The status word (R352). -/
def Rlc.status (r : Rlc) : Word :=
  r.itot ++ (r.iter ++ (r.sc ++ (0#4 ++ (r.esc ++ (0#4 ++ (r.exit ++ (0#2 ++ (r.rung ++ (0#1 ++ (r.nstep ++ (0#1 ++ r.state)))))))))))

/-- The words of the state record behind the block in a core record (R349). -/
def Rlc.recordWords (r : Rlc) : List Word :=
  let word := fun (v : Option (BitVec 32)) (left : BitVec 32) => match v with | none => zx left | some v => 0x100000000#64 ||| zx v
  [r.status, r.norms, word r.r0 r.r0left, word r.rprev r.rprevLeft, 0, 0, 0, 0]

/-- Another status word: a block is held but in IDLE and after a bad block (R353). -/
def Rlc.setStatus (r : Rlc) (w : Word) : Rlc :=
  { r with
    itot := w.extractLsb' 48 16, iter := w.extractLsb' 32 16, sc := w.extractLsb' 28 4, esc := w.extractLsb' 20 4
    exit := w.extractLsb' 12 4, rung := w.extractLsb' 8 2, nstep := w.extractLsb' 4 3, state := w.extractLsb' 0 3
    held := w.extractLsb' 0 3 != 0 && w.extractLsb' 12 4 != 6 }

/-- Another word of the state record. -/
def Rlc.setRecordWord (r : Rlc) (j : Nat) (w : Word) : Rlc :=
  let v := w.extractLsb' 0 32
  let kept := if w.getLsbD 32 then some v else none
  match j with
  | 0 => r.setStatus w
  | 1 => { r with norms := w }
  | 2 => { r with r0 := kept, r0left := v }
  | 3 => { r with rprev := kept, rprevLeft := v }
  | _ => r

/-! Reading a block through the task's version (R355). -/

/-- What reading a block comes to. -/
inductive BlockRead
  | ok (ws : List Word) (s : State)
  | poison (s : State)
  | fault
  deriving DecidableEq

/-- `n` words of H space from an 8-byte aligned address on, as `ld.h` reads (spec/10_phase.md R214), for group `g`
of context `ctx`, after the acquire `rf`. -/
def State.readWords (s : State) (ctx g rf va : Nat) : Nat → BlockRead
  | 0 => .ok [] s
  | n + 1 =>
    match s.hPhys ctx va .rd with
    | none => .fault
    | some pa =>
      let r := s.readH g rf va pa 8
      if r.2.1 then .poison r.2.2
      else match r.2.2.readWords ctx g rf (va + 8) n with
        | .ok ws s' => .ok (extended r.1 :: ws) s'
        | .poison s' => .poison s'
        | .fault => .fault

/-- Change the controller of the moving strand's core. -/
def State.modRlc (s : State) (f : Rlc → Rlc) : State := s.modCore s.core (fun c => { c with rlc := f c.rlc })

/-- `rlc.run` (R355). -/
def execRlcRun (pre : Pre) (a : BitVec 6) (s : State) : Res :=
  issue (.rlcRun pre a) s (fun s =>
    let r := s.me.rd a
    unlessPoison r.poison (
      if r.v.toNat % 256 ≠ 0 then .trap 0x09 r.v 0
      else match s.readWords s.myCtx s.grp s.me.mark.rf r.v.toNat 32 with
        | .fault => .fatal 0x80
        | .poison s' => .containAt s' 0x40
        | .ok ws s' => .done (s'.modRlc (fun _ => Rlc.load ws))))

/-- The entry of the next step (R356): 0 FACTOR, 1 RESIDUAL, 2 TESTWAIT, 3 SOLVE, 4 UPDATE. -/
def Rlc.entry (r : Rlc) : Word :=
  match r.nstep.toNat with
  | 0 => r.word 3
  | 1 => r.word 5
  | 2 => r.word 5
  | 3 => r.word 4
  | _ => r.word 6

/-- The step after it (R356). -/
def Rlc.after (r : Rlc) : BitVec 3 :=
  match r.nstep.toNat with
  | 0 => 1
  | 1 => 2
  | 2 => 2
  | 3 => 4
  | _ => 1

/-- `rlc.next` (R356). -/
def execRlcNext (pre : Pre) (n k : BitVec 6) (s : State) : Res :=
  issue (.rlcNext pre n k) s (fun s =>
    let r := s.myCore.rlc
    if r.state = 3 then .trap (if r.exit = 3 then 0x15 else 0x16) (zx r.rung) 0
    else if r.state ≠ 1 then .done (s.modMe (fun t => t.wrP k.toNat { v := false }))
    else
      .done ((s.modMe (fun t => (t.prepare n.toNat (r.entry.extractLsb' 0 48) s.myCgen).wrP k.toNat { v := true })).modRlc
        (fun r => { r with nstep := r.after })))

/-- The verdict of a test (R357). -/
inductive Verdict
  | none | conv | stag | div
  deriving DecidableEq, Repr

/-- A counter that saturates. -/
def satInc {n : Nat} (v : BitVec n) (most : Nat) : BitVec n := BitVec.ofNat n (min (v.toNat + 1) most)

/-- The test of the norms: the verdict and the controller that keeps `R0`, `RPREV`, `SC` and the counts. -/
def Rlc.judge (q : Rlc) (xa : Word) : Verdict × Rlc :=
  let rb := xa.extractLsb' 0 32
  let r := fp32Num rb.toNat
  let x := fp32Num (bitsOf xa 32 32)
  let q := { q with iter := q.iter + 1, itot := satInc q.itot 65535, norms := xa }
  if r.unfit || x.unfit then (.div, q)
  else
    let q := { q with r0 := some (q.r0.getD rb), r0left := q.r0.getD rb }
    let above := fun (ratio : Nat) (ref : BitVec 32) => Num.lt false (Num.mul (fp32Num ratio) (fp32Num ref.toNat)) r
    if !Num.lt false (Num.mul (fp32Num q.tau) x) r then (.conv, { q with rprev := some rb, rprevLeft := rb })
    else if above q.rhod (q.r0.getD 0) then (.div, { q with rprev := some rb, rprevLeft := rb })
    else
      let slow := match q.rprev with | Option.none => false | some p => above q.rhos p
      let q := { q with sc := if slow then satInc q.sc 15 else 0, rprev := some rb, rprevLeft := rb }
      (if decide (q.ns ≤ q.sc.toNat) || decide (q.maxit ≤ q.iter.toNat) then .stag else .none, q)

/-- Climb to the next rung, or find the ladder exhausted (R353). -/
def Rlc.escalate (q : Rlc) : Rlc :=
  if q.rung.toNat < q.nrm1 then
    { q with rung := q.rung + 1, iter := 0, sc := 0, r0 := none, rprev := none, esc := q.esc + 1, nstep := 0 }
  else { q with exit := 4, state := if q.plad = 1 then 2 else 3 }

/-- Act on a verdict (R353), and the code that `rlc.test` returns (R357). -/
def Rlc.act (q : Rlc) (e : Verdict) : Rlc × Word :=
  let last := decide (q.rung.toNat = q.nrm1)
  match e with
  | .none => ({ q with nstep := 3 }, 0)
  | .conv => ({ q with exit := 1, state := 2 }, 1)
  | .stag => if q.pstg = 0 then (q.escalate, if last then 4 else 2) else ({ q with exit := 2, state := 2 }, 2)
  | .div =>
    if q.pdiv = 0 then (q.escalate, if last then 4 else 3)
    else if q.pdiv = 1 then ({ q with exit := 3, state := 3 }, 3)
    else ({ q with exit := 3, state := 2 }, 3)

/-- `rlc.test` (R357). -/
def execRlcTest (pre : Pre) (d a : BitVec 6) (s : State) : Res :=
  issue (.rlcTest pre d a) s (fun s =>
    let x := s.me.rd a
    unlessPoison x.poison (
      let q := s.myCore.rlc
      if q.state ≠ 1 ∨ q.nstep ≠ 2 then scalarResult d { v := 5 } s
      else
        let j := q.judge x.v
        let r := j.2.act j.1
        scalarResult d { v := r.2 } (s.modRlc (fun _ => r.1))))

/-- What `rlc.stat` reads (R358). -/
def Rlc.stat (q : Rlc) (sel : Nat) : Word :=
  match sel with
  | 0 => q.status
  | 1 => if q.held then zx (q.fmt q.rung.toNat) else 0
  | 2 => if q.held then BitVec.ofNat 64 (q.trm1 q.rung.toNat + 1) else 0
  | 3 => q.norms
  | _ => match q.r0 with | none => zx q.r0left | some v => 0x100000000#64 ||| zx v

/-- `rlc.stat` (R358). -/
def execRlcStat (pre : Pre) (d sel : BitVec 6) (s : State) : Res :=
  issue (.rlcStat pre d sel) s (fun s => scalarResult d { v := s.myCore.rlc.stat sel.toNat } s)

/-- `rlc.end` (R359). -/
def execRlcEnd (pre : Pre) (s : State) : Res :=
  issue (.rlcEnd pre) s (fun s => .done (s.modRlc (fun _ => {})))

end Sys2Proof.Machine
end

