-- ==== Sys2Proof/Machine/Head.lean ====
section
/-! DEFINITION. The heads of the engine queues: when the engines of a core run, what a matrix command needs to go on
(spec/08_tile.md R159 to R164), and what an entry of the C, M or V queue takes before it starts (spec/05_strand.md R88,
spec/13_barrier.md R266, R423). -/

namespace Sys2Proof.Machine

/-- The group of a core. -/
def State.coreGrp (s : State) (c : Nat) : Nat := ((s.coreAt c).group).getD 0

/-- The engines of a core work for a group. -/
def State.enginesLive (s : State) (c : Nat) : Bool :=
  match s.groupOf c with
  | none => false
  | some g => match s.groups.find? g with
    | none => false
    | some x => (x.st == .running || x.st == .saving || x.st == .exiting) && x.contain.isNone

/-- The engines of a core start entries: a group that is not leaving holds it and it is not gated (spec/16_context.md
R335). -/
def State.engineRuns (s : State) (c : Nat) : Bool :=
  !(s.coreAt c).gated && s.enginesLive c && (match (s.groupOf c).bind (fun g => s.groups.find? g) with
    | none => false
    | some x => x.st != .saving)

/-- The context of a core's group. -/
def State.coreCtx (s : State) (c : Nat) : Nat := ({ s with core := c } : State).myCtx

/-- Tokens that an entry takes from each FIFO that its ring bits name (spec/13_barrier.md R268). -/
def takeCount (i : Instr) : Nat := match i with | .tokpop _ n _ => n.toNat | _ => 1

/-- A tile that another group holds in place (R163). -/
def Tile.foreign (t : Tile) (g : Nat) : Bool := (t.st == .held || t.st == .scanning) && t.owner != some g
/-- A bank that another group holds in place (R164). -/
def Bank.foreign (b : Bank) (g : Nat) : Bool := (b.st == .held || b.st == .scanning) && b.owner != some g

/-- Rows of a running command: columns for `wload` (R162). -/
def TCmd.rows (c : TCmd) (shape : Word) : Nat :=
  match c.kind with
  | .load => if shapeK shape = 0 then 0 else shapeN shape
  | .mma => if shapeN shape = 0 ∨ shapeK shape = 0 then 0 else shapeM shape
  | .mmaz => if shapeN shape = 0 ∨ shapeK shape = 0 then 0 else shapeM shape
  | .drain => if shapeN shape = 0 then 0 else shapeM shape
  | _ => 0

/-- The S ranges of one row or column of a command: address and bytes. -/
def TCmd.lineRanges (c : TCmd) (e : MEntry) (i : Nat) : List (Nat × Nat) :=
  let line := e.a.toNat + i * c.stride
  let k := shapeK e.shape
  let src := fun fm : Nat =>
    (line, lineBytes fm k) :: (if fm = 9 then [(e.b.toNat + i * kBlocks k, kBlocks k)] else [])
  match c.kind with
  | .load => src (wordBF e.word)
  | .mma => src (wordAF e.word)
  | .mmaz => src (wordAF e.word)
  | .drain => [(line, (shapeN e.shape * codeWidth (wordOF e.word)) / 8)]
  | _ => []

/-- Where the S ranges of a command lie, from its row or column `e.row` on. -/
def State.tileRanges (s : State) (c : Nat) (cmd : TCmd) (e : MEntry) : SLoc :=
  let rs := ((List.range (cmd.rows e.shape)).drop e.row).flatMap (cmd.lineRanges e)
  let ls := rs.map (fun r => s.sLoc c (s.coreGrp c) r.1 r.2)
  if ls.any (fun l => l == .outside) then .outside
  else if ls.any (fun l => l == .absent) then .absent
  else .ok []

/-- The tile and the banks that a command uses are not held in place for another group (R163, R164). -/
def unclaimed (co : Core) (g : Nat) (cmd : TCmd) : Bool :=
  let b := co.bank cmd.t
  !(co.tile cmd.t).foreign g &&
  (match cmd.kind with
   | .load => !b.shadow.foreign g
   | .swap => !b.shadow.foreign g && !b.active.foreign g
   | .mma => !b.active.foreign g
   | .mmaz => !b.active.foreign g
   | _ => true)

/-- The semaphore count that an entry takes before it starts: of major 0x70 (spec/13_barrier.md R267) or a tile command's
`WCNT` (spec/08_tile.md R159); and the one that an entry of major 0x70 adds at its retirement. -/
def waitCount (i : Instr) : Nat × Nat :=
  match i with
  | .kwait _ k n _ => (k.toNat, n.toNat)
  | i => match tcmd i with
    | some cmd => (cmd.wsem, cmd.wcnt)
    | none => (0, 0)
def signalCount (i : Instr) : Nat × Nat :=
  match i with
  | .ksig _ k n _ => (k.toNat, n.toNat)
  | _ => (0, 0)

/-- The oldest QUEUED entry of a core's matrix queue, where nothing but tokens and its count keeps it from starting (R159): the
tiles and banks it uses are not held in place for another group (R163, R164), and the scratchpad pieces it needs are there. -/
def State.matrixReady (s : State) (c : Nat) : Option Instr :=
  let co := s.coreAt c
  match co.mq.find? (fun e => e.st == .queued) with
  | none => none
  | some e =>
    if !s.engineRuns c || co.mq.any (fun o => o.st == .stopped) then none
    else match tcmd e.instr with
      | none => some e.instr
      | some cmd =>
        if co.tileBlocked e cmd || !unclaimed co (s.coreGrp c) cmd ||
          s.tileRanges c cmd { e with shape := (co.tile cmd.t).shape } == .absent then none
        else some e.instr

/-- The head of a core's copy queue, where it has yet to take what it needs. -/
def State.copyReady (s : State) (c : Nat) : Option Instr :=
  match (s.coreAt c).cq with
  | [] => none
  | e :: _ => if !s.engineRuns c || e.taken then none else some e.instr

/-- Waits that come before engine `en` at a semaphore: the strands', then the heads of the C and the M queue that could
be served (spec/13_barrier.md R266, R423). -/
def State.semFirst (s : State) (c : Nat) (en : Engine) (k : Nat) : Bool :=
  let co := s.coreAt c
  let head := fun (en : Engine) (i : Option Instr) => match i with
    | some i => let w := waitCount i; w.2 != 0 && w.1 == k && decide (w.2 ≤ co.avail (8 + k)) && (co.take en (instrPre i) (takeCount i)).isSome
    | none => false
  co.strandFirst k ||
  (match en with
    | .V => head .C (s.copyReady c) || head .M (s.matrixReady c)
    | .M => head .C (s.copyReady c)
    | _ => false)

/-- What an entry takes before it starts: its ring tokens and its semaphore count, all of them or none; and
what they hand on. -/
def State.startTake (s : State) (c : Nat) (en : Engine) (i : Instr) : Option (Core × Mark) :=
  match (s.coreAt c).take en (instrPre i) (takeCount i) with
  | none => none
  | some (co, m) =>
    let w := waitCount i
    if w.2 ≠ 0 ∧ s.semFirst c en w.1 then none
    else match co.semTake w.1 w.2 with
    | none => none
    | some (co, m2) => some (co, m.join m2)

end Sys2Proof.Machine
end

