-- ==== Sys2Proof/Machine/Vector.lean ====
section
/-! DEFINITION. The vector engine: elements and `VT` (spec/07_vector.md R128 to R133), what each entry does
when it starts (R137 to R153), the issue of every vector instruction, and the start and the completion of
entries (spec/05_strand.md R86, R91). -/

namespace Sys2Proof.Machine

/-! Elements. -/

/-- The settings of a `VT` value (R131). -/
structure VCfg where
  et : Nat
  mode : Mode
  sat : Bool
  am : Nat
  bt : Nat
  deriving DecidableEq, Repr

def vcfgOf (vt : BitVec 16) : VCfg :=
  { et := (vt.extractLsb' 0 4).toNat, mode := modeOf (vt.extractLsb' 4 2), sat := vt.getLsbD 6,
    am := (vt.extractLsb' 7 3).toNat, bt := (vt.extractLsb' 10 2).toNat }

/-- Element width and element count of a format (R128, R141). -/
def VCfg.w (c : VCfg) : Nat := codeWidth c.et
def VCfg.n (c : VCfg) : Nat := 2048 / c.w
def perReg (fm : Nat) : Nat := if fm = 9 then 256 else 2048 / codeWidth fm

/-- The elements of a register, element 0 first (R128). -/
def elems (w n : Nat) (v : BitVec 2048) : List Nat := (List.range n).map (fun i => v.toNat / 2 ^ (w * i) % 2 ^ w)

/-- Elements put together, element 0 lowest. -/
def joinNat (w : Nat) : List Nat → Nat
  | [] => 0
  | x :: xs => x % 2 ^ w + 2 ^ w * joinNat w xs
def joined (w : Nat) (l : List Nat) : BitVec 2048 := BitVec.ofNat 2048 (joinNat w l)

/-- The element formed from a scalar (R130). -/
def formElem (c : VCfg) (v : Word) : Nat :=
  match fmtOf c.et with
  | some _ => v.toNat % 2 ^ c.w
  | none => if c.sat then fitInt c.w true v.toInt else v.toNat % 2 ^ c.w

/-- A vector source field; a broadcast takes the scalar read at issue (R29, R130, R134). -/
def Strand.vsrc (t : Strand) (rb : BitVec 4) (c : VCfg) (f : BitVec 6) (sr : Reg) : VReg :=
  let n := f.toNat
  if n < 32 then t.vr.get {} (physV rb n)
  else if n < 40 then t.w.get {} (n - 32)
  else if n < 42 then t.z.get {} (n - 40)
  else if n < 60 then { v := joined c.w (List.replicate c.n (formElem c sr.v)), poison := sr.poison }
  else {}

/-- A destination as an instruction reads it; 60 reads zero (R132, R137, R145). -/
def Strand.vold (t : Strand) (rb : BitVec 4) (d : BitVec 6) : VReg :=
  if d.toNat < 32 then t.vr.get {} (physV rb d.toNat)
  else if d.toNat < 40 then t.w.get {} (d.toNat - 32)
  else {}

/-- Write the register that a vector destination field names; 60 names none (R29). -/
def Strand.vwr (t : Strand) (rb : BitVec 4) (d : BitVec 6) (r : VReg) : Strand :=
  if d.toNat < 32 then { t with vr := t.vr.set {} (physV rb d.toNat) r }
  else if d.toNat < 40 then { t with w := t.w.set {} (d.toNat - 32) r }
  else t

/-- A result enters the vector last-result file (R129). -/
def Strand.shiftZ (t : Strand) (r : VReg) : Strand := { t with z := (t.z.set {} 1 (t.z.get {} 0)).set {} 0 r }

/-- A vector result (R129). -/
def Strand.vresult (t : Strand) (rb : BitVec 4) (d : BitVec 6) (r : VReg) : Strand := (t.vwr rb d r).shiftZ r

/-- Results of a register group based at v`d`: `z0` takes the first (R129, R141). -/
def Strand.vgroup (t : Strand) (rb : BitVec 4) (d : BitVec 6) (rs : List VReg) : Strand :=
  let t' := ((List.range rs.length).zip rs).foldl (fun t p => t.vwr rb (BitVec.ofNat 6 ((d.toNat + p.1) % 32)) p.2) t
  t'.shiftZ (rs.headD {})

/-- Element `i` is active (R132). -/
def MReg.bit (m : MReg) (i : Nat) : Bool := m.v.getLsbD i

/-- New elements where the active mask is set, old elements elsewhere. -/
def blend (m : MReg) (new old : List Nat) : List Nat :=
  ((List.range new.length).zip (new.zip old)).map (fun p => if m.bit p.1 then p.2.1 else p.2.2)

/-! Operations on elements. -/

/-- The arithmetic of R137: add, sub, mul, fma, fms, fnma, min, max. -/
inductive VOp
  | add | sub | mul | fma | fms | fnma | min | max
  deriving DecidableEq, Repr

/-- The exact floating-point result before rounding. -/
def VOp.exact (op : VOp) (mode : Mode) (a b d : Num) : Num :=
  match op with
  | .add => a.add mode b
  | .sub => a.add mode b.neg
  | .mul => a.mul b
  | .fma => (a.mul b).add mode d
  | .fms => (a.mul b).add mode d.neg
  | .fnma => d.add mode (a.mul b).neg
  | .min => if a.lt true b then a else b
  | .max => if a.lt true b then b else a

/-- The exact integer result. -/
def VOp.exactInt (op : VOp) (a b d : Int) : Int :=
  match op with
  | .add => a + b
  | .sub => a - b
  | .mul => a * b
  | .fma => a * b + d
  | .fms => a * b - d
  | .fnma => d - a * b
  | .min => if a < b then a else b
  | .max => if a < b then b else a

/-- One element of R137, R138. -/
def vArith (op : VOp) (c : VCfg) (a b d : Nat) : Nat :=
  match fmtOf c.et with
  | some f =>
    match op with
    | .min => if (f.value a).isNan || (f.value b).isNan then f.nan else if (f.value a).lt true (f.value b) then a else b
    | .max => if (f.value a).isNan || (f.value b).isNan then f.nan else if (f.value a).lt true (f.value b) then b else a
    | _ => f.round c.mode c.sat (op.exact c.mode (f.value a) (f.value b) (f.value d))
  | none => fitInt c.w c.sat (op.exactInt (intOf c.w a) (intOf c.w b) (intOf c.w d))

/-- Logic and shifts of R137 on element bits: and, or, xor, sll, srl, sra. -/
inductive VLog
  | and | or | xor | sll | srl | sra
  deriving DecidableEq, Repr

def vLogic (op : VLog) (w a b : Nat) : Nat :=
  match op with
  | .and => a &&& b
  | .or => a ||| b
  | .xor => a ^^^ b
  | .sll => a * 2 ^ (b % w) % 2 ^ w
  | .srl => a / 2 ^ (b % w)
  | .sra => bitsOfInt w (intOf w a / 2 ^ (b % w))

/-- A comparison of R139: eq, ne, lt, le. -/
def vCompare (cond : BitVec 2) (c : VCfg) (a b : Nat) : Bool :=
  match fmtOf c.et with
  | some f =>
    let x := f.value a
    let y := f.value b
    if x.isNan || y.isNan then cond == 1
    else
      let lt := x.lt false y
      let gt := y.lt false x
      match cond.toNat with
      | 0 => !lt && !gt
      | 1 => lt || gt
      | 2 => lt
      | _ => !gt
  | none =>
    let x := intOf c.w a
    let y := intOf c.w b
    match cond.toNat with
    | 0 => decide (x = y)
    | 1 => decide (x ≠ y)
    | 2 => decide (x < y)
    | _ => decide (x ≤ y)

/-- A conversion between element formats (R64, R141). -/
def vConvert (sf df : Nat) (mode : Mode) (sat : Bool) (b : Nat) : Nat :=
  match fmtOf sf, fmtOf df with
  | some f, some g => g.round mode sat (f.value b)
  | none, some g => g.round mode sat (Num.ofInt (intOf (codeWidth sf) b))
  | some f, none => bitsOfInt (codeWidth df) (roundInt (codeWidth df) mode (f.value b))
  | none, none => fitInt (codeWidth df) sat (intOf (codeWidth sf) b)

/-- The exact value of an element. -/
def elemNum (fm b : Nat) : Num :=
  match fmtOf fm with
  | some f => f.value b
  | none => Num.ofInt (intOf (codeWidth fm) b)

/-- A number rounded into a vector element format (R64). -/
def elemOf (fm : Nat) (mode : Mode) (sat : Bool) (x : Num) : Nat :=
  match fmtOf fm with
  | some f => f.round mode sat x
  | none => bitsOfInt (codeWidth fm) (roundInt (codeWidth fm) mode x)

/-- The BLK4 image of R142 read as 256 values. -/
def blkImage (v : BitVec 2048) : List Num :=
  (List.range 256).map (fun k => blkValue (v.toNat / 2 ^ (8 * (128 + k / 32)) % 256) (v.toNat / 2 ^ (4 * k) % 16))

/-- 256 values as the BLK4 image of R142. -/
def toBlkImage (bt : Nat) (mode : Mode) (sat : Bool) (vs : List Num) : BitVec 2048 :=
  let bs := (List.range 8).map (fun b => blkOf bt mode sat ((vs.drop (32 * b)).take 32))
  BitVec.ofNat 2048 (joinNat 4 (bs.flatMap (fun b => b.1)) + 2 ^ 1024 * joinNat 8 (bs.map (fun b => b.2)))

/-- Cut a list into groups of `n`, at most `k` of them. -/
def groupsOf (n : Nat) : Nat → List Nat → List (List Nat)
  | 0, _ => []
  | k + 1, l => l.take n :: groupsOf n k (l.drop n)
def numGroups (n : Nat) : Nat → List Num → List (List Num)
  | 0, _ => []
  | k + 1, l => l.take n :: numGroups n k (l.drop n)

/-- `vcvt` on the members of its source group (R141). -/
def vcvtGroup (sf df : Nat) (c : VCfg) (srcs : List (BitVec 2048)) (gd : Nat) : List (BitVec 2048) :=
  if df = 9 then
    let vals := srcs.flatMap (fun v => (elems (codeWidth sf) (perReg sf) v).map (elemNum sf))
    (numGroups 256 gd vals).map (toBlkImage c.bt c.mode c.sat)
  else
    let pats := if sf = 9 then srcs.flatMap (fun v => (blkImage v).map (elemOf df c.mode c.sat))
      else srcs.flatMap (fun v => (elems (codeWidth sf) (perReg sf) v).map (vConvert sf df c.mode c.sat))
    (groupsOf (perReg df) gd pats).map (joined (codeWidth df))

/-- `Comb` of R148: sum, max, min, and, or. Where one operand is absent the other passes with its bits, a NaN with its
payload and sign too, although spec/04_numbers.md R60 makes every NaN result canonical (DEDUCED, log entry 51). -/
def vComb (op : Nat) (c : VCfg) : Option Nat → Option Nat → Option Nat
  | none, y => y
  | x, none => x
  | some x, some y => some (match op with
    | 0 => vArith .add c x y 0
    | 1 => vArith .max c x y 0
    | 2 => vArith .min c x y 0
    | 3 => x &&& y
    | _ => x ||| y)

/-- One level of the reduction tree (R148). -/
def vLevel (op : Nat) (c : VCfg) : List (Option Nat) → List (Option Nat)
  | x :: y :: t => vComb op c x y :: vLevel op c t
  | l => l

/-- The tree, level by level. -/
def vTree (op : Nat) (c : VCfg) : Nat → List (Option Nat) → List (Option Nat)
  | 0, l => l
  | k + 1, l => vTree op c k (vLevel op c l)

/-- `Vred` (R148). -/
def vReduce (op : Nat) (c : VCfg) (m : MReg) (a : List Nat) : Nat :=
  let t := ((List.range a.length).zip a).map (fun p => if m.bit p.1 then some p.2 else none)
  match (vTree op c 8 t).headD none with
  | some r => r
  | none => if op = 3 then 2 ^ c.w - 1 else 0

/-- `Vscan` (R148). -/
def vScan (op : Nat) (c : VCfg) (m : MReg) : Option Nat → List (Nat × Nat × Nat) → List Nat
  | _, [] => []
  | run, (i, a, old) :: t =>
    if m.bit i then
      let r := vComb op c run (some a)
      r.getD 0 :: vScan op c m r t
    else old :: vScan op c m run t

/-- `vtrn` on the units of a group of eight registers (R147). -/
def vTranspose (u : Nat) (srcs : List (BitVec 2048)) : List (BitVec 2048) :=
  let l := 1024 / u
  let un := srcs.map (elems u (2 * l))
  let at' := fun row col : Nat => ((un.getD (row / 2) []).getD (row % 2 * l + col) 0)
  (List.range 8).map (fun r => joined u ((List.range (2 * l)).map (fun k =>
    let row := 2 * r + k / l
    let cc := k % l
    at' (cc % 16) (cc / 16 * 16 + row))))

/-- The even, or the odd, units of a list (R143). -/
def everyOther (odd : Nat) (l : List Nat) : List Nat :=
  ((List.range (l.length / 2)).map (fun i => l.getD (2 * i + odd) 0))

/-- Two lists interleaved (R143). -/
def interleave (a b : List Nat) : List Nat := (a.zip b).flatMap (fun p => [p.1, p.2])

/-! What an entry does when it starts. -/

/-- What the start of an entry comes to: the state and the scalar result it owes, a partition piece not read
back yet, or an address outside the partition. -/
inductive VOut
  | ok (s : State) (r : Option Reg)
  | absent
  | fatal
  deriving DecidableEq

/-- An entry's strand and settings. -/
structure VCtx where
  c : Nat
  k : Nat
  t : Strand
  rb : BitVec 4
  cfg : VCfg
  am : MReg

def VCtx.of (s : State) (c : Nat) (e : VEntry) : VCtx :=
  let t := s.strandAt c e.owner
  let cfg := vcfgOf t.vt
  { c := c, k := e.owner, t := t, rb := e.rb, cfg := cfg, am := t.rdM cfg.am }

/-- The strand after the entry. -/
def VCtx.put (x : VCtx) (s : State) (t : Strand) : VOut := .ok (s.setStrand x.c x.k t) none

/-- An element is inactive, so that the instruction keeps an old element: it then reads its destination (R132; log
entry 22). -/
def VCtx.keeps (x : VCtx) : Bool := (List.range x.cfg.n).any (fun i => !x.am.bit i)

/-- A result under the active mask, which reads the old destination where it keeps an element of it (R132, R133). -/
def VCtx.masked (x : VCtx) (s : State) (d : BitVec 6) (new : List Nat) (poison : Bool) : VOut :=
  let old := x.t.vold x.rb d
  let r : VReg := { v := joined x.cfg.w (blend x.am new (elems x.cfg.w x.cfg.n old.v)),
                    poison := poison || x.am.poison || (x.keeps && old.poison) }
  x.put s (x.t.vresult x.rb d r)

/-- A result that writes every element. -/
def VCtx.whole (x : VCtx) (s : State) (d : BitVec 6) (r : VReg) : VOut := x.put s (x.t.vresult x.rb d r)

/-- Majors 0x30 to 0x37 (R137). -/
def VCtx.arith (x : VCtx) (s : State) (op : VOp) (fused : Bool) (d a b : BitVec 6) (e : VEntry) : VOut :=
  let ra := x.t.vsrc x.rb x.cfg a e.s1
  let rb := x.t.vsrc x.rb x.cfg b e.s2
  let rd := if fused then x.t.vold x.rb d else {}
  let el := elems x.cfg.w x.cfg.n
  let new := ((el ra.v).zip ((el rb.v).zip (el rd.v))).map (fun p => vArith op x.cfg p.1 p.2.1 p.2.2)
  x.masked s d new (ra.poison || rb.poison || rd.poison)

/-- Majors 0x38 to 0x3D (R137). -/
def VCtx.logic (x : VCtx) (s : State) (op : VLog) (d a b : BitVec 6) (e : VEntry) : VOut :=
  let ra := x.t.vsrc x.rb x.cfg a e.s1
  let rb := x.t.vsrc x.rb x.cfg b e.s2
  let el := elems x.cfg.w x.cfg.n
  x.masked s d (((el ra.v).zip (el rb.v)).map (fun p => vLogic op x.cfg.w p.1 p.2)) (ra.poison || rb.poison)

/-- `vcmp` (R139). -/
def VCtx.compare (x : VCtx) (s : State) (cond : BitVec 2) (m : BitVec 3) (a b : BitVec 6) (e : VEntry) : VOut :=
  let ra := x.t.vsrc x.rb x.cfg a e.s1
  let rb := x.t.vsrc x.rb x.cfg b e.s2
  let el := elems x.cfg.w x.cfg.n
  let bits := ((List.range x.cfg.n).zip ((el ra.v).zip (el rb.v))).map (fun p =>
    if x.am.bit p.1 && vCompare cond x.cfg p.2.1 p.2.2 then 1 else 0)
  x.put s (x.t.wrM m.toNat { v := BitVec.ofNat 256 (joinNat 1 bits), poison := ra.poison || rb.poison || x.am.poison })

/-- `vsel` (R140). -/
def VCtx.select (x : VCtx) (s : State) (d a b : BitVec 6) (m : BitVec 3) (e : VEntry) : VOut :=
  let ra := x.t.vsrc x.rb x.cfg a e.s1
  let rb := x.t.vsrc x.rb x.cfg b e.s2
  let mk := x.t.rdM m.toNat
  let el := elems x.cfg.w x.cfg.n
  let ix := List.range x.cfg.n
  x.whole s d { v := joined x.cfg.w (blend mk (el ra.v) (el rb.v))
                poison := mk.poison || (ra.poison && ix.any mk.bit) || (rb.poison && ix.any (fun i => !mk.bit i)) }

/-- `vcvt` (R141). -/
def VCtx.convert (x : VCtx) (s : State) (sf df : Nat) (d a : BitVec 6) (e : VEntry) : VOut :=
  let g := max (perReg sf) (perReg df)
  let srcs := (List.range (g / perReg sf)).map (fun k =>
    x.t.vsrc x.rb x.cfg (if a.toNat < 32 then BitVec.ofNat 6 ((a.toNat + k) % 32) else a) e.s1)
  let po := srcs.any (fun r => r.poison)
  let out := vcvtGroup sf df x.cfg (srcs.map (fun r => r.v)) (g / perReg df)
  x.put s (x.t.vgroup x.rb d (out.map (fun v => { v := v, poison := po })))

/-- `vpack` and `vunpack` (R143). -/
def VCtx.pack (x : VCtx) (s : State) (un : Bool) (d a : BitVec 6) (n : BitVec 2) : VOut :=
  let w := 8 * 2 ^ n.toNat
  let r0 := x.t.vold x.rb a
  let r1 := x.t.vold x.rb (a + 1)
  let el := elems w (2048 / w)
  let po := r0.poison || r1.poison
  let g := el r0.v ++ el r1.v
  let z := interleave (el r0.v) (el r1.v)
  let out := if un then [z.take (2048 / w), z.drop (2048 / w)] else [everyOther 0 g, everyOther 1 g]
  x.put s (x.t.vgroup x.rb d (out.map (fun l => { v := joined w l, poison := po })))

/-- `vperm` (R146). -/
def VCtx.permute (x : VCtx) (s : State) (d a b : BitVec 6) (e : VEntry) : VOut :=
  let ra := x.t.vsrc x.rb x.cfg a e.s1
  let rb := x.t.vsrc x.rb x.cfg b e.s2
  let va := elems x.cfg.w x.cfg.n ra.v
  x.whole s d { v := joined x.cfg.w ((elems x.cfg.w x.cfg.n rb.v).map (fun i => va.getD i 0)), poison := ra.poison || rb.poison }

/-- `vred` (R148). -/
def VCtx.reduce (x : VCtx) (s : State) (op : Nat) (d a : BitVec 6) (e : VEntry) : VOut :=
  let ra := x.t.vsrc x.rb x.cfg a e.s1
  let r := vReduce op x.cfg x.am (elems x.cfg.w x.cfg.n ra.v)
  x.whole s d { v := joined x.cfg.w (List.replicate x.cfg.n r), poison := ra.poison || x.am.poison }

/-- `vscan` (R148). -/
def VCtx.scan (x : VCtx) (s : State) (op : Nat) (d a : BitVec 6) (e : VEntry) : VOut :=
  let ra := x.t.vsrc x.rb x.cfg a e.s1
  let old := x.t.vold x.rb d
  let el := elems x.cfg.w x.cfg.n
  let r := vScan op x.cfg x.am none ((List.range x.cfg.n).zip ((el ra.v).zip (el old.v)))
  x.whole s d { v := joined x.cfg.w r, poison := ra.poison || x.am.poison || (x.keeps && old.poison) }

/-- `vfn` (R149); 0 for an integer element type. -/
def VCtx.function (x : VCtx) (s : State) (fn : Nat) (d a : BitVec 6) (e : VEntry) : VOut :=
  let ra := x.t.vsrc x.rb x.cfg a e.s1
  let one := fun b => match fmtOf x.cfg.et with
    | some f => vfnBits fn f x.cfg.mode x.cfg.sat (f.value b)
    | none => 0
  x.masked s d ((elems x.cfg.w x.cfg.n ra.v).map one) ra.poison

/-- The bytes of a register. -/
def vBytes (v : BitVec 2048) : List Byte := bytesLE 256 v.toNat


/-- `vld.s` (R152). -/
def VCtx.load (x : VCtx) (s : State) (d : BitVec 6) (e : VEntry) : VOut :=
  match s.sLoc x.c (s.coreGrp x.c) e.addr 256 with
  | .outside => .fatal
  | .absent => .absent
  | .ok as =>
    let r := s.sRead x.c as
    x.masked r.2.2 d (elems x.cfg.w x.cfg.n (BitVec.ofNat 2048 (natLE r.1))) r.2.1

/-- `vst.s` (R152). -/
def VCtx.store (x : VCtx) (s : State) (d : BitVec 6) (e : VEntry) : VOut :=
  match s.sLoc x.c (s.coreGrp x.c) e.addr 256 with
  | .outside => .fatal
  | .absent => .absent
  | .ok as =>
    let r := x.t.vsrc x.rb x.cfg d e.s2
    let nb := x.cfg.w / 8
    let ws := (((List.range 256).zip (as.zip (vBytes r.v))).filter (fun p => x.am.bit (p.1 / nb))).map (fun p => p.2)
    .ok (s.sWrite x.c (ws.map (fun p => p.1)) (ws.map (fun p => p.2)) r.poison) none

/-- The S addresses of the active elements of a gather or scatter (R153). -/
def VCtx.indexed (x : VCtx) (xb : Word) (va : VReg) : List (Nat × Nat) :=
  (((List.range x.cfg.n).zip (elems x.cfg.w x.cfg.n va.v)).filter (fun p => x.am.bit p.1)).map
    (fun p => (p.1, xb.toNat + p.2 * (x.cfg.w / 8)))

/-- Whether every range lies in the partition and is present. -/
def State.sLocs (s : State) (c : Nat) (as : List Nat) (n : Nat) : SLoc :=
  let ls := as.map (fun a : Nat => s.sLoc c (s.coreGrp c) a n)
  if ls.any (fun l => l == .outside) then .outside
  else if ls.any (fun l => l == .absent) then .absent
  else .ok (ls.flatMap (fun l => match l with | .ok a => a | _ => []))

/-- `vgath.s` (R153). -/
def VCtx.gather (x : VCtx) (s : State) (d a : BitVec 6) (e : VEntry) : VOut :=
  let ra := x.t.vsrc x.rb x.cfg a e.s2
  let nb := x.cfg.w / 8
  let ix := x.indexed e.s1.v ra
  match s.sLocs x.c (ix.map (fun p => p.2)) nb with
  | .outside => .fatal
  | .absent => .absent
  | .ok as =>
    let r := s.sRead x.c as
    let vals := (blocksOf nb ix.length r.1).map natLE
    let new := (List.range x.cfg.n).map (fun i => (Tbl.find? ((ix.map (fun p => p.1)).zip vals) i).getD 0)
    x.masked r.2.2 d new (r.2.1 || ra.poison)

/-- `vscat.s` (R153): where bytes overlap the highest element wins. -/
def VCtx.scatter (x : VCtx) (s : State) (d a : BitVec 6) (e : VEntry) : VOut :=
  let ra := x.t.vsrc x.rb x.cfg a e.s2
  let rd := x.t.vsrc x.rb x.cfg d e.s3
  let nb := x.cfg.w / 8
  let ix := x.indexed e.s1.v ra
  let vals := elems x.cfg.w x.cfg.n rd.v
  match s.sLocs x.c (ix.map (fun p => p.2)) nb with
  | .outside => .fatal
  | .absent => .absent
  | .ok as =>
    let bs := ix.flatMap (fun p => bytesLE nb (vals.getD p.1 0))
    let ws := (place as bs).foldl (fun t w => Tbl.put t w.1 w.2) ([] : Tbl Byte)
    .ok (s.sWrite x.c (ws.map (fun p => p.1)) (ws.map (fun p => p.2)) rd.poison) none

/-- The `VT` fields that a `vcfg` selection writes (R151). -/
def vcfgMask (sel : BitVec 5) : BitVec 16 :=
  (if sel.getLsbD 0 then 0xF#16 else 0) ||| (if sel.getLsbD 1 then 0x30#16 else 0) |||
  (if sel.getLsbD 2 then 0x40#16 else 0) ||| (if sel.getLsbD 3 then 0x380#16 else 0) |||
  (if sel.getLsbD 4 then 0xC00#16 else 0)

/-- The lowest set bit among the first `n` (R150). -/
def firstSet (m : MReg) (n : Nat) : Nat := ((List.range n).find? m.bit).getD n

/-- What the entry does at its start. -/
def vperform (s : State) (c : Nat) (e : VEntry) : VOut :=
  let x := VCtx.of s c e
  match e.instr with
  | .vadd _ d a b => x.arith s .add false d a b e
  | .vsub _ d a b => x.arith s .sub false d a b e
  | .vmul _ d a b => x.arith s .mul false d a b e
  | .vfma _ d a b => x.arith s .fma true d a b e
  | .vfms _ d a b => x.arith s .fms true d a b e
  | .vfnma _ d a b => x.arith s .fnma true d a b e
  | .vmin _ d a b => x.arith s .min false d a b e
  | .vmax _ d a b => x.arith s .max false d a b e
  | .vand _ d a b => x.logic s .and d a b e
  | .vor _ d a b => x.logic s .or d a b e
  | .vxor _ d a b => x.logic s .xor d a b e
  | .vsll _ d a b => x.logic s .sll d a b e
  | .vsrl _ d a b => x.logic s .srl d a b e
  | .vsra _ d a b => x.logic s .sra d a b e
  | .vcmp _ cond m a b => x.compare s cond m a b e
  | .vsel _ d a b m => x.select s d a b m e
  | .vcvtTo _ d a f => x.convert s x.cfg.et f.toNat d a e
  | .vcvtFrom _ d a f => x.convert s f.toNat x.cfg.et d a e
  | .vpack _ d a n => x.pack s false d a n
  | .vunpack _ d a n => x.pack s true d a n
  | .vmov _ d a =>
    let r := x.t.vsrc x.rb x.cfg a e.s1
    x.masked s d (elems x.cfg.w x.cfg.n r.v) r.poison
  | .vsplat _ d _ => x.masked s d (List.replicate x.cfg.n (formElem x.cfg e.s1.v)) e.s1.poison
  | .vext _ _ a _ =>
    let r := x.t.vsrc x.rb x.cfg a e.s1
    let v := (elems x.cfg.w x.cfg.n r.v).getD (e.s2.v.toNat % x.cfg.n) 0
    let w : Word := match fmtOf x.cfg.et with
      | some _ => BitVec.ofNat 64 v
      | none => BitVec.ofInt 64 (intOf x.cfg.w v)
    .ok s (some { v := w, poison := r.poison || e.s2.poison })
  | .vins _ d _ _ =>
    let old := x.t.vold x.rb d
    let i := e.s2.v.toNat % x.cfg.n
    let new := ((List.range x.cfg.n).zip (elems x.cfg.w x.cfg.n old.v)).map (fun p =>
      if p.1 = i then formElem x.cfg e.s1.v else p.2)
    x.whole s d { v := joined x.cfg.w new, poison := old.poison || e.s1.poison || e.s2.poison }
  | .vperm _ d a b => x.permute s d a b e
  | .vtrn _ d a n =>
    let u := if n = 0 then 16 else if n = 1 then 32 else 8
    let srcs := (List.range 8).map (fun k => x.t.vold x.rb (a + BitVec.ofNat 6 k))
    let po := srcs.any (fun r => r.poison)
    x.put s (x.t.vgroup x.rb d ((vTranspose u (srcs.map (fun r => r.v))).map (fun v => { v := v, poison := po })))
  | .vredSum _ d a => x.reduce s 0 d a e
  | .vredMax _ d a => x.reduce s 1 d a e
  | .vredMin _ d a => x.reduce s 2 d a e
  | .vredAnd _ d a => x.reduce s 3 d a e
  | .vredOr _ d a => x.reduce s 4 d a e
  | .vscanSum _ d a => x.scan s 0 d a e
  | .vscanMax _ d a => x.scan s 1 d a e
  | .vscanMin _ d a => x.scan s 2 d a e
  | .vscanAnd _ d a => x.scan s 3 d a e
  | .vscanOr _ d a => x.scan s 4 d a e
  | .vfnExp2 _ d a => x.function s 0 d a e
  | .vfnLog2 _ d a => x.function s 1 d a e
  | .vfnRcp _ d a => x.function s 2 d a e
  | .vfnRsqrt _ d a => x.function s 3 d a e
  | .vfnSqrt _ d a => x.function s 4 d a e
  | .mand _ d a b =>
    let p := x.t.rdM a.toNat
    let q := x.t.rdM b.toNat
    x.put s (x.t.wrM d.toNat { v := p.v &&& q.v, poison := p.poison || q.poison })
  | .mor _ d a b =>
    let p := x.t.rdM a.toNat
    let q := x.t.rdM b.toNat
    x.put s (x.t.wrM d.toNat { v := p.v ||| q.v, poison := p.poison || q.poison })
  | .mnot _ d a =>
    let p := x.t.rdM a.toNat
    x.put s (x.t.wrM d.toNat { v := ~~~ p.v, poison := p.poison })
  | .mpopc _ _ a =>
    let p := x.t.rdM a.toNat
    .ok s (some { v := BitVec.ofNat 64 ((List.range x.cfg.n).filter p.bit).length, poison := p.poison })
  | .mfirst _ _ a =>
    let p := x.t.rdM a.toNat
    .ok s (some { v := BitVec.ofNat 64 (firstSet p x.cfg.n), poison := p.poison })
  | .vcfg _ _ _ sel =>
    let m := vcfgMask sel
    .ok (s.setStrand x.c x.k { x.t with vt := (x.t.vt &&& ~~~ m) ||| (e.s1.v.extractLsb' 0 16 &&& m) }) (some { v := zx x.t.vt })
  | .vldSOneWord _ d _ _ => x.load s d e
  | .vldSTwoWord _ d _ _ _ _ => x.load s d e
  | .vstSOneWord _ d _ _ => x.store s d e
  | .vstSTwoWord _ d _ _ _ _ => x.store s d e
  | .vgathS _ d a _ => x.gather s d a e
  | .vscatS _ d a _ => x.scatter s d a e
  | _ => .ok s none

/-! Issue. -/

/-- A broadcast operand's scalar, read at issue (R134). -/
def Strand.broadcast (t : Strand) (f : BitVec 6) : Reg := if 48 ≤ f.toNat ∧ f.toNat < 60 then t.rd f else {}

/-- Dispatch an entry without a scalar result. -/
def vdispatch (i : Instr) (s1 s2 s3 : Reg) (s : State) : Eff := .done (s.enqueueV i s1 s2 s3).2

/-- Dispatch an entry with a scalar result: it is pending until the entry completes (R90, R134). -/
def vdispatchScalar (i : Instr) (d : BitVec 6) (s1 s2 : Reg) (s : State) : Eff :=
  let r := s.enqueueV i s1 s2 {}
  .done (r.2.modMe (fun t => t.result d { pend := some r.1 }))

/-- Issue of an instruction with vector sources a and b. -/
def vissue (i : Instr) (a b : BitVec 6) (s : State) : Res :=
  issue i s (fun s => vdispatch i (s.me.broadcast a) (s.me.broadcast b) {} s)

/-- `vadd` (R137). -/
def execVadd (pre : Pre) (d a b : BitVec 6) (s : State) : Res := vissue (.vadd pre d a b) a b s

/-- `vsub` (R137). -/
def execVsub (pre : Pre) (d a b : BitVec 6) (s : State) : Res := vissue (.vsub pre d a b) a b s

/-- `vmul` (R137). -/
def execVmul (pre : Pre) (d a b : BitVec 6) (s : State) : Res := vissue (.vmul pre d a b) a b s

/-- `vfma` (R137). -/
def execVfma (pre : Pre) (d a b : BitVec 6) (s : State) : Res := vissue (.vfma pre d a b) a b s

/-- `vfms` (R137). -/
def execVfms (pre : Pre) (d a b : BitVec 6) (s : State) : Res := vissue (.vfms pre d a b) a b s

/-- `vfnma` (R137). -/
def execVfnma (pre : Pre) (d a b : BitVec 6) (s : State) : Res := vissue (.vfnma pre d a b) a b s

/-- `vmin` (R137). -/
def execVmin (pre : Pre) (d a b : BitVec 6) (s : State) : Res := vissue (.vmin pre d a b) a b s

/-- `vmax` (R137). -/
def execVmax (pre : Pre) (d a b : BitVec 6) (s : State) : Res := vissue (.vmax pre d a b) a b s

/-- `vand` (R137). -/
def execVand (pre : Pre) (d a b : BitVec 6) (s : State) : Res := vissue (.vand pre d a b) a b s

/-- `vor` (R137). -/
def execVor (pre : Pre) (d a b : BitVec 6) (s : State) : Res := vissue (.vor pre d a b) a b s

/-- `vxor` (R137). -/
def execVxor (pre : Pre) (d a b : BitVec 6) (s : State) : Res := vissue (.vxor pre d a b) a b s

/-- `vsll` (R137). -/
def execVsll (pre : Pre) (d a b : BitVec 6) (s : State) : Res := vissue (.vsll pre d a b) a b s

/-- `vsrl` (R137). -/
def execVsrl (pre : Pre) (d a b : BitVec 6) (s : State) : Res := vissue (.vsrl pre d a b) a b s

/-- `vsra` (R137). -/
def execVsra (pre : Pre) (d a b : BitVec 6) (s : State) : Res := vissue (.vsra pre d a b) a b s

/-- `vcmp` (R139). -/
def execVcmp (pre : Pre) (c : BitVec 2) (m : BitVec 3) (a b : BitVec 6) (s : State) : Res := vissue (.vcmp pre c m a b) a b s

/-- `vsel` (R140). -/
def execVsel (pre : Pre) (d a b : BitVec 6) (m : BitVec 3) (s : State) : Res := vissue (.vsel pre d a b m) a b s

/-- `vcvt.to` (R141). -/
def execVcvtTo (pre : Pre) (d a : BitVec 6) (f : BitVec 4) (s : State) : Res := vissue (.vcvtTo pre d a f) a 60 s

/-- `vcvt.from` (R141). -/
def execVcvtFrom (pre : Pre) (d a : BitVec 6) (f : BitVec 4) (s : State) : Res := vissue (.vcvtFrom pre d a f) a 60 s

/-- `vpack` (R143). -/
def execVpack (pre : Pre) (d a : BitVec 6) (n : BitVec 2) (s : State) : Res := vissue (.vpack pre d a n) 60 60 s

/-- `vunpack` (R143). -/
def execVunpack (pre : Pre) (d a : BitVec 6) (n : BitVec 2) (s : State) : Res := vissue (.vunpack pre d a n) 60 60 s

/-- `vmov` (R144). -/
def execVmov (pre : Pre) (d a : BitVec 6) (s : State) : Res := vissue (.vmov pre d a) a 60 s

/-- `vsplat` (R144). -/
def execVsplat (pre : Pre) (d a : BitVec 6) (s : State) : Res :=
  issue (.vsplat pre d a) s (fun s => vdispatch (.vsplat pre d a) (s.me.rd a) {} {} s)

/-- `vext` (R145). -/
def execVext (pre : Pre) (d a b : BitVec 6) (s : State) : Res :=
  issue (.vext pre d a b) s (fun s => vdispatchScalar (.vext pre d a b) d (s.me.broadcast a) (s.me.rd b) s)

/-- `vins` (R145). -/
def execVins (pre : Pre) (d a b : BitVec 6) (s : State) : Res :=
  issue (.vins pre d a b) s (fun s => vdispatch (.vins pre d a b) (s.me.rd a) (s.me.rd b) {} s)

/-- `vperm` (R146). -/
def execVperm (pre : Pre) (d a b : BitVec 6) (s : State) : Res := vissue (.vperm pre d a b) a b s

/-- `vtrn` (R147). -/
def execVtrn (pre : Pre) (d a : BitVec 6) (n : BitVec 2) (s : State) : Res := vissue (.vtrn pre d a n) 60 60 s

/-- `vred.sum` (R148). -/
def execVredSum (pre : Pre) (d a : BitVec 6) (s : State) : Res := vissue (.vredSum pre d a) a 60 s

/-- `vred.max` (R148). -/
def execVredMax (pre : Pre) (d a : BitVec 6) (s : State) : Res := vissue (.vredMax pre d a) a 60 s

/-- `vred.min` (R148). -/
def execVredMin (pre : Pre) (d a : BitVec 6) (s : State) : Res := vissue (.vredMin pre d a) a 60 s

/-- `vred.and` (R148). -/
def execVredAnd (pre : Pre) (d a : BitVec 6) (s : State) : Res := vissue (.vredAnd pre d a) a 60 s

/-- `vred.or` (R148). -/
def execVredOr (pre : Pre) (d a : BitVec 6) (s : State) : Res := vissue (.vredOr pre d a) a 60 s

/-- `vscan.sum` (R148). -/
def execVscanSum (pre : Pre) (d a : BitVec 6) (s : State) : Res := vissue (.vscanSum pre d a) a 60 s

/-- `vscan.max` (R148). -/
def execVscanMax (pre : Pre) (d a : BitVec 6) (s : State) : Res := vissue (.vscanMax pre d a) a 60 s

/-- `vscan.min` (R148). -/
def execVscanMin (pre : Pre) (d a : BitVec 6) (s : State) : Res := vissue (.vscanMin pre d a) a 60 s

/-- `vscan.and` (R148). -/
def execVscanAnd (pre : Pre) (d a : BitVec 6) (s : State) : Res := vissue (.vscanAnd pre d a) a 60 s

/-- `vscan.or` (R148). -/
def execVscanOr (pre : Pre) (d a : BitVec 6) (s : State) : Res := vissue (.vscanOr pre d a) a 60 s

/-- `vfn.exp2` (R149). -/
def execVfnExp2 (pre : Pre) (d a : BitVec 6) (s : State) : Res := vissue (.vfnExp2 pre d a) a 60 s

/-- `vfn.log2` (R149). -/
def execVfnLog2 (pre : Pre) (d a : BitVec 6) (s : State) : Res := vissue (.vfnLog2 pre d a) a 60 s

/-- `vfn.rcp` (R149). -/
def execVfnRcp (pre : Pre) (d a : BitVec 6) (s : State) : Res := vissue (.vfnRcp pre d a) a 60 s

/-- `vfn.rsqrt` (R149). -/
def execVfnRsqrt (pre : Pre) (d a : BitVec 6) (s : State) : Res := vissue (.vfnRsqrt pre d a) a 60 s

/-- `vfn.sqrt` (R149). -/
def execVfnSqrt (pre : Pre) (d a : BitVec 6) (s : State) : Res := vissue (.vfnSqrt pre d a) a 60 s

/-- `mand` (R150). -/
def execMand (pre : Pre) (d a : BitVec 6) (b : BitVec 3) (s : State) : Res := vissue (.mand pre d a b) 60 60 s

/-- `mor` (R150). -/
def execMor (pre : Pre) (d a : BitVec 6) (b : BitVec 3) (s : State) : Res := vissue (.mor pre d a b) 60 60 s

/-- `mnot` (R150). -/
def execMnot (pre : Pre) (d a : BitVec 6) (s : State) : Res := vissue (.mnot pre d a) 60 60 s

/-- `mpopc` (R150). -/
def execMpopc (pre : Pre) (d a : BitVec 6) (s : State) : Res :=
  issue (.mpopc pre d a) s (vdispatchScalar (.mpopc pre d a) d {} {})

/-- `mfirst` (R150). -/
def execMfirst (pre : Pre) (d a : BitVec 6) (s : State) : Res :=
  issue (.mfirst pre d a) s (vdispatchScalar (.mfirst pre d a) d {} {})

/-- A legal element type (R131). -/
def legalEt (v : Nat) : Bool := decide (v ≤ 8) && v != 3

/-- `vcfg` (R151): its checks are made at issue. -/
def execVcfg (pre : Pre) (d a : BitVec 6) (sel : BitVec 5) (s : State) : Res :=
  issue (.vcfg pre d a sel) s (fun s =>
    let r := s.me.rd a
    unlessPoison r.poison (
      if sel.getLsbD 0 && !legalEt (bitsOf r.v 0 4) then .trap 0x01 (instrWord (.vcfg pre d a sel)) 0
      else vdispatchScalar (.vcfg pre d a sel) d r {} s))

/-- The address of a one-word vector access: a signed multiple of 256 bytes (spec/02_encoding.md R32). -/
def Strand.vecAddr (t : Strand) (b : BitVec 6) (e : BitVec 4) : Addr := ((t.rd b).v.toNat + 256 * e.toInt, (t.rd b).poison)

/-- Dispatch a scratchpad access with its address formed at issue; a poisoned address contains (R198). -/
def vaccess (i : Instr) (a : Addr) (data : Reg) (s : State) : Eff :=
  unlessPoison a.2 (.done (s.enqueueV i {} data {} a.1).2)

/-- `vld.s`, one word (R152). -/
def execVldSOneWord (pre : Pre) (d b : BitVec 6) (e : BitVec 4) (s : State) : Res :=
  issue (.vldSOneWord pre d b e) s (fun s => vaccess (.vldSOneWord pre d b e) (s.me.vecAddr b e) {} s)

/-- `vld.s`, two words (R152). -/
def execVldSTwoWord (pre : Pre) (d b x : BitVec 6) (sc : BitVec 2) (disp : BitVec 20) (s : State) : Res :=
  issue (.vldSTwoWord pre d b x sc disp) s (fun s => vaccess (.vldSTwoWord pre d b x sc disp) (s.me.mxAddr b x sc disp) {} s)

/-- `vst.s`, one word (R152). -/
def execVstSOneWord (pre : Pre) (d b : BitVec 6) (e : BitVec 4) (s : State) : Res :=
  issue (.vstSOneWord pre d b e) s (fun s => vaccess (.vstSOneWord pre d b e) (s.me.vecAddr b e) (s.me.broadcast d) s)

/-- `vst.s`, two words (R152). -/
def execVstSTwoWord (pre : Pre) (d b x : BitVec 6) (sc : BitVec 2) (disp : BitVec 20) (s : State) : Res :=
  issue (.vstSTwoWord pre d b x sc disp) s (fun s =>
    vaccess (.vstSTwoWord pre d b x sc disp) (s.me.mxAddr b x sc disp) (s.me.broadcast d) s)

/-- `vgath.s` (R153). -/
def execVgathS (pre : Pre) (d a b : BitVec 6) (s : State) : Res :=
  issue (.vgathS pre d a b) s (fun s =>
    unlessPoison (s.me.rd b).poison (vdispatch (.vgathS pre d a b) (s.me.rd b) (s.me.broadcast a) {} s))

/-- `vscat.s` (R153). -/
def execVscatS (pre : Pre) (d a b : BitVec 6) (s : State) : Res :=
  issue (.vscatS pre d a b) s (fun s =>
    unlessPoison (s.me.rd b).poison
      (vdispatch (.vscatS pre d a b) (s.me.rd b) (s.me.broadcast a) (s.me.broadcast d) s))

/-! Start and completion of entries. -/

/-- Replace the entry of a number. -/
def VEntry.replace (l : List VEntry) (e : VEntry) : List VEntry := l.map (fun x => if x.id = e.id then e else x)

/-- Vector scratchpad accesses match watchpoints when they complete (spec/16_context.md R341): the bytes
accessed and whether they are read or written. -/
def vtouched (i : Instr) : Option (Bool × Bool) :=
  match i with
  | .vldSOneWord _ _ _ _ => some (true, false)
  | .vldSTwoWord _ _ _ _ _ _ => some (true, false)
  | .vstSOneWord _ _ _ _ => some (false, true)
  | .vstSTwoWord _ _ _ _ _ _ => some (false, true)
  | _ => none

/-- The S ranges that a vector entry accesses, element by element, where it accesses any. -/
def vranges (s : State) (c : Nat) (e : VEntry) : List Nat × Nat × Bool × Bool :=
  let x := VCtx.of s c e
  match e.instr with
  | .vgathS _ _ a _ => ((x.indexed e.s1.v (x.t.vsrc x.rb x.cfg a e.s2)).map (fun p => p.2), x.cfg.w / 8, true, false)
  | .vscatS _ _ a _ => ((x.indexed e.s1.v (x.t.vsrc x.rb x.cfg a e.s2)).map (fun p => p.2), x.cfg.w / 8, false, true)
  | i => match vtouched i with
    | some (r, w) =>
      (((List.range x.cfg.n).filter x.am.bit).map (fun k => e.addr.toNat + k * (x.cfg.w / 8)), x.cfg.w / 8, r, w)
    | none => ([], 0, false, false)

/-- The units that can take a vector entry: a pipe, the function unit, the permute slot or the scratchpad port (R135). -/
inductive VUnit
  | none | pipe | function | permute | port
  deriving DecidableEq, Repr
def vunit (i : Instr) : VUnit :=
  match i with
  | .ksig _ _ _ _ => .none
  | .kwait _ _ _ _ => .none
  | .tokpush _ _ _ => .none
  | .tokpop _ _ _ => .none
  | .vfnExp2 _ _ _ => .function
  | .vfnLog2 _ _ _ => .function
  | .vfnRcp _ _ _ => .function
  | .vfnRsqrt _ _ _ => .function
  | .vfnSqrt _ _ _ => .function
  | .vperm _ _ _ _ => .permute
  | .vpack _ _ _ _ => .permute
  | .vunpack _ _ _ _ => .permute
  | .vtrn _ _ _ _ => .permute
  | .vldSOneWord _ _ _ _ => .port
  | .vldSTwoWord _ _ _ _ _ _ => .port
  | .vstSOneWord _ _ _ _ => .port
  | .vstSTwoWord _ _ _ _ _ _ => .port
  | .vgathS _ _ _ _ => .port
  | .vscatS _ _ _ _ => .port
  | _ => .pipe

/-- Clocks for which an entry occupies its unit (R135). -/
def VCtx.occupies (x : VCtx) (e : VEntry) : Nat :=
  let regs := fun (sf df : Nat) => let g := max (perReg sf) (perReg df); max (g / perReg sf) (g / perReg df)
  match e.instr with
  | .vcvtTo _ _ _ f => regs x.cfg.et f.toNat
  | .vcvtFrom _ _ _ f => regs f.toNat x.cfg.et
  | .vscanSum _ _ _ => 4
  | .vscanMax _ _ _ => 4
  | .vscanMin _ _ _ => 4
  | .vscanAnd _ _ _ => 4
  | .vscanOr _ _ _ => 4
  | .vpack _ _ _ _ => 2
  | .vunpack _ _ _ _ => 2
  | .vtrn _ _ _ _ => 8
  | .vgathS _ _ _ _ => x.cfg.n / 16
  | .vscatS _ _ _ _ => x.cfg.n / 16
  | i => if vunit i = .port ∧ e.addr % 64 ≠ 0 then 2 else 1

/-- The key of a unit that is free for an entry in the present clock: none where it is occupied. -/
def Core.freeUnit (co : Core) (now : Nat) (u : VUnit) : Option (Option Nat) :=
  let free := fun k : Nat => decide (co.vbusy.get 0 k ≤ now)
  let one := fun k : Nat => if free k then some (some k) else none
  match u with
  | .none => some none
  | .pipe => if free 0 then some (some 0) else one 1
  | .function => one 2
  | .permute => one 3
  | .port => one 4

/-- A unit is occupied from the present clock on. -/
def Core.occupy (co : Core) (now : Nat) (k : Option Nat) (n : Nat) : Core :=
  let co := { co with vstarts := co.vstarts + 1 }
  match k with
  | none => co
  | some k => { co with vbusy := co.vbusy.set 0 k (now + max n 1) }

/-- An entry's access begins where it is eligible (R91): the oldest unstarted one of its strand, its unit free, fewer than two
started in this clock (R135), no access of another under way (R136), and its tokens and count there, which it takes. -/
def openEntry (c : Nat) (e : VEntry) (s : State) : Option (VEntry × State) :=
  let co := s.coreAt c
  let oldest := match co.vq.find? (fun x => x.owner == e.owner && !x.started) with
    | some x => x.id == e.id
    | none => false
  let unit := co.freeUnit s.pkg.clocks (vunit e.instr)
  if !oldest || !s.engineRuns c || decide (2 ≤ co.vstarts) || unit.isNone || co.vq.any (fun x => x.opened && !x.started) then none
  else match s.startTake c .V e.instr with
    | none => none
    | some (co', m) =>
      let e := { e with mark := e.mark.join m }
      some (e, s.setCore c ((co'.occupy s.pkg.clocks (unit.getD none) ((VCtx.of s c e).occupies e)).count 3 1))

/-- Start one entry where it is eligible, or finish the access of one that has begun it; the flag tells whether it
started. -/
def startEntry (c id : Nat) (s : State) : Bool × State :=
  match (s.coreAt c).vq.find? (fun e => e.id == id) with
  | none => (false, s)
  | some e =>
    let ready := if !e.opened then openEntry c e s else if !e.started && s.enginesLive c then some (e, s) else none
    match ready with
    | none => (false, s)
    | some (e, s1) =>
      let watch := vranges s1 c e
      let hit := watch.1.any (fun a => ({ s1 with core := c, strand := e.owner } : State).watched a watch.2.1 watch.2.2.1 watch.2.2.2)
      match vperform (s1.asSeen c id) c e with
      | .absent => (false, s)
      | .fatal => (true, s.fatal (s.coreCtx c) 0x80)
      | .ok s' r =>
        let e := { e with started := true, result := r, watch := hit }
        (true, (s1.afterSeen c id s').modCore c (fun co => { co with vq := VEntry.replace co.vq e }))

/-- The entry that starts next: the oldest eligible one, those passed over sixteen times first (R91). -/
def State.nextEntry (s : State) (c : Nat) : Option Nat :=
  let el := ((s.coreAt c).vq.filter (fun e => !e.started && (startEntry c e.id s).1))
  match el.find? (fun e => decide (16 ≤ e.passed)) with
  | some e => some e.id
  | none => el.head?.map (fun e => e.id)

/-- An entry that has not started is eligible: its strand's oldest such, with its tokens and count there (R91). -/
def State.eligible (s : State) (c : Nat) (e : VEntry) : Bool :=
  !e.started && s.engineRuns c && (match (s.coreAt c).vq.find? (fun x => x.owner == e.owner && !x.started) with
    | some x => x.id == e.id
    | none => false) && (s.startTake c .V e.instr).isSome

/-- At the end of a clock in which a core's vector engine has started an entry, the eligible ones it has passed over are counted
(R91, log entry 14). -/
def State.passOver (s : State) (c : Nat) : State :=
  let co := s.coreAt c
  if co.vstarts = 0 then s
  else s.modCore c (fun k => { k with vq := k.vq.map (fun e =>
    { e with passed := if s.eligible c e then e.passed + 1 else 0 }) })

/-- The pipes start up to two entries in a clock (R91), in the order of that rule. -/
def execVectorEntryStart (c first : Nat) (second : Option Nat) (s : State) : Res :=
  if s.nextEntry c ≠ some first then .next s
  else
    let s1 := (startEntry c first s).2
    match second with
    | none => .next s1
    | some q => .next (if s1.nextEntry c = some q then (startEntry c q s1).2 else s1)

/-- A vector entry that starts next, or whose access has begun, accesses one unit of the scratchpad ahead of the others. -/
def State.vectorUnit (s : State) (c id unit : Nat) : State :=
  match (s.coreAt c).vq.find? (fun e => e.id == id) with
  | none => s
  | some e =>
    if vunit e.instr != .port || e.started || s.nextEntry c != some id then s
    else
      let go := if e.opened then some (e, s) else openEntry c e s
      match go with
      | none => s
      | some (e, s1) =>
        let s1 := s1.modCore c (fun co => { co with vq := VEntry.replace co.vq { e with opened := true } })
        s1.peekUnit c id unit (startEntry c id s1).2

/-- The oldest started entry of a strand completes and retires (R86): its tokens are pushed, for which both
FIFOs need room, its signal is made and its scalar result delivered. -/
def execVectorEntryComplete (c k : Nat) (s : State) : Res :=
  let co := s.coreAt c
  match co.vq.find? (fun e => e.owner == k) with
  | none => .next s
  | some e =>
    let n := (match e.instr with | .tokpush _ n _ => n.toNat | _ => 1)
    let sg := signalCount e.instr
    if !e.started || !co.room .V (instrPre e.instr) n then .next s
    else
      let co' := co.semAdd sg.1 sg.2 e.mark
      let co' := (({ co' with vq := co'.vq.filter (fun x => x.id != e.id) } : Core).push .V (instrPre e.instr) n e.mark).count 1 1
      let t := co'.strandAt k
      let t := match e.result with | some r => t.deliver e.id r | none => t
      .next (s.setCore c (co'.setStrand k { t with watchHit := t.watchHit || e.watch }))

end Sys2Proof.Machine
end

