-- ==== Sys2Proof/Machine/Tile.lean ====
section
/-! DEFINITION. The matrix engine's queue and commands: `fpush`, `tstat`, the eight tile commands, and the
start, completion and retirement of matrix entries (spec/08_tile.md R156 to R175). -/

namespace Sys2Proof.Machine

/-! The format queue and the status file. -/

/-- `fpush` (R157). -/
def execFpush (pre : Pre) (a : BitVec 6) (s : State) : Res :=
  issue (.fpush pre a) s (fun s =>
    let r := s.me.rd a
    unlessPoison r.poison (
      if bitsOf r.v 15 49 ≠ 0 then .trap 0x07 r.v 0
      else if s.myCore.fq.length ≥ Config.matrixQueue then .stall
      else .done (s.modCore s.core (fun c => { c with fq := c.fq ++ [r.v.extractLsb' 0 32] }))))

/-- A tile as the group on the core has it: not what stands in its place for another group, which reads as CLEAR (R163). -/
def Core.myTile (co : Core) (g k : Nat) : Tile := if (co.tile k).foreign g then co.awayTiles.get {} k else co.tile k
def Core.modTile (co : Core) (g k : Nat) (f : Tile → Tile) : Core :=
  if (co.tile k).foreign g then { co with awayTiles := co.awayTiles.set {} k (f (co.awayTiles.get {} k)) }
  else co.setTile k (f (co.tile k))

/-- The tile status word (R165). -/
def tileStatus (co : Core) (g : Nat) : BitVec 32 :=
  let b := fun k => (co.myTile g k).status
  b 3 ++ b 2 ++ b 1 ++ b 0

/-- `tstat` (R166). -/
def execTstat (pre : Pre) (d : BitVec 6) (s : State) : Res :=
  issue (.tstat pre d) s (fun s => scalarResult d { v := zx (tileStatus s.myCore s.grp) } s)

/-- `tstat.clr` (R166). -/
def execTstatClr (pre : Pre) (d a : BitVec 6) (s : State) : Res :=
  issue (.tstatClr pre d a) s (fun s =>
    let r := s.me.rd a
    unlessPoison r.poison (
      let v := tileStatus s.myCore s.grp
      let g := s.grp
      let s := s.modCore s.core (fun c => (List.range 4).foldl (fun c k =>
        c.modTile g k (fun t => { t with status := t.status &&& ~~~ (r.v.extractLsb' (8 * k) 8) })) c)
      scalarResult d { v := zx v } s))

/-! Issue of the tile commands. -/

/-- The format of the block scales that field b serves: `BF` for `wload`, `AF` for `tmma` (R167). -/
def scaleFmt (i : Instr) (w : BitVec 32) : Option Nat :=
  match i with
  | .wload _ _ _ _ _ _ _ _ _ => some (wordBF w)
  | .tmma _ _ _ _ _ _ _ _ _ => some (wordAF w)
  | .tmmaZ _ _ _ _ _ _ _ _ _ => some (wordAF w)
  | _ => none

/-- The word's fields that the command uses are legal (R155, R169 item 3). -/
def wordOk (i : Instr) (w : BitVec 32) : Bool :=
  match i with
  | .wload _ _ _ _ _ _ _ _ _ => operandFmt (wordBF w)
  | .tmma _ _ _ _ _ _ _ _ _ => operandFmt (wordAF w)
  | .tmmaZ _ _ _ _ _ _ _ _ _ => operandFmt (wordAF w)
  | .tdrain _ _ _ _ _ _ _ _ _ => outputFmt (wordOF w)
  | _ => true

/-- The operand in field a is legal (R169 item 4). -/
def tileArgOk (i : Instr) (v : Word) : Bool :=
  match i with
  | .tcfg _ _ _ _ _ _ _ => shapeOk v
  | .wload _ _ _ _ _ _ _ _ _ => bitsOf v 0 4 == 0
  | .tmma _ _ _ _ _ _ _ _ _ => bitsOf v 0 4 == 0
  | .tmmaZ _ _ _ _ _ _ _ _ _ => bitsOf v 0 4 == 0
  | .tdrain _ _ _ _ _ _ _ _ _ => bitsOf v 0 4 == 0
  | _ => true

/-- Issue of a tile command with operands a and b: the checks of R169, the claim, the dispatch (R156). -/
def tissue (i : Instr) (a b : BitVec 6) (s : State) : Res :=
  issue i s (fun s =>
    let ra := s.me.rd a
    let rb := s.me.rd b
    unlessPoison ra.poison (
      match s.myCore.fq with
      | [] => .trap 0x06 0 0
      | w :: rest =>
        unlessPoison (rb.poison && scaleFmt i w == some 9) (
          if !wordOk i w then .trap 0x07 (zx w) 0
          else if !tileArgOk i ra.v then .trap 0x08 ra.v 0
          else .done ((s.modCore s.core (fun c => { c with fq := rest })).enqueueM i w ra.v rb.v).2)))

/-- `tcfg` (R170). -/
def execTcfg (pre : Pre) (d a : BitVec 6) (ws wc ss sc : BitVec 4) (s : State) : Res := tissue (.tcfg pre d a ws wc ss sc) a 60 s

/-- `wload` (R171). -/
def execWload (pre : Pre) (d a b : BitVec 6) (ws wc ss sc : BitVec 4) (st : BitVec 10) (s : State) : Res :=
  tissue (.wload pre d a b ws wc ss sc st) a b s

/-- `wswap` (R172). -/
def execWswap (pre : Pre) (d : BitVec 6) (ws wc ss sc : BitVec 4) (s : State) : Res := tissue (.wswap pre d ws wc ss sc) 60 60 s

/-- `tmma` (R173). -/
def execTmma (pre : Pre) (d a b : BitVec 6) (ws wc ss sc : BitVec 4) (st : BitVec 10) (s : State) : Res :=
  tissue (.tmma pre d a b ws wc ss sc st) a b s

/-- `tmma.z` (R173). -/
def execTmmaZ (pre : Pre) (d a b : BitVec 6) (ws wc ss sc : BitVec 4) (st : BitVec 10) (s : State) : Res :=
  tissue (.tmmaZ pre d a b ws wc ss sc st) a b s

/-- `tzero` (R174). -/
def execTzero (pre : Pre) (d : BitVec 6) (ws wc ss sc : BitVec 4) (s : State) : Res := tissue (.tzero pre d ws wc ss sc) 60 60 s

/-- `tnorm` (R174). -/
def execTnorm (pre : Pre) (d : BitVec 6) (ws wc ss sc : BitVec 4) (s : State) : Res := tissue (.tnorm pre d ws wc ss sc) 60 60 s

/-- `tdrain` (R175). -/
def execTdrain (pre : Pre) (d a : BitVec 6) (ws wc ss sc : BitVec 4) (st : BitVec 10) (z : BitVec 1) (s : State) : Res :=
  tissue (.tdrain pre d a ws wc ss sc st z) a 60 s

/-! Entries. -/

/-- Read a range of the partition of core `c`: bytes and poison. -/
def State.tileRead (s : State) (c : Nat) (r : Nat × Nat) : List Byte × Bool × State :=
  match s.sLoc c (s.coreGrp c) r.1 r.2 with
  | .ok as => s.sRead c as
  | _ => (List.replicate r.2 0, false, s)

/-- The elements of block `kb` of a line of `k` elements in format `fm`. -/
def blockElems (fm k kb : Nat) (line : List Byte) : List Nat :=
  let n := min 32 (k - kb * 32)
  let v := natLE ((line.drop (kb * 32 * codeWidth fm / 8)).take ((n * codeWidth fm + 7) / 8))
  (List.range n).map (fun i => v / 2 ^ (codeWidth fm * i) % 2 ^ codeWidth fm)

/-- The aligned blocks of a line, and whether a line read is poisoned; the BLK4 scale array's line counts as one, which R173
does not say (DEDUCED, log entry 59). -/
def lineBlocks (fm p : Nat) (s : State) (c : Nat) (rs : List (Nat × Nat)) (k : Nat) : List ABlock × Bool × State :=
  let r := s.tileRead c (rs.headD (0, 0))
  let q := match rs with
    | [_, sc] => r.2.2.tileRead c sc
    | _ => ([], false, r.2.2)
  ((List.range (kBlocks k)).map (fun kb => alignBlock fm p (blockElems fm k kb r.1) ((q.1.getD kb 0).toNat)),
   r.2.1 || q.2.1, q.2.2)

/-- Column `j` of a `wload` (R171). -/
def loadColumn (c : Nat) (cmd : TCmd) (e : MEntry) (s : State) (j : Nat) : State :=
  let fm := wordBF e.word
  let r := lineBlocks fm (planesB fm) s c (cmd.lineRanges e j) (shapeK e.shape)
  r.2.2.modCore c (fun co =>
    let g := co.bank cmd.t
    let sh := ((List.range r.1.length).zip r.1).foldl (fun b p => b.store j p.1 p.2) g.shadow
    let co := co.setBank cmd.t { g with shadow := { sh with poison := sh.poison || r.2.1 } }
    let t := co.tile cmd.t
    let t := if r.1.any (fun b => b.trunc) then t.flag 2 else t
    let t := if r.1.any (fun b => b.code) then t.flag 16 else t
    co.setTile cmd.t t)

/-- Row `i` of a `tmma` (R173). -/
def mmaRow (c : Nat) (cmd : TCmd) (e : MEntry) (s : State) (i : Nat) : State :=
  let fm := wordAF e.word
  let r := lineBlocks fm (planesA fm) s c (cmd.lineRanges e i) (shapeK e.shape)
  r.2.2.modCore c (fun co =>
    let bk := (co.bank cmd.t).active
    let ints := fm == 0 && bk.bf == 0
    let t := ((List.range r.1.length).zip r.1).foldl
      (fun t p => t.accumulateBlock i (shapeN e.shape) ints p.2 bk p.1) (co.tile cmd.t)
    let t := if r.2.1 || bk.poison then { t with rowPoison := t.rowPoison ||| (1#128 <<< i) } else t
    co.setTile cmd.t t)

/-- Row `i` of a `tdrain` (R175). Its NaN bit is set for an element that holds a NaN before the conversion, as R78 has it; an
E4M3 NaN that an overflow or an infinity gives sets none: R165 could be read otherwise (DEDUCED, log entry 59). -/
def drainRow (c : Nat) (cmd : TCmd) (e : MEntry) (s : State) (i : Nat) : State :=
  let fm := wordOF e.word
  let t := (s.coreAt c).tile cmd.t
  let vs := (List.range (shapeN e.shape)).map (t.value i)
  let bs := vs.flatMap (fun v => bytesLE (codeWidth fm / 8) (drainBits fm (wordRM e.word) (wordSat e.word) v))
  let s := match cmd.lineRanges e i with
    | r :: _ => match s.sLoc c (s.coreGrp c) r.1 r.2 with
      | .ok as => s.sWrite c as bs (t.rowPoison.getLsbD i)
      | _ => s
    | [] => s
  if vs.any Num.isNan then s.modCore c (fun co => co.setTile cmd.t ((co.tile cmd.t).flag 32)) else s

/-- What a command does before its first row: `tmma.z` clears its rows; `wload` empties the shadow bank. -/
def firstPart (c : Nat) (cmd : TCmd) (e : MEntry) (s : State) : State :=
  if e.row ≠ 0 then s
  else match cmd.kind with
    | .mmaz => s.modCore c (fun co =>
        co.setTile cmd.t ((List.range (shapeM e.shape)).foldl (fun t i => t.clearRow i) (co.tile cmd.t)))
    | .load => s.modCore c (fun co =>
        let g := co.bank cmd.t
        co.setBank cmd.t { g with shadow := { g.shadow with cells := [], exps := [], flags := [], poison := false } })
    | _ => s

/-- Rows from `lo` to below `hi` of a command. -/
def doRows (c : Nat) (cmd : TCmd) (e : MEntry) (lo hi : Nat) (s : State) : State :=
  let is := (List.range (hi - lo)).map (fun i => lo + i)
  match cmd.kind with
  | .load => is.foldl (loadColumn c cmd e) s
  | .mma => (is.foldl (mmaRow c cmd e) s).modCore c (fun co => co.count 2 ((hi - lo) * planesA (wordAF e.word)))
  | .mmaz => (is.foldl (mmaRow c cmd e) s).modCore c (fun co =>
      co.count 2 ((hi - lo) * planesA (wordAF e.word) + if lo = 0 then 8 else 0))
  | .drain => is.foldl (drainRow c cmd e) s
  | _ => s

/-- What a command does after its last row. -/
def lastPart (c : Nat) (cmd : TCmd) (e : MEntry) (s : State) : State :=
  match cmd.kind with
  | .load => s.modCore c (fun co =>
      let g := co.bank cmd.t
      co.setBank cmd.t { g with shadow := { g.shadow with
        st := .loaded, owner := co.group, kb := shapeK e.shape, nb := shapeN e.shape, bf := e.word.extractLsb' 4 4 } })
  | .zero => s.modCore c (fun co => co.setTile cmd.t (co.tile cmd.t).zero)
  | .norm => s.modCore c (fun co => co.setTile cmd.t (co.tile cmd.t).normAll)
  | .drain => if cmd.clr then s.modCore c (fun co => co.setTile cmd.t (co.tile cmd.t).zero) else s
  | _ => s

/-- Replace the entry of a number. -/
def MEntry.replace (l : List MEntry) (e : MEntry) : List MEntry := l.map (fun x => if x.id = e.id then e else x)
def Core.setMEntry (c : Core) (e : MEntry) : Core := { c with mq := MEntry.replace c.mq e }

/-- An entry becomes COMPLETE: its semaphore is signalled (R158). -/
def completeEntry (c : Nat) (e : MEntry) (ssem scnt : Nat) (s : State) : State :=
  s.setCore c (((s.coreAt c).semAdd ssem scnt e.mark).setMEntry { e with st := .complete })

/-- The tile and the banks that a command needs and another group holds in place are claimed: SCANNING (R163, R164). -/
def claimFor (co : Core) (g : Nat) (cmd : TCmd) : Core :=
  let t := co.tile cmd.t
  let b := co.bank cmd.t
  let claim := fun (k : Bank) => if k.foreign g then { k with st := .scanning } else k
  let co := if t.foreign g then co.setTile cmd.t { t with st := .scanning } else co
  match cmd.kind with
  | .load => co.setBank cmd.t { b with shadow := claim b.shadow }
  | .swap => co.setBank cmd.t { active := claim b.active, shadow := claim b.shadow }
  | .mma => co.setBank cmd.t { b with active := claim b.active }
  | .mmaz => co.setBank cmd.t { b with active := claim b.active }
  | _ => co

/-- The oldest QUEUED entry starts where R159 lets it. `tcfg`, `wswap` and the entries of major 0x70 complete in
the same clock. -/
def execMatrixCommandStart (c : Nat) (s : State) : Res :=
  let co := s.coreAt c
  let g := s.coreGrp c
  match co.mq.find? (fun e => e.st == .queued) with
  | none => .next s
  | some e =>
    if !s.engineRuns c || co.mq.any (fun o => o.st == .stopped) then .next s
    else match tcmd e.instr with
      | none =>
        match s.startTake c .M e.instr with
        | none => .next s
        | some (co, m) => .next (s.setCore c (co.setMEntry { e with st := .complete, mark := e.mark.join m }))
      | some cmd =>
        if co.tileBlocked e cmd then .next s
        else if !unclaimed co g cmd then .next (s.setCore c (claimFor co g cmd))
        else match s.startTake c .M e.instr with
          | none => .next s
          | some (co2, m) =>
            let e := { e with shape := (co2.tile cmd.t).shape, mark := e.mark.join m }
            match s.tileRanges c cmd e with
            | .outside => .next (s.fatal (s.coreCtx c) 0x80)
            | .absent => .next s
            | .ok _ =>
              let s := s.setCore c co2
              match cmd.kind with
              | .cfg =>
                let s := s.modCore c (fun co => co.setTile cmd.t { co.tile cmd.t with shape := e.a, owner := some g })
                .next (completeEntry c e cmd.ssem cmd.scnt s)
              | .swap =>
                let s := s.modCore c (fun co =>
                  let b := co.bank cmd.t
                  co.setBank cmd.t { active := b.shadow, shadow := b.active })
                .next (completeEntry c e cmd.ssem cmd.scnt s)
              | _ =>
                let live := (cmd.kind == .mma || cmd.kind == .mmaz) && decide (0 < cmd.rows e.shape)
                .next (s.modCore c (fun co =>
                  let t := co.tile cmd.t
                  (co.setTile cmd.t (if live then { t with st := .live, owner := some g } else t)).setMEntry
                    { e with st := .running, row := 0 }))

/-- A command that accesses the scratchpad. -/
def TKind.accesses (k : TKind) : Bool := k == .load || k == .mma || k == .mmaz || k == .drain

/-- A RUNNING command completes (R158), once the pieces of the partition that its rows need are there
(spec/16_context.md R340), and where it goes on on a core on which another group's contents stand in its tile or banks, once those
have been scanned out, which it claims (R163, R164); commands that access the scratchpad do so in queue order (R161), and
those to one tile in their order (R160; log entry 23). -/
def execMatrixCommandComplete (c n : Nat) (s : State) : Res :=
  let co := s.coreAt c
  match co.mq.find? (fun e => e.id == n) with
  | none => .next s
  | some e =>
    match tcmd e.instr with
    | none => .next s
    | some cmd =>
      let older := co.mq.takeWhile (fun o => o.id != n)
      let held := older.any (fun o => o.st == .running && (match tcmd o.instr with
        | some oc => oc.t == cmd.t || (cmd.kind.accesses && oc.kind.accesses)
        | none => false))
      if e.st != .running || held || co.gated || s.tileRanges c cmd e == .absent then .next s
      else if !unclaimed co (s.coreGrp c) cmd then .next (s.setCore c (claimFor co (s.coreGrp c) cmd))
      else
        let s := s.afterSeen c n (doRows c cmd e e.row (cmd.rows e.shape) (firstPart c cmd e (s.asSeen c n)))
        let s := lastPart c cmd e s
        .next (completeEntry c { e with row := cmd.rows e.shape } cmd.ssem cmd.scnt s)

/-- A RUNNING command that could complete accesses one unit of the scratchpad ahead of its others. -/
def State.matrixUnit (s : State) (c id unit : Nat) : State :=
  match (s.coreAt c).mq.find? (fun e => e.id == id) with
  | none => s
  | some e => match tcmd e.instr with
    | none => s
    | some cmd =>
      if e.st != .running || !cmd.kind.accesses then s
      else match execMatrixCommandComplete c id s with
        | .next s' => if (s'.coreAt c).mq.any (fun x => x.id == id && x.st == .complete) then s.peekUnit c id unit s' else s
        | _ => s

/-- The oldest entry retires once it is COMPLETE and its tokens have room; a `ksig` adds its count (R158,
spec/13_barrier.md R267). -/
def execMatrixEntryRetire (c : Nat) (s : State) : Res :=
  let co := s.coreAt c
  match co.mq with
  | [] => .next s
  | e :: rest =>
    let n := (match e.instr with | .tokpush _ n _ => n.toNat | _ => 1)
    let sg := signalCount e.instr
    if e.st != .complete || !co.room .M (instrPre e.instr) n then .next s
    else .next (s.setCore c ((({ co.semAdd sg.1 sg.2 e.mark with mq := rest } : Core).push .M (instrPre e.instr) n e.mark).count 1 1))

/-- Rows from `lo` on whose ranges are all there, at most up to `hi`. -/
def State.rowsThere (s : State) (c : Nat) (cmd : TCmd) (e : MEntry) (lo : Nat) : Nat → Nat
  | 0 => 0
  | hi + 1 =>
    if hi < lo then hi + 1
    else
      let n := s.rowsThere c cmd e lo hi
      let there := (cmd.lineRanges e hi).all (fun r => match s.sLoc c (s.coreGrp c) r.1 r.2 with | .ok _ => true | _ => false)
      if n = hi && there then hi + 1 else n

/-- A RUNNING matrix command stops at the end of a row: the rows below `row` are done now, once (spec/08_tile.md
R162). A command to a tile whose earlier command has not finished has done none, and one that accesses the scratchpad none
after an older one of another tile that has not finished its accesses (R161; 4 in the list), nor one in whose place another
group's contents stand. One that has accessed units of
its rows already does them all. -/
def State.stopCommand (c : Nat) (acc : State × List Nat) (p : MEntry × Nat) : State × List Nat :=
  let e := p.1
  match tcmd e.instr with
  | none => acc
  | some cmd =>
    if e.st ≠ .running then acc
    else
      let total := cmd.rows e.shape
      let late := acc.2.contains cmd.t || (cmd.kind.accesses && acc.2.contains 4) ||
        !unclaimed (acc.1.coreAt c) (acc.1.coreGrp c) cmd
      let begun := !((acc.1.coreAt c).peeksOf e.id).isEmpty
      let upto := if begun then total else if late then e.row else max e.row (acc.1.rowsThere c cmd e e.row (min p.2 total))
      let s := if e.row < upto ∨ (e.row = 0 ∧ 0 < upto) then
          acc.1.afterSeen c e.id (doRows c cmd e e.row upto (firstPart c cmd e (acc.1.asSeen c e.id))) else acc.1
      (s.modCore c (fun co => co.setMEntry { e with st := .stopped, row := upto }),
       if upto < total then acc.2 ++ [cmd.t] ++ (if cmd.kind.accesses then [4] else []) else acc.2)

/-- The engines of a core are gated: no command starts, and RUNNING matrix commands stop at the given rows. -/
def State.gate (s : State) (c : Nat) (rows : List Nat) : State :=
  let run := (s.coreAt c).mq.filter (fun e => e.st == .running)
  let r := (List.zip run (rows ++ List.replicate run.length 0)).foldl (State.stopCommand c) (s, [])
  r.1.modCore c (fun co => { co with gated := true })

/-- The same where the rows are not named: free values. -/
def State.gateFreely (s : State) (c : Nat) : State :=
  let run := (s.coreAt c).mq.filter (fun e => e.st == .running)
  let r := run.foldl (fun (acc : List Nat × State) _ => let p := acc.2.pick 129; (acc.1 ++ [p.1], p.2)) (([], s) : List Nat × State)
  r.2.gate c r.1

end Sys2Proof.Machine
end

