-- ==== Sys2Proof/Machine/Save.lean ====
section
/-! DEFINITION. The save area of a context in HBM (spec/16_context.md R336 to R338): the group record, the strand and core
records and the images of a group's tiles, banks and pieces, written when the group is saved or they are scanned, and read
back when it resumes. What lies there for a trusted world is sealed (R328); the model holds it as its plaintext, as it does all
sealed data (log entry 43). -/

namespace Sys2Proof.Machine

/-- A barrier's two words (spec/13_barrier.md R260). -/
def Barrier.words (b : Barrier) : List Word :=
  [b.phase ++ BitVec.ofNat 8 b.part ++ BitVec.ofNat 8 b.arrive ++ 0#31 ++ BitVec.ofBool b.used, 0#16 ++ BitVec.ofInt 48 b.bytes]

/-- The group record (R336). -/
def Group.recordWords (x : Group) : List Word :=
  [0#35 ++ BitVec.ofNat 4 x.b3 ++ BitVec.ofNat 4 x.b2 ++ BitVec.ofNat 4 x.b1 ++ BitVec.ofNat 2 (x.nsub - 1) ++ BitVec.ofNat 5 x.size ++
     BitVec.ofNat 10 x.queue,
   x.taskValue, BitVec.ofNat 64 x.plat, BitVec.ofNat 64 x.pmemw] ++ (List.range 4).flatMap (fun j => (x.barriers.get {} j).words)

/-- Bits of a list, the first lowest. -/
def bitsLE (l : List Bool) : Nat := l.foldr (fun b n => 2 * n + b.toNat) 0

/-- The word at 0x0E0 of a core record: tiles and banks held in place, tiles that are CLEAR (R338). -/
def CoreSave.heldWord (v : CoreSave) (co : Core) (g : Nat) : Word :=
  let held := (List.range 4).map (fun i => (co.tile i).st == .held && (co.tile i).owner == some g)
  let banks := (List.range 8).map (fun i =>
    let b := if i % 2 = 0 then (co.bank (i / 2)).active else (co.bank (i / 2)).shadow
    b.st == .held && b.owner == some g)
  BitVec.ofNat 64 (bitsLE (held ++ banks ++ (List.range 4).map (fun i => (v.tiles.get { st := .live } i).st == .clear)))

/-- The word at 0x0E8: how many pieces the partition has, and those resident (R338). -/
def Core.piecesWord (co : Core) (g pieces : Nat) : Word :=
  BitVec.ofNat 64 (pieces + 2 ^ 24 * bitsLE ((List.range 24).map (fun i => co.pieces.any (fun e => e.2.grp == g && e.2.idx == i && e.2.present))))

/-- The core record and the control blocks behind it (R338), of a core that its group has left. -/
def CoreSave.recordWords (v : CoreSave) (co : Core) (g pieces : Nat) : List Word :=
  let tile := fun i => (v.tiles.find? i).getD (co.tile i)
  let fq := (List.range 16).map (fun k => v.fq.getD k 0)
  [BitVec.ofNat 64 (natLE ((List.range 8).map (fun f => BitVec.ofNat 8 (v.fifo.get [] f).length))),
   zx ((tile 3).status ++ (tile 2).status ++ (tile 1).status ++ (tile 0).status)] ++
  (List.range 4).map (fun j => BitVec.ofNat 64 (((List.range 4).map (fun k => (v.sem.get {} (4 * j + k)).count * 2 ^ (16 * k))).sum)) ++
  [BitVec.ofNat 64 v.fq.length] ++ (List.range 8).map (fun j => fq.getD (2 * j + 1) 0 ++ fq.getD (2 * j) 0) ++ [0] ++
  (List.range 4).map (fun i => (tile i).shape) ++
  (List.range 8).map (fun j => wordIn (tile (j / 2)).rowPoison (j % 2)) ++
  [v.heldWord co g, co.piecesWord g pieces, 0, 0] ++
  (List.range 16).map (fun i => v.counters.get 0 i) ++
  (List.range 32).map v.rlc.word ++ v.rlc.recordWords ++ List.replicate 40 0 ++
  (List.range 256).map (fun j => (v.strands.get {} (j / 32)).blockWord (j % 32))

/-- The strand records (R337). -/
def CoreSave.strandWords (v : CoreSave) : List Word :=
  (List.range 11904).map (fun j => (v.strands.get {} (j / 1488)).recordWord (j % 1488))

/-- Words written to HBM by the save engine. -/
def State.writeWords (s : State) (a : Nat) (ws : List Word) : State :=
  s.commitBytes ((place (addrs a (8 * ws.length)) (wordsBytes ws)).filter (fun w => decide (w.1 < Config.hbmBytes)))

/-! Images. -/

/-- Keys from `lo` on, `n` of them, moved down to 0; and other contents there. -/
def sliceDown {α : Type} (t : Tbl α) (lo n : Nat) : Tbl α :=
  (t.filter (fun e => decide (lo ≤ e.1 ∧ e.1 < lo + n))).map (fun e => (e.1 - lo, e.2))
def putUp {α : Type} [DecidableEq α] (d : α) (t img : Tbl α) (lo n : Nat) : Tbl α :=
  img.foldl (fun t e => t.set d (lo + e.1) e.2) (t.filter (fun e => !decide (lo ≤ e.1 ∧ e.1 < lo + n)))

/-- An image written to HBM by the save engine, whole lines, and read back. -/
def State.writeImage (s : State) (a n : Nat) (img : Tbl Byte) : State :=
  if Config.hbmBytes < a + n then s
  else { s with hbm := { bytes := putUp 0 s.hbm.bytes img a n, poison := putUp false s.hbm.poison [] (a / 64) (n / 64),
                         latent := putUp false s.hbm.latent [] (a / 64) (n / 64) } }
def State.readImage (s : State) (a n : Nat) : Tbl Byte := sliceDown s.hbm.bytes a n

/-- Cells of `n` bytes each, little-endian, as bytes; and back. -/
def cellBytes {w : Nat} (n : Nat) (t : Tbl (BitVec w)) : Tbl Byte :=
  t.flatMap (fun e => (List.zip (addrs (n * e.1) n) (bytesLE n e.2.toNat)).filter (fun b => b.2 != 0))
def bytesCells {w : Nat} (n : Nat) (t : Tbl Byte) : Tbl (BitVec w) :=
  t.foldl (fun (c : Tbl (BitVec w)) b => c.set 0 (b.1 / n) (c.get 0 (b.1 / n) ||| (BitVec.ofNat w b.2.toNat <<< (8 * (b.1 % n))))) []

/-- Cells of two bits each. -/
def pairBytes (t : Tbl (BitVec 2)) : Tbl Byte :=
  t.foldl (fun (r : Tbl Byte) e => r.set 0 (e.1 / 4) (Tbl.get (0 : Byte) r (e.1 / 4) ||| ((e.2.setWidth 8 : Byte) <<< ((2 : Nat) * (e.1 % 4))))) []
def bytesPairs (t : Tbl Byte) : Tbl (BitVec 2) :=
  t.foldl (fun (r : Tbl (BitVec 2)) b => (List.range 4).foldl (fun r k => r.set 0 (4 * b.1 + k) (b.2.extractLsb' (2 * k) 2)) r) []

/-- Where the images of a tile and of a bank (by its item) stand in a core slot. -/
def tileAt (i : Nat) : Nat := 0x1C000 + 88064 * i
def bankAt (item : Nat) : Nat := 0x72000 + 270336 * item

/-- A tile's image at `a`: `ACC`, `SPC` and `SEXP`, each in the order of its cells (log entry 43); and back. -/
def State.writeTile (s : State) (a : Nat) (t : Tile) : State :=
  ((s.writeImage a 81920 (cellBytes 5 t.acc)).writeImage (a + 81920) 4096 (pairBytes t.spc)).writeImage (a + 86016) 2048 (cellBytes 2 t.sexp)
def State.readTile (s : State) (a : Nat) (t : Tile) : Tile :=
  { t with acc := bytesCells 5 (s.readImage a 81920), spc := bytesPairs (s.readImage (a + 81920) 4096)
           sexp := bytesCells 2 (s.readImage (a + 86016) 2048) }

/-- `n` bytes whose values the spec does not give. -/
def State.freeImage (s : State) (a n : Nat) : State :=
  { (s.writeImage a n ((List.zip (List.range n) (bytesLE n (Config.freeValue s.free))).filter (fun b => b.2 != 0))) with free := s.free + 1 }

/-- A bank's image at `a`: its cells in their order. Of its exponents and flags the spec gives the size alone, so what bytes
stand there is free (log entry 43). -/
def State.writeBank (s : State) (a : Nat) (b : Bank) : State := (s.writeImage a 262144 (cellBytes 2 b.cells)).freeImage (a + 262144) 8192
def State.readBank (s : State) (a : Nat) (b : Bank) : Bank := { b with cells := bytesCells 2 (s.readImage a 262144) }

/-- The images that a saved core has of tiles and banks written to its slot at `a`; and read back. -/
def State.writeTileImage (s : State) (a i : Nat) (t : Tile) : State := if t.st = .live then s.writeTile (a + tileAt i) t else s
def State.writeBankImage (s : State) (a item : Nat) (b : Bank) : State := if b.st = .loaded then s.writeBank (a + bankAt item) b else s
def State.writeImages (s : State) (a : Nat) (v : CoreSave) : State :=
  let s := v.tiles.foldl (fun s e => s.writeTileImage a e.1 e.2) s
  v.banks.foldl (fun s e => (s.writeBankImage a (2 * e.1) e.2.active).writeBankImage a (2 * e.1 + 1) e.2.shadow) s
def State.readImages (s : State) (a : Nat) (v : CoreSave) : CoreSave :=
  let bank := fun (item : Nat) (b : Bank) => if b.st = .loaded then s.readBank (a + bankAt item) b else b
  { v with
    tiles := v.tiles.map (fun e => (e.1, if e.2.st = .live then s.readTile (a + tileAt e.1) e.2 else e.2))
    banks := v.banks.map (fun e => (e.1, { active := bank (2 * e.1) e.2.active, shadow := bank (2 * e.1 + 1) e.2.shadow })) }

/-- Where a rank of a group has its core slot. -/
def State.rankSlot (s : State) (x : Group) (rank : Nat) : Option Nat := x.slot.map (fun n => (s.ctxAt x.ctx).coreSlotAt n rank)

/-- A core's records in its slot at `a` (R336): the engine area's entries have sizes and no layout, so its bytes are free. -/
def State.writeCore (s : State) (a : Nat) (v : CoreSave) (co : Core) (g pieces : Nat) : State :=
  (((s.writeWords a v.strandWords).writeWords (a + 0x17400) (v.recordWords co g pieces)).freeImage (a + 0x18000) 16384).writeImages a v

/-- The records of group `g` in its slot. -/
def State.writeRecords (s : State) (g : Nat) : State :=
  match s.groups.find? g with
  | none => s
  | some x => match x.slot with
    | none => s
    | some n =>
      let c := s.ctxAt x.ctx
      (List.zip (List.range x.cores.length) (List.zip x.cores (x.saved.getD []))).foldl (fun s e =>
        s.writeCore (c.coreSlotAt n e.1) e.2.2 (s.coreAt e.2.1) g x.kdesc.pieces) (s.writeWords (c.slotAt n) x.recordWords)

/-! Reading back. -/

/-- The state of a branch-target register by its code (spec/05_strand.md R95). -/
def Btr.setCode (b : Btr) (n : Nat) : Btr :=
  { b with st := match n with | 0 => .empty | 1 => .preparing | 2 => .ready | _ => .faulted }

/-- Another value of a word of a strand's record or control block, as a resumed strand takes it: the capability registers
and meta words and the halt mark too (R337, R338). -/
def Strand.reload (t : Strand) (bar i : Nat) (w : Word) : Strand :=
  if t.recordWord i = w then t
  else if 68 ≤ i ∧ i < 100 then
    let k := (i - 68) / 2
    { t with c := t.c.set {} k { t.c.get {} k with v := setWordIn (t.c.get {} k).v (i % 2) w } }
  else if 1488 ≤ i ∧ i < 1496 then
    { t with b := t.b.set {} (i - 1488) (({ t.b.get {} (i - 1488) with
        cgen := w.extractLsb' 32 32, fgen := w.extractLsb' 16 16, cause := w.extractLsb' 8 8 } : Btr).setCode (bitsOf w 0 8)) }
  else if i = 105 then { t.setCtrl w with haltMark := w.getLsbD 11 }
  else t.setRecordWord bar i w

/-- The barrier whose wait a strand was saved in. -/
def Strand.waitBar (t : Strand) : Nat :=
  match t.waitHalf, t.wait with
  | some (j, _), _ => j
  | none, .barrier j _ => j
  | _, _ => 0

/-- A list made `n` long: the newest go, or others that hand on nothing come. -/
def fitMarks (n : Nat) (l : List Mark) : List Mark := l.take n ++ List.replicate (n - l.length) (({} : Mark))

/-- A semaphore with another count. -/
def Sem.fit (q : Sem) (n : Nat) : Sem := if q.count = n then q else { lots := if n = 0 then [] else [(n, {})] }

/-- Another value of a word of the core record: counts, format words, shapes, row marks, counters. -/
def CoreSave.reloadCore (v : CoreSave) (j : Nat) (w : Word) : CoreSave :=
  let byte := fun k => bitsOf w (8 * k) 8
  if j = 0 then { v with fifo := (List.range 8).foldl (fun t f => t.set [] f (fitMarks (byte f) (v.fifo.get [] f))) v.fifo }
  else if j = 1 then { v with tiles := v.tiles.map (fun e => (e.1, { e.2 with status := w.extractLsb' (8 * e.1) 8 })) }
  else if j < 6 then { v with sem := (List.range 4).foldl (fun t k =>
    t.set {} (4 * (j - 2) + k) ((v.sem.get {} (4 * (j - 2) + k)).fit (bitsOf w (16 * k) 16))) v.sem }
  else if j = 6 then { v with fq := (v.fq ++ List.replicate 16 0).take (min w.toNat 16) }
  else if j < 15 then { v with fq := (List.zip (List.range v.fq.length) v.fq).map (fun e =>
    if e.1 = 2 * (j - 7) then w.extractLsb' 0 32 else if e.1 = 2 * (j - 7) + 1 then w.extractLsb' 32 32 else e.2) }
  else if 16 ≤ j ∧ j < 20 then { v with tiles := v.tiles.map (fun e => (e.1, if e.1 = j - 16 then { e.2 with shape := w } else e.2)) }
  else if 20 ≤ j ∧ j < 28 then { v with tiles := v.tiles.map (fun e =>
    (e.1, if e.1 = (j - 20) / 2 then { e.2 with rowPoison := setWordIn e.2.rowPoison (j % 2) w } else e.2)) }
  else if 32 ≤ j ∧ j < 48 then { v with counters := v.counters.set 0 (j - 32) w }
  else if 48 ≤ j ∧ j < 80 then { v with rlc := { v.rlc with block := v.rlc.block.set 0 (j - 48) w } }
  else if 80 ≤ j ∧ j < 84 then { v with rlc := v.rlc.setRecordWord (j - 80) w }
  else if 128 ≤ j ∧ j < 384 then
    let k := (j - 128) / 32
    let t := v.strands.get {} k
    { v with strands := v.strands.set {} k (t.reload t.waitBar (1488 + (j - 128) % 32) w) }
  else v

/-- The image of a rank as the save area gives it (R340): a word of the records that was changed there is taken, and what
stands in the images of tiles and banks. -/
def State.readRecords (s : State) (x : Group) (rank : Nat) (v : CoreSave) : CoreSave :=
  match s.rankSlot x rank with
  | none => v
  | some a =>
    let old := v.recordWords (s.coreAt (x.cores.getD rank 0)) 0 x.kdesc.pieces
    let v := (List.range 11904).foldl (fun (v : CoreSave) j =>
      let k := j / 1488
      let t := v.strands.get {} k
      let w := s.hbmWord none (a + 8 * j)
      if t.recordWord (j % 1488) = w then v else { v with strands := v.strands.set {} k (t.reload t.waitBar (j % 1488) w) }) v
    s.readImages a ((List.range 384).foldl (fun (v : CoreSave) j =>
      let w := s.hbmWord none (a + 0x17400 + 8 * j)
      if old.getD j 0 = w then v else v.reloadCore j w) v)

/-- Where a piece's image stands (R336). -/
def pieceAt (i : Nat) : Nat := 0x282000 + 16384 * i

/-- A piece's image written to its core slot, which mends a unit with a failed tag there; and as it stands there, with the
marks of what was saved and of the lines it is read from (spec/09_page.md R195, R197). -/
def State.writePiece (s : State) (g rank i : Nat) (m : Mem) : State :=
  match s.groups.find? g with
  | none => s
  | some x => match s.rankSlot x rank with
    | none => s
    | some a => (s.writeImage (a + pieceAt i) 16384 m.bytes).modGroup g (fun x =>
        { x with badImages := x.badImages.filter (fun e => e != (rank, i)) })
def State.readPiece (s : State) (g rank i : Nat) (m : Mem) : Mem :=
  match s.groups.find? g with
  | none => m
  | some x => match s.rankSlot x rank with
    | none => m
    | some a =>
      let lines := (sliceDown s.hbm.poison ((a + pieceAt i) / 64) 256 ++ sliceDown s.hbm.latent ((a + pieceAt i) / 64) 256).map (fun e => e.1)
      { m with bytes := s.readImage (a + pieceAt i) 16384, poison := lines.foldl (fun t l => t.set false l true) m.poison }

end Sys2Proof.Machine
end

