-- ==== Sys2Proof/Machine/Copy.lean ====
section
/-! DEFINITION. The copy channels: transfers, the prefix rule, signals, chains, channel control and
the COPY_FAULT that a stopped channel owes (spec/11_copy.md R229 to R246, spec/10_phase.md R221, R222). -/

namespace Sys2Proof.Machine

/-- Transfers of a channel that have not landed (R238). -/
def Channel.inFlight (ch : Channel) : Nat := (ch.queue.filter (fun t => !t.hasLanded)).length

/-! Spaces. -/

/-- The group of a transfer: its context and the core of a rank. -/
def State.grpCtx (s : State) (g : Nat) : Nat := ((s.groups.find? g).map (fun x => x.ctx)).getD 0
def State.grpCore (s : State) (g rank : Nat) : Nat := ((s.groups.find? g).map (fun x => x.cores.getD rank 0)).getD 0

/-- Why `n` bytes are denied at an end, where they are (R234). `c` is the core whose partition or cluster serves
S or C, `mc` tells a multicast source. -/
def State.denied (s : State) (g c sp : Nat) (cap : CapReg) (a : Int) (n : Nat) (dst mc : Bool) : Option (BitVec 8) :=
  match sp with
  | 0 => match s.sLoc c g a n with
    | .ok _ => none
    | .absent => some 3
    | .outside => some 1
  | 1 => if (s.cPhys (s.grpCtx g) (clusterOf c) a n).isSome then none else some 1
  | 2 =>
    let rs := (List.range n).map (fun k : Nat => s.hLeaf (s.grpCtx g) (a + (k : Int)) (fun l => l.grants (if dst then .wr else .rd)))
    match rs.find? (fun l => match l with | none => true | some l => !l.grants (if dst then .wr else .rd)) with
    | none => none
    | some none => some 1
    | some (some _) => some 2
  | 3 => if capCheck cap.v a n (if dst then .wr else .rd) && (!mc || capMC cap.v) then none else some 2
  | _ => if (s.wPhys (s.grpCtx g) a n).isSome then none else some 1

/-- An element's denial at its source. -/
def State.srcDenied (s : State) (c : Nat) (t : Transfer) (e : Nat) : Option (BitVec 8) :=
  s.denied t.grp c t.tm.ssp (t.cap t.tm.scap) (t.tm.src t.off e) t.tm.n false (t.tm.mcast != 0)

/-- The core that a receiver's destination is on. -/
def State.destCore (s : State) (c : Nat) (t : Transfer) (r : Receiver) : Nat :=
  if t.tm.mcast = 0 then c else s.grpCore t.grp r.rank

/-- An element's denial at a receiver. -/
def State.dstDenied (s : State) (c : Nat) (t : Transfer) (r : Receiver) (e : Nat) : Option (BitVec 8) :=
  s.denied t.grp (s.destCore c t r) t.tm.dsp (t.cap t.tm.dcap) (t.tm.dst t.off e) t.tm.n true false

/-- Where the bytes of a range that is read, or written, stand, as keys that tell spaces apart; nothing where it is denied. -/
def State.places (s : State) (g c sp : Nat) (cap : CapReg) (a : Int) (n : Nat) (dst : Bool) : List Nat :=
  match sp with
  | 0 => match s.sLoc c g a n with
    | .ok as => as.map (fun x => c * 2 ^ 20 + x)
    | _ => []
  | 1 => match s.cPhys (s.grpCtx g) (clusterOf c) a n with
    | some x => addrs (2 ^ 40 + x) n
    | none => []
  | 2 => (List.range n).filterMap (fun k : Nat => (s.hPhys (s.grpCtx g) (a + (k : Int)) (if dst then .wr else .rd)).map (fun x => 2 ^ 50 + x))
  | 3 => addrs (2 ^ 100 + pKey cap.v a.toNat) n
  | _ => []

/-- What an element reads, what it writes in this round, and what is still to be written of it. -/
def State.srcPlaces (s : State) (c : Nat) (t : Transfer) (e : Nat) : List Nat :=
  s.places t.grp c t.tm.ssp (t.cap t.tm.scap) (t.tm.src t.off e) t.tm.n false
def State.placesAt (s : State) (c : Nat) (t : Transfer) (r : Receiver) (e : Nat) : List Nat :=
  s.places t.grp (s.destCore c t r) t.tm.dsp (t.cap t.tm.dcap) (t.tm.dst t.off e) t.tm.n true
def State.dstPlaces (s : State) (c : Nat) (t : Transfer) (e : Nat) : List Nat :=
  t.receivers.flatMap (fun r => if e < t.endFor r ∧ r.start ≤ e then s.placesAt c t r e else [])
def State.owedPlaces (s : State) (c : Nat) (t : Transfer) (e : Nat) : List Nat :=
  t.receivers.flatMap (fun r => if t.owes r e then s.placesAt c t r e else [])

/-- An earlier transfer of the channel has yet to write a byte that the element reads or writes (R239), be it after a
`cresume`. -/
def State.behind (s : State) (c : Nat) (older : List Transfer) (t : Transfer) (e : Nat) : Bool :=
  let mine := s.srcPlaces c t e ++ s.dstPlaces c t e
  older.any (fun o => (List.range o.tm.count).any (fun k => (s.owedPlaces c o k).any (fun a => mine.contains a)))

/-- The elements that share an aligned 8-byte unit of the destination with a set, which land with it in one
indivisible write (R233). -/
def Transfer.units (t : Transfer) (e : Nat) : Int × Int :=
  let d := t.tm.dst t.off e
  (d / 8, (d + t.tm.n - 1) / 8)
def Transfer.together (t : Transfer) : Nat → List Nat → List Nat
  | 0, l => l
  | f + 1, l =>
    let us := l.map t.units
    let more := (List.range t.tm.count).filter (fun e => t.unsent e &&
      (l.contains e || us.any (fun u => decide (u.1 ≤ (t.units e).2 ∧ (t.units e).1 ≤ u.2))))
    if more.length = l.length then more else t.together f more

/-! Reading a source. -/

/-- What a source read comes to. -/
inductive SrcRead
  | ok (bs : List Byte) (poison : Bool) (s : State)
  /-- the bytes have been asked for and are not here yet -/
  | later (s : State)
  deriving DecidableEq

/-- What an xfence lets a copy read of an aligned 8-byte unit of the version (R221): the bytes held at its retirement, and the
unit after each of the writes accepted since. -/
def Version.fenced (v : Version) (xf : Nat) (p : Bool) (unit : Nat) : List (List (Nat × Byte)) :=
  let mine := fun l : List (Nat × Byte) => l.filter (fun w => w.1 / 8 == unit)
  let base := match v.xfs.find? xf with
    | none => []
    | some (h, q) => mine (if p then q else h)
  let later := ((v.xlog.filter (fun e => decide (xf ≤ e.1) && e.2.1 == p)).map (fun e => mine e.2.2)).filter (fun l => !l.isEmpty)
  later.foldl (fun acc w => acc ++ [laterBytes (acc.getLastD []) w]) [base]

/-- Bytes that a copy reads from the version of its task: of each unit a free choice among what R221 allows; none where
the version gives nothing. -/
def State.fencedBytes (s : State) (g xf : Nat) (p : Bool) (seen : Tbl (List (Nat × Byte))) : List Nat → List (Option Byte) × State
  | [] => ([], s)
  | k :: ks =>
    match Tbl.find? seen (k / 8) with
    | some l =>
      let q := s.fencedBytes g xf p seen ks
      (Tbl.find? l k :: q.1, q.2)
    | none =>
      let cs := if xf = 0 then [] else ((s.groups.find? g).map (fun x => x.ver.fenced xf p (k / 8))).getD []
      let r := s.pick cs.length
      let l := cs.getD r.1 []
      let q := r.2.fencedBytes g xf p ((k / 8, l) :: seen) ks
      (Tbl.find? l k :: q.1, q.2)

/-- Committed H bytes for a copy (spec/10_phase.md R214 item 2), with the acquire `rf` known to the strand that issued it
(R221), and never older than what the task itself has committed or read (R215, spec/20_programs_movement.md R402): one choice for
each aligned 8-byte unit. -/
def State.committedBytes (s : State) (g rf : Nat) : List (Nat × Nat) → Tbl (List Byte) → List Byte × State
  | [], _ => ([], s)
  | (va, pa) :: rest, seen =>
    match Tbl.find? seen (pa / 8) with
    | some bs =>
      let q := s.committedBytes g rf rest seen
      (bs.getD (pa % 8) 0 :: q.1, q.2)
    | none =>
      let mine := (((va, pa) :: rest).filter (fun e => e.2 / 8 == pa / 8)).map (fun e => e.1)
      let point := ((s.groups.find? g).map (fun x => mine.foldl (fun m a => max m (x.ver.refreshAt rf a)) (x.ver.seen.get 0 (pa / 8)))).getD 0
      let r := s.readUnit (pa / 8) point
      let q := r.2.2.committedBytes g rf rest ((pa / 8, r.1) :: seen)
      (r.1.getD (pa % 8) 0 :: q.1, q.2)

/-- The bytes of the version over others. -/
def overBytes (own : List (Option Byte)) (bs : List Byte) : List Byte := (own.zip bs).map (fun p => p.1.getD p.2)

/-- A core counts for a group that it still holds. -/
def State.countFor (s : State) (c g i n : Nat) : State :=
  if s.groupOf c = some g then s.modCore c (fun k => k.count i n) else s

/-- The pages of a range of pool bytes are LEASED, or asked for (spec/09_page.md R185): the flag tells that all
are. -/
def State.leasePages (s : State) (c g ms : Nat) : List Nat → Bool × State
  | [] => (true, s)
  | k :: ks =>
    let s := s.freshen k
    match s.page? k with
    | some p =>
      if p.st = .leased then (s.modPage k (fun p => { p with requestedMs := max p.requestedMs ms })).leasePages c g ms ks
      else
        let s := if p.st = .dropped then (s.requestPage k ms false g (dieOf c)).2
          else s.modPage k (fun p => { p with requestedMs := max p.requestedMs ms })
        (false, (s.leasePages c g ms ks).2)
    | none =>
      let r := s.requestPage k ms false g (dieOf c)
      (false, ((if r.1 then r.2.countFor c g 6 1 else r.2).leasePages c g ms ks).2)

/-- The answer to a copy's read of HOME pool bytes. -/
def State.copyAnswer (s : State) (g c ch key len : Nat) : Option (Nat × Remote) :=
  List.find? (fun e : Nat × Remote => e.2.kind == .copyRead c ch key len && e.2.grp == g) s.pool.remotes

/-- Committed pool bytes for a copy: a LEASED frame's, or for class HOME the pool's. -/
def State.poolBytes (s : State) (c ch : Nat) (t : Transfer) (cap : BitVec 128) (key n : Nat) : SrcRead :=
  if capHome cap then
    match s.copyAnswer t.grp c ch key n with
    | none => .later (if s.requestRoom c then (s.newRemote (.copyRead c ch key n) t.grp 0 0 (dieOf c)).2 else s)
    | some (tag, r) => match r.answer with
      | none => .later s
      | some (_, po) => .ok r.data po (s.dropRemote tag)
  else
    let pages := ([pageOf key, pageOf (key + n - 1)]).eraseDups
    let l := if s.requestRoom c pages.length || pages.all (fun p => t.pages.contains p) then s.leasePages c t.grp (leaseMs cap) pages
      else (false, s)
    if l.1 then
      let r := pages.foldl (fun (acc : List Byte × Bool × State) pk =>
        let mine := (addrs key n).filter (fun a => pageOf a == pk)
        let q := acc.2.2.frameRead t.grp pk (mine.headD 0 % 65536) mine.length
        (acc.1 ++ q.1, acc.2.1 || q.2.1, q.2.2)) (([], false, l.2) : List Byte × Bool × State)
      .ok r.1 r.2.1 (r.2.2.countFor c t.grp 5 1)
    else
      .later (l.2.modChan c ch (fun k => { k with queue := k.queue.map (fun x : Transfer =>
        if x.id = t.id then { x with pages := (x.pages ++ pages).eraseDups } else x) }))

/-- The bytes of an element's source, which is not denied. -/
def State.readSource (s : State) (c ch : Nat) (t : Transfer) (e : Nat) : SrcRead :=
  let a := t.tm.src t.off e
  let n := t.tm.n
  match t.tm.ssp with
  | 0 => match s.sLoc c t.grp a n with
    | .ok as => let r := s.sRead c as; .ok r.1 r.2.1 r.2.2
    | _ => .later s
  | 1 => match s.cPhys (s.grpCtx t.grp) (clusterOf c) a n with
    | some x =>
      let r := s.sealed.readAt (addrs x n)
      .ok r.1 r.2.1 { s with sealed := r.2.2 }
    | none => .later s
  | 2 => match s.hPhysRange (s.grpCtx t.grp) a n .rd with
    | some as =>
      let own := s.fencedBytes t.grp t.mark.xf false [] as
      let line := own.2.homeRead as
      let r := line.2.2.committedBytes t.grp t.mark.rf (List.zip (addrs a.toNat n) as) []
      .ok (overBytes own.1 r.1) line.2.1 r.2
    | none => .later s
  | 3 =>
    let key := pKey (t.cap t.tm.scap).v a.toNat
    let own := s.fencedBytes t.grp t.mark.xf true [] (addrs key n)
    if own.1.all (fun b => b.isSome) then .ok (own.1.map (fun b => b.getD 0)) false own.2
    else match s.poolBytes c ch t (t.cap t.tm.scap).v key n with
      | .ok bs po s' =>
        let q := s'.fencedBytes t.grp t.mark.xf true [] (addrs key n)
        .ok (overBytes q.1 bs) po q.2
      | .later s' => .later s'
  | _ => match s.wPhys (s.grpCtx t.grp) a n with
    | some x => let r := s.wRead x n; .ok r.1 r.2.1 r.2.2
    | none => .later s

/-- Read the sources of several elements: all of them, or what has been asked for. -/
def State.readSources (s : State) (c ch : Nat) (t : Transfer) : List Nat → Except State (List (Nat × List Byte × Bool) × State)
  | [] => .ok ([], s)
  | e :: es =>
    match s.readSource c ch t e with
    | .later s' => .error s'
    | .ok bs po s' =>
      match s'.readSources c ch t es with
      | .error q => .error q
      | .ok (l, q) => .ok ((e, bs, po) :: l, q)

/-! Writing a destination. -/

/-- The sum that a reduction leaves (R233). -/
def reduced (rt : Nat) (old new : List Byte) : List Byte :=
  match fmtOf rt with
  | some f => bytesLE old.length (f.round .rne false (Num.add .rne (f.value (natLE old)) (f.value (natLE new))))
  | none => bytesLE old.length (natLE old + natLE new)

/-- What an element writes to H or P space: where its bytes stand, but for units that it has written already. -/
def State.destWrites (s : State) (t : Transfer) (e : Nat) (bs : List Byte) : List (Nat × Byte) :=
  let d := t.tm.dst t.off e
  let n := t.tm.n
  let ws := if t.tm.dsp = 2 then (match s.hPhysRange (s.grpCtx t.grp) d n .wr with
      | some as => place as bs
      | none => [])
    else place (addrs (pKey (t.cap t.tm.dcap).v d.toNat) n) bs
  ws.filter (fun w => !t.early.contains (e, w.1 / 8))

/-- Write one element at one receiver: none where the context's version region is full (spec/10_phase.md
R223). -/
def State.writeDest (s : State) (c : Nat) (t : Transfer) (r : Receiver) (e : Nat) (bs : List Byte) (po : Bool) : Option State :=
  let d := t.tm.dst t.off e
  let n := t.tm.n
  let dc := s.destCore c t r
  match t.tm.dsp with
  | 0 => match s.sLoc dc t.grp d n with
    | .ok as =>
      if t.tm.rop = 1 then
        let old := s.sRead dc as
        some (old.2.2.sWrite dc as (reduced t.tm.rt old.1 bs) po)
      else some (s.sWrite dc as bs po)
    | _ => some s
  | 1 => match s.cPhys (s.grpCtx t.grp) (clusterOf dc) d n with
    | some x => some { s with sealed := s.sealed.writeAt (place (addrs x n) bs) false }
    | none => some s
  | _ => match s.destWrites t e bs with
    | [] => some s
    | ws => s.acceptBytes t.grp (t.tm.dsp == 3) ws

/-- Write an element at every receiver that takes it. -/
def State.writeAll (s : State) (c : Nat) (t : Transfer) (e : Nat) (bs : List Byte) (po : Bool) : List Receiver → Option State
  | [] => some s
  | r :: rs =>
    if r.start ≤ e ∧ e < t.endFor r then
      match s.writeDest c t r e bs po with
      | none => none
      | some s' => (s'.countFor c t.grp 4 t.tm.n).writeAll c t e bs po rs
    else s.writeAll c t e bs po rs

/-- Land elements that have been read. -/
def State.landAll (s : State) (c : Nat) (t : Transfer) : List (Nat × List Byte × Bool) → Option State
  | [] => some s
  | (e, bs, po) :: rest =>
    match s.writeAll c t e bs po t.receivers with
    | none => none
    | some s' => s'.landAll c t rest

/-! Channels. -/

def Channel.setTransfer (k : Channel) (t : Transfer) : Channel :=
  { k with queue := k.queue.map (fun x => if x.id = t.id then t else x) }
def State.setTransfer (s : State) (c ch : Nat) (t : Transfer) : State := s.modChan c ch (fun k => k.setTransfer t)

/-- A counter in S space at a home: none where its piece has not been read back. -/
inductive SCount
  | ok (as : List Nat) (v : Nat) (poison : Bool) (s : State)
  | absent
  | outside
  deriving DecidableEq

/-- The counter at an S address of a group's partition on a core. -/
def State.sCounter (s : State) (c g a : Nat) : SCount :=
  match s.sLoc c g a 8 with
  | .ok as => let r := s.sRead c as; .ok as (natLE r.1) r.2.1 r.2.2
  | .absent => .absent
  | .outside => .outside

/-- A counter has been changed, or not. -/
inductive Changed
  | ok (s : State)
  /-- its line is poisoned -/
  | poison (s : State)
  /-- its piece has not been read back -/
  | absent
  | outside
  deriving DecidableEq

/-- Change a counter of a group's partition on a core. A piece not read back yet is waited for while the group runs there;
of a saved group the piece's image has the counter (R243). -/
def State.changeCounter (s : State) (c g a : Nat) (f : Nat → Nat) : Changed :=
  match s.sCounter c g a with
  | .ok as v po s' => if po then .poison s' else .ok (s'.sWrite c as (bytesLE 8 (f v)) false)
  | .outside => .outside
  | .absent => match s.groups.find? g with
    | none => .absent
    | some x =>
      let rank := rankIn x.cores c
      match x.saved.bind (fun l => l[rank]?) with
      | none => .absent
      | some v =>
        if s.groupOf c = some g then .absent
        else
          let i := a / 16384
          let m := s.readPiece g rank i (v.pieces.get {} i)
          let r := m.readAt (addrs (a % 16384) 8)
          let put := fun m : Mem =>
            (s.modGroup g (fun x => { x with saved := x.saved.map (fun l => (List.zip (List.range l.length) l).map (fun e =>
              if e.1 = rank then { e.2 with pieces := e.2.pieces.put i m } else e.2)) })).writePiece g rank i m
          if r.2.1 then .poison (put r.2.2)
          else .ok (put (r.2.2.writeAt (place (addrs (a % 16384) 8) (bytesLE 8 (f (natLE r.1)))) false))

/-- The fault record of a transfer that stops (R245); a rejected template has no element (log entry 24). -/
def Transfer.fault (t : Transfer) (seqs : BitVec 32) : CopyRecord :=
  let tm := t.tm
  let w0 := fun cause : BitVec 8 => BitVec.ofNat 64 (seqs.toNat * 2 ^ 32 + (t.cidx.getD 0) % 2 ^ 16 * 2 ^ 16 + t.tidx.toNat * 2 ^ 8 + cause.toNat)
  if t.bad then { w0 := w0 4 }
  else
    let late := t.receivers.filter t.lacks
    let e := late.foldl (fun m r => min m (t.endFor r)) tm.count
    let src := t.srcDeny == some e
    let cause := if src then t.srcCause else ((late.find? (fun r => r.dropAt == some e)).map (fun r => r.cause)).getD 0
    let mask := if tm.mcast = 0 then 0 else late.foldl (fun m r => m + 2 ^ r.rank) 0
    let addr := BitVec.ofInt 48 (if src then tm.src t.off e else tm.dst t.off e)
    { w0 := w0 cause
      w1 := BitVec.ofNat 64 (tm.i2 e * 2 ^ 44 + tm.i1 e * 2 ^ 24 + tm.i0 e)
      w2 := BitVec.ofNat 64 (mask * 2 ^ 48 + (tm.count - e) % 2 ^ 48)
      w3 := BitVec.ofNat 64 ((if src then 0 else 2 ^ 51) + (if src then tm.ssp else tm.dsp) * 2 ^ 48 + addr.toNat) }

/-- A channel that stops (R242, R246). -/
def Channel.stopped (k : Channel) (t : Transfer) : Channel :=
  let r := t.fault t.seq
  { k with st := .stopped, record := r, cause := r.w0.extractLsb' 0 8, fpend := true, faultOwner := t.owner }

/-- A transfer stops under R235: the channel of its group is STOPPED and owes COPY_FAULT; where every strand of the
core is DONE the task is contained, be it saved (R246). A saved group's channel stops in its saved state, with the transfers behind
it (R243). -/
def State.stopTransfer (s : State) (c ch : Nat) (t : Transfer) : State :=
  if s.groupOf c = some t.grp then
    let s := s.modChan c ch (fun k => k.stopped t)
    if (s.coreAt c).allDone then s.contain t.grp 0x0D else s
  else
    let mine := ((s.coreAt c).chan ch).queue.filter (fun x => x.grp == t.grp)
    let s := s.modChan c ch (fun k => { k with queue := k.queue.filter (fun x => x.grp != t.grp) })
    let s := s.modGroup t.grp (fun x => { x with saved := x.saved.map (fun l =>
      (List.zip (List.range l.length) l).map (fun e =>
        if x.cores.getD e.1 0 = c then
          { e.2 with channels := e.2.channels.set {} ch (({ e.2.channels.get {} ch with
              queue := (e.2.channels.get {} ch).queue ++ mine } : Channel).stopped t) }
        else e.2)) })
    let allDone : Bool := match s.groups.find? t.grp with
      | none => false
      | some x => match x.saved.bind (fun l => l[rankIn x.cores c]?) with
        | none => false
        | some v => (List.range 8).all (fun k => (v.strands.get {} k).life == .done)
    if allDone then s.contain t.grp 0x0D else s

/-- A chain entry is fetched and its wait counter covers it. -/
def State.entryReady (s : State) (c ch : Nat) : Bool :=
  match ((s.coreAt c).chan ch).fetched, s.groupOf c with
  | some f, some g =>
    bitsOf f.w1 16 8 == 0 || (match s.sCounter c g (8 * bitsOf f.w1 0 16) with
      | .ok _ v _ _ => decide (bitsOf f.w1 16 8 ≤ v)
      | _ => false)
  | _, _ => false

/-- BUSY or IDLE, by what the channel still has to do (R242). -/
def State.chanRest (s : State) (c ch : Nat) : State :=
  let k := (s.coreAt c).chan ch
  if k.st = .stopped then s
  else
    let own := k.queue.any (fun t => some t.grp == s.groupOf c)
    s.modChan c ch (fun k => { k with st := if own || (k.st == .busy && s.entryReady c ch) then .busy else .idle })

/-- A transfer has a signal to apply (R237, R238). -/
def Transfer.signals (t : Transfer) : Bool := !t.nosig && t.tm.sigk != 0

/-- The receiver next to be signalled: of those that hold every element and have had no signal, the lowest rank. R237 does not
give the receivers' order: the model's choice (DESIGN CHOICE, log entry 60). -/
def Transfer.toSignal (t : Transfer) : Option Receiver :=
  t.receivers.find? (fun r => !r.signalled && !t.lacks r)

/-- What a step of the oldest transfer comes to. -/
inductive Settled
  | same
  | next (s : State)
  | stop (s : State)
  deriving DecidableEq

/-- The oldest transfer ends: it leaves the channel, and a chain entry posts its amount (R241). -/
def State.endTransfer (s : State) (c ch : Nat) (t : Transfer) (post : Bool) : Settled :=
  let leave := fun (s : State) => s.modChan c ch (fun k => { k with queue := k.queue.filter (fun x => x.id != t.id) })
  if !post || t.pamt = 0 then .next (leave s)
  else match s.changeCounter c t.grp (8 * t.pslot) (fun v => v + t.pamt) with
    | .absent => .same
    | .outside => .stop (s.fatal (s.grpCtx t.grp) 0x80)
    | .poison s' => .stop (s'.contain t.grp 0x40)
    | .ok s' => .next (leave s')

/-- Whether the oldest transfer ends, or stops, now that it has nothing more to send or to signal (R235, R237). -/
def State.settleOldest (s : State) (c ch : Nat) : Settled :=
  let k := (s.coreAt c).chan ch
  match k.queue with
  | [] => .same
  | t :: _ =>
    if (k.st = .stopped && s.groupOf c == some t.grp) || !t.started || t.remains then .same
    else if t.signals && t.toSignal.isSome then .same
    else if t.receivers.any t.lacks then .stop (s.stopTransfer c ch t)
    else s.endTransfer c ch t true

/-- Oldest transfers end one after another. -/
def State.settleChannel (s : State) (c ch : Nat) : Nat → State
  | 0 => s.chanRest c ch
  | f + 1 => match s.settleOldest c ch with
    | .same => s.chanRest c ch
    | .next s' => s'.settleChannel c ch f
    | .stop s' => s'
def State.settleChan (s : State) (c ch : Nat) : State := s.settleChannel c ch (((s.coreAt c).chan ch).queue.length + 1)

/-- Hand a transfer over to a channel (R238, R242). -/
def State.handOver (s : State) (c ch : Nat) (t : Transfer) : State :=
  s.modChan c ch (fun k => { k with
    queue := k.queue ++ [{ t with seq := k.seq }], seq := k.seq + 1, st := if k.st = .stopped then .stopped else .busy })

/-! Starting a transfer through the aperture. -/

/-- `st.cpa` at an aperture address (R238). -/
def startCopy (i : Instr) (d : BitVec 6) (a : Addr) (s : State) : Eff :=
  let x := s.me.rd d
  unlessPoison (a.2 || x.poison) (
    if a.1 % 8 ≠ 0 ∨ a.1 < 0 ∨ a.1 > 56 ∨ bitsOf x.v 9 7 ≠ 0 then .trap 0x0C 0 0
    else .done (s.enqueueC
      { id := 0, owner := 0, instr := i, ch := a.1.toNat / 8, tidx := x.v.extractLsb' 0 8, nosig := x.v.getLsbD 8,
        off := x.v.extractLsb' 16 48, caps := s.me.c }))

/-- `st.cpa`, one word (R238). -/
def execStCpaOneWord (pre : Pre) (d b : BitVec 6) (e : BitVec 4) (s : State) : Res :=
  issue (.stCpaOneWord pre d b e) s (fun s => startCopy (.stCpaOneWord pre d b e) d (s.me.oneAddr b e) s)

/-- `st.cpa`, two words (R238). -/
def execStCpaTwoWord (pre : Pre) (d b x : BitVec 6) (sc : BitVec 2) (disp : BitVec 20) (s : State) : Res :=
  issue (.stCpaTwoWord pre d b x sc disp) s (fun s => startCopy (.stCpaTwoWord pre d b x sc disp) d (s.me.mxAddr b x sc disp) s)

/-- A `st.cpa` entry. -/
def CEntry.isCopy (e : CEntry) : Bool :=
  match e.instr with
  | .stCpaOneWord _ _ _ _ => true
  | .stCpaTwoWord _ _ _ _ _ _ => true
  | _ => false

/-- The oldest copy-queue entry takes its tokens and its count (R238, spec/13_barrier.md R267, R268). -/
def State.takeCopyHead (s : State) (c : Nat) : State :=
  match (s.coreAt c).cq with
  | [] => s
  | e :: rest =>
    if e.taken || !s.engineRuns c then s
    else match s.startTake c .C e.instr with
      | none => s
      | some (co, m) => s.setCore c { co with cq := { e with taken := true, mark := e.mark.join m } :: rest }

/-- The oldest copy-queue entry, which has taken its tokens, is performed: a `st.cpa` is handed over once its channel has room
(R238). -/
def State.performCopyHead (s : State) (c : Nat) : State :=
  let co := s.coreAt c
  match co.cq with
  | [] => s
  | e :: rest =>
    if e.started || !e.taken || !s.engineRuns c || (e.isCopy && decide (16 ≤ (co.chan e.ch).inFlight)) then s
    else
      let s := s.setCore c { co with cq := { e with started := true } :: rest }
      if e.isCopy then
        s.handOver c e.ch { id := e.id, grp := s.coreGrp c, tidx := e.tidx, nosig := e.nosig, off := e.off,
                            caps := e.caps, mark := e.point, owner := e.owner }
      else s

/-- A performed entry retires: it signals and pushes its tokens, for which both FIFOs need room (R88). -/
def State.retireCopyHead (s : State) (c : Nat) : State :=
  let co := s.coreAt c
  match co.cq with
  | [] => s
  | e :: rest =>
    let n := (match e.instr with | .tokpush _ n _ => n.toNat | _ => 1)
    let sg := signalCount e.instr
    if !e.started || !co.room .C (instrPre e.instr) n then s
    else
      let co2 := co.semAdd sg.1 sg.2 e.mark
      s.setCore c ((({ co2 with cq := rest } : Core).push .C (instrPre e.instr) n e.mark).count 1 1)

/-- The copy queue's oldest entry takes its tokens, is performed, and retires, as far as it can. -/
def execCopyQueueHandover (c : Nat) (s : State) : Res := .next (((s.takeCopyHead c).performCopyHead c).retireCopyHead c)

/-! Transfers. -/

/-- The template at an index: its words and poison; none where it is not translated (R229). -/
def State.readTemplate (s : State) (ctx : Nat) (tidx : BitVec 8) : Option (List Word × Bool × State) :=
  match s.hPhysRange ctx ((bitsOf ((s.ctxAt ctx).eff 4) 0 48 + 64 * tidx.toNat : Nat) : Int) 64 .rd with
  | none => none
  | some as =>
    let r := s.homeRead as
    let bs := if r.2.1 then r.1 else s.bytesAt ((s.ctxAt ctx).point 3 0) as
    some (bytesWords 8 bs, r.2.1, r.2.2)

/-- A multicast mask names a rank outside the group, or a barrier to be credited is unused (R232,
spec/13_barrier.md R262). -/
def templateFits (tm : Tmpl) (x : Group) : Bool :=
  decide (tm.mcast < 2 ^ x.size) && (tm.sigk != 3 || (x.bar tm.sbar).used)

/-- A channel starts the oldest transfer not started, once transfers of another group before it have landed
(R239, R243). -/
def execTransferStart (c ch : Nat) (s : State) : Res :=
  let k := (s.coreAt c).chan ch
  match k.queue.find? (fun t => !t.started) with
  | none => .next s
  | some t =>
    let older := k.queue.takeWhile (fun x => x.id != t.id)
    match s.groups.find? t.grp with
    | none => .next s
    | some x =>
      if (k.st = .stopped && s.groupOf c == some t.grp) || older.any (fun o => o.grp != t.grp && !o.hasLanded) || x.contain.isSome then .next s
      else
        let go := fun (ws : List Word) (s : State) =>
          let tm := Tmpl.of ws
          if t.bad || !templateOk ws || !templateFits tm x then
            let t : Transfer := { t with bad := true, tmpl := ws }
            if older.isEmpty then (s.setTransfer c ch t).stopTransfer c ch t else s
          else if (tm.ssp == 3 && (t.cap tm.scap).poison) || (tm.dsp == 3 && (t.cap tm.dcap).poison) then s.contain t.grp 0x40
          else
            let ranks := if tm.mcast = 0 then [rankIn x.cores c] else (List.range 16).filter (fun r => tm.mcast.testBit r)
            let t := { t with tmpl := ws, started := true, receivers := ranks.map (fun r => { rank := r }) }
            (s.setTransfer c ch t).settleChan c ch
        if t.bad then .next (go t.tmpl s)
        else match s.readTemplate x.ctx t.tidx with
          | none => .next (s.fatal x.ctx 0x80)
          | some (ws, po, s') => if po then .next (s'.contain t.grp 0x40) else .next (go ws s')

/-- What denials an element meets among the elements not judged yet up to and with the last of `upto`:
the first at the source, and each receiver's first (R235). -/
def State.judge (s : State) (c : Nat) (t : Transfer) (upto : Nat) : Transfer :=
  let open' := (List.range (upto + 1)).filter (fun e => decide (t.judged ≤ e) && t.unsent e)
  let t := match open'.find? (fun e => (s.srcDenied c t e).isSome) with
    | none => t
    | some e => { t with srcDeny := some e, srcCause := (s.srcDenied c t e).getD 0 }
  { t with receivers := t.receivers.map (fun r =>
      match open'.find? (fun e => decide (r.start ≤ e ∧ e < t.endFor r) && (s.dstDenied c t r e).isSome) with
      | none => r
      | some e => { r with dropAt := some e, cause := (s.dstDenied c t r e).getD 0 }) }

/-- What the turn of an element comes to. -/
inductive Landing
  | next (s : State)
  /-- these elements of the transfer land, with the bytes and poison read for them -/
  | land (t : Transfer) (es : List Nat) (l : List (Nat × List Byte × Bool)) (s : State)
  deriving DecidableEq

/-- An element of a started transfer is checked, and its source read with those of the elements that share an aligned 8-byte unit
of the destination (R233 to R236). -/
def State.landing (s : State) (c ch n elem : Nat) : Landing :=
  let k := (s.coreAt c).chan ch
  match k.queue.find? (fun t => t.id == n) with
  | none => .next s
  | some t0 =>
    let older := k.queue.takeWhile (fun x => x.id != n)
    let held := match s.groups.find? t0.grp with | none => true | some x => x.contain.isSome
    if held || !t0.started || !t0.unsent elem || (k.st = .stopped && s.groupOf c == some t0.grp) then .next s
    else
      let all := t0.together t0.tm.count [elem]
      let t := s.judge c t0 (all.foldl max elem)
      let es := all.filter t.unsent
      if es.any (s.behind c older t) then .next s
      else
        let s := s.setTransfer c ch t
        match s.readSources c ch t es with
        | .error s' => .next s'
        | .ok (l, s') =>
          if t.tm.dsp ≠ 0 ∧ l.any (fun e => e.2.2) = true then .next (s'.contain t.grp 0x40)
          else .land t es l s'

/-- The number under which a core keeps the units that an element has landed there ahead of its others. -/
def landId (n elem : Nat) : Nat := (n + 1) * 2 ^ 64 + elem

/-- The elements land: units of them that have landed already stay as they are. -/
def State.landRest (s : State) (c ch : Nat) (t : Transfer) (es : List Nat) (l : List (Nat × List Byte × Bool)) : State :=
  match s.landAll c t l with
  | none => s.fatal (s.grpCtx t.grp) 0x81
  | some s' =>
    let at_ := (t.receivers.map (s.destCore c t)).eraseDups
    let s' := es.foldl (fun r e => at_.foldl (fun r x => s.afterSeen x (landId t.id e) r) r) s'
    let t := { t with landed := es.foldl (fun m e => m.set false e true) t.landed, pages := []
                      early := t.early.filter (fun u => !es.contains u.1) }
    (s'.setTransfer c ch t).settleChan c ch

/-- An element of a started transfer lands where its source and a receiver permit it, with those that share an aligned 8-byte unit
of the destination (R233 to R236). -/
def execTransferElementLand (c ch n elem : Nat) (s : State) : Res :=
  match s.landing c ch n elem with
  | .next s' => .next s'
  | .land t es l s' => .next (s'.landRest c ch t es l)

/-- An element that could land writes one aligned 8-byte unit of its destination ahead of its others (spec/10_phase.md R222): in the
scratchpad of core `x`, or in the version. A reduction is one update (R233). -/
def State.landUnit (s : State) (c ch n elem x unit : Nat) : State :=
  match s.landing c ch n elem with
  | .next _ => s
  | .land t es l s1 =>
    if t.tm.rop = 1 ∨ t.tm.dsp = 1 then s
    else if t.tm.dsp = 0 then
      match s1.landAll c t l with
      | none => s
      | some s' => (s1.peekUnit x (landId n elem) unit s').modCore x (fun co =>
          { co with peeks := co.peeks.map (fun p => if p.id = landId n elem then { p with grp := some t.grp } else p) })
    else
      let ws := (l.flatMap (fun e => s1.destWrites t e.1 e.2.1)).filter (fun w => w.1 / 8 == unit)
      if ws.isEmpty then s
      else match s1.acceptBytes t.grp (t.tm.dsp == 3) ws with
        | none => s1.fatal (s1.grpCtx t.grp) 0x81
        | some s' => s'.setTransfer c ch { t with early := t.early ++ es.map (fun e => (e, unit)) }

/-- The put-with-signal at one receiver (R237): none where it cannot be applied yet, its counter being in a piece not read back.
R237 does not speak of such a counter; the signal waits for the piece, as an access of a strand does (DEDUCED, log entry 60). -/
def State.applySignal (s : State) (c : Nat) (t : Transfer) (r : Receiver) : Settled :=
  let tm := t.tm
  let x := s.destCore c t r
  let dec := fun v : Nat => v + 2 ^ 64 - tm.sdec
  match tm.sigk with
  | 1 => match s.changeCounter x t.grp tm.sadr dec with
    | .absent => .same
    | .outside => .stop (s.fatal (s.grpCtx t.grp) 0x80)
    | .poison s' => .stop (s'.contain t.grp 0x40)
    | .ok s' => .next s'
  | 2 => match s.hPhys (s.grpCtx t.grp) tm.sadr .rdwr with
    | none => .stop (s.fatal (s.grpCtx t.grp) 0x80)
    | some pa =>
      let q := s.homeRead (addrs pa 8)
      if q.2.1 then .stop (q.2.2.contain t.grp 0x40)
      else .next (q.2.2.commitBytes (place (addrs pa 8) (bytesLE 8 (dec (natLE q.1)))))
  | 3 => .next (s.barUpdate t.grp tm.sbar (fun b => { b with bytes := b.bytes - (tm.count * tm.n : Nat) }))
  | _ => .next s

/-- The oldest transfer of a channel applies its signal at the next receiver that holds every element (R237). -/
def execTransferSignal (c ch : Nat) (s : State) : Res :=
  let k := (s.coreAt c).chan ch
  match k.queue with
  | [] => .next s
  | t :: _ =>
    let held := match s.groups.find? t.grp with | none => true | some x => x.contain.isSome
    if held || !t.started || t.remains || (k.st = .stopped && s.groupOf c == some t.grp) then .next s
    else match t.toSignal with
      | none => .next (s.settleChan c ch)
      | some r =>
        if !t.signals then .next (s.settleChan c ch)
        else match s.applySignal c t r with
          | .same => .next s
          | .stop s' => .next s'
          | .next s' =>
            let t := { t with receivers := t.receivers.map (fun q => if q.rank = r.rank then { q with signalled := true } else q) }
            .next ((s'.setTransfer c ch t).settleChan c ch)

/-! Chains. -/

/-- Use one kick: what precedes the group of kicks it came from. -/
def Link.kick (l : Link) : Option (Mark × Link) :=
  match l.kicks with
  | [] => none
  | (n, mark) :: rest =>
    some (mark, { l with kicks := if n ≤ 1 then rest else (n - 1, mark) :: rest, pos := (l.pos + 1) % l.n })

/-- A linked channel reads its next chain entry (R240, R241). -/
def execChainEntryFetch (c ch : Nat) (s : State) : Res :=
  let k := (s.coreAt c).chan ch
  match k.link, k.fetched, s.groupOf c with
  | some l, none, some g =>
    match l.kick with
    | none => .next s
    | some (mark, l') =>
      if !s.engineRuns c then .next s
      else match s.sLoc c g ((l.base.toNat + 16 * l.pos : Nat) : Int) 16 with
        | .ok as =>
          let r := s.sRead c as
          let ws := bytesWords 2 r.1
          let w0 := ws.getD 0 0
          let w1 := ws.getD 1 0
          let s := r.2.2.modChan c ch (fun k => { k with link := some l' })
          if r.2.1 then .next (s.contain g 0x40)
          else if bitsOf w0 9 7 ≠ 0 ∨ bitsOf w1 48 16 ≠ 0 then .next (s.contain g 0x0C)
          else .next (s.modChan c ch (fun k => { k with
            fetched := some { w0 := w0, w1 := w1, idx := l.pos, mark := mark, caps := l.caps, owner := l.owner } }))
        | _ => .next s
  | _, _, _ => .next s

/-- An aperture transfer stands ready at the head of the copy queue for the same channel; it is handed over
first (R241). -/
def State.apertureFirst (s : State) (c ch : Nat) : Bool :=
  let co := s.coreAt c
  match co.cq with
  | [] => false
  | e :: _ => e.isCopy && !e.started && e.ch == ch && s.engineRuns c && (e.taken || (s.startTake c .C e.instr).isSome)

/-- A fetched chain entry whose counter covers `WAMT` takes it and is handed over (R241). -/
def execChainEntryReady (c ch : Nat) (s : State) : Res :=
  let k := (s.coreAt c).chan ch
  match k.fetched, s.groupOf c with
  | some f, some g =>
    if !s.engineRuns c || decide (16 ≤ k.inFlight) || s.apertureFirst c ch then .next s
    else
      let hand := fun (s : State) =>
        let n := s.fresh
        (n.2.modChan c ch (fun k => { k with fetched := none })).handOver c ch
          { id := n.1, grp := g, tidx := f.w0.extractLsb' 0 8, nosig := f.w0.getLsbD 8, off := f.w0.extractLsb' 16 48,
            caps := f.caps, mark := f.mark, owner := f.owner, cidx := some f.idx, pamt := bitsOf f.w1 40 8,
            pslot := bitsOf f.w1 24 16 }
      let wamt := bitsOf f.w1 16 8
      if wamt = 0 then .next (hand s)
      else match s.sCounter c g (8 * bitsOf f.w1 0 16) with
        | .absent => .next s
        | .outside => .next (s.fatal (s.grpCtx g) 0x80)
        | .ok as v po s' =>
          if po then .next (s'.contain g 0x40)
          else if v < wamt then .next s
          else .next (hand (s'.sWrite c as (bytesLE 8 (v - wamt)) false))
  | _, _ => .next s

/-! Channel control (R244). -/

/-- What a `cdrain` waits for: transfers of the channel and this strand's `st.cpa` entries to it. -/
def State.drainSet (s : State) (ch : Nat) : List Nat :=
  let co := s.myCore
  ((co.chan ch).queue.filter (fun t => some t.grp == co.group)).map (fun t => t.id) ++
  (co.cq.filter (fun e => e.isCopy && e.ch == ch && e.owner == s.strand)).map (fun e => e.id)

/-- Some of these transfers have not ended. -/
def State.drains (s : State) (ch : Nat) (ids : List Nat) : Bool :=
  ids.any (fun i => (s.myCore.chan ch).queue.any (fun t => t.id == i) || s.myCore.cq.any (fun e => e.id == i))

/-- `cdrain` (R244): stage 1 waits. -/
def execCdrain (pre : Pre) (c : BitVec 6) (s : State) : Res :=
  issue (.cdrain pre c) s (fun s =>
    let ids := if s.me.micro.stage = 1 then s.me.micro.ids else s.drainSet c.toNat
    if s.drains c.toNat ids then
      .hold (s.modMe (fun t => { t with micro := { stage := 1, ids := ids } })) (.drain c.toNat ids)
    else .done s)

/-- `ckick` (R244). -/
def execCkick (pre : Pre) (c a : BitVec 6) (s : State) : Res :=
  issue (.ckick pre c a) s (fun s =>
    let r := s.me.rd a
    unlessPoison r.poison (
      match (s.myCore.chan c.toNat).link with
      | none => .trap 0x0C 0 0
      | some l =>
        if (l.kicks.map (fun k => k.1)).foldl (· + ·) 0 + r.v.toNat > 2 ^ 32 - 1 then .trap 0x0C 0 0
        else if r.v = 0 then .done s
        else .done (s.modChan s.core c.toNat (fun k => { k with link := some { l with kicks := l.kicks ++ [(r.v.toNat, s.me.mark)] } }))))

/-- `clink` (R244). -/
def execClink (pre : Pre) (c a : BitVec 6) (s : State) : Res :=
  issue (.clink pre c a) s (fun s =>
    let r := s.me.rd a
    unlessPoison r.poison (
      let n := bitsOf r.v 48 16
      let base := bitsOf r.v 0 48
      let size := match s.myGroup with | some (_, x) => x.kdesc.pieces * 16384 | none => 0
      if base % 16 ≠ 0 ∨ base + 16 * n > size then .trap 0x0C 0 0
      else
        let t := s.me
        let l : Link := { base := r.v.extractLsb' 0 48, n := n, caps := t.c, owner := s.strand }
        .done (s.modChan s.core c.toNat (fun k => { k with link := if n = 0 then none else some l }))))

/-- The transfer of the resident group at which its channel is STOPPED. -/
def State.stoppedOne (s : State) (c ch : Nat) : Option Transfer :=
  ((s.coreAt c).chan ch).queue.find? (fun t => some t.grp == s.groupOf c)

/-- A stopped transfer continues: each receiver that lacks elements from the first it lacks (R242); one that holds every
element gets none again. -/
def Transfer.resumed (t : Transfer) : Transfer :=
  { t with
    receivers := t.receivers.map (fun r : Receiver =>
      { r with start := if t.lacks r then max r.start (t.endFor r) else t.tm.count, dropAt := none, cause := 0 })
    srcDeny := none, srcCause := 0, landed := [] }

/-- `cresume` (R244). -/
def execCresume (pre : Pre) (c a : BitVec 6) (s : State) : Res :=
  issue (.cresume pre c a) s (fun s =>
    let r := s.me.rd a
    unlessPoison r.poison (
      if r.v.toNat > 1 then .trap 0x0C 0 0
      else
        let k := s.myCore.chan c.toNat
        if k.st ≠ .stopped then .done s
        else
          let s := s.modChan s.core c.toNat (fun k => { k with st := .busy, cause := 0 })
          match s.stoppedOne s.core c.toNat with
          | none => .done (s.chanRest s.core c.toNat)
          | some t =>
            if r.v = 0 then .done (s.setTransfer s.core c.toNat (if t.bad then t else t.resumed))
            else match s.endTransfer s.core c.toNat t false with
              | .next s' => .done (s'.settleChan s.core c.toNat)
              | _ => .done s))

/-- The status word of a channel (R245). A stopped transfer is no longer in flight, as the status of the worked example has
it. -/
def State.chanStatus (s : State) (c ch : Nat) : Word :=
  let k := (s.coreAt c).chan ch
  let kicks := match k.link with | none => 0 | some l => (l.kicks.map (fun k => k.1)).foldl (· + ·) 0
  let mine := k.queue.filter (fun t => some t.grp == s.groupOf c)
  let infl := ((if k.st = .stopped then mine.drop 1 else mine).filter (fun t => !t.hasLanded)).length
  let st := match k.st with | .idle => 0 | .busy => 1 | .stopped => 2
  BitVec.ofNat 64 (kicks * 2 ^ 32 + infl * 2 ^ 16 + k.cause.toNat * 2 ^ 8 + (if k.fpend then 8 else 0) +
    (if k.link.isSome then 4 else 0) + st)

/-- `cstat` (R244, R245). -/
def execCstat (pre : Pre) (d a : BitVec 6) (s : State) : Res :=
  issue (.cstat pre d a) s (fun s =>
    let r := s.me.rd a
    unlessPoison r.poison (
      if bitsOf r.v 6 58 ≠ 0 ∨ bitsOf r.v 3 3 > 4 then .trap 0x0C 0 0
      else
        let ch := bitsOf r.v 0 3
        let q := (s.myCore.chan ch).record
        let v := match bitsOf r.v 3 3 with
          | 0 => s.chanStatus s.core ch
          | 1 => q.w0
          | 2 => q.w1
          | 3 => q.w2
          | _ => q.w3
        scalarResult d { v := v } s))

/-! The owed fault. -/

/-- A strand takes an owed COPY_FAULT (R246): at an instruction boundary, or at once where it is WAITING, once every earlier S
instruction has retired (spec/05_strand.md R86); a strand in the wait half of its `bar` keeps its token. -/
def execCopyFaultTaken (c k : Nat) (s : State) : Res :=
  let t := s.strandAt c k
  match (s.coreAt c).owedChannel k with
  | none => .next s
  | some ch =>
    let boundary := t.life == .waiting || ((t.life == .running || (t.life == .halted && t.stepping)) && t.micro.stage == 0)
    if t.inHandler || !boundary || t.outs != 0 then .next s
    else
      let half := match t.wait with
        | .barrier j tok => if t.life = .waiting && t.micro.stage = 1 then some (j, tok) else none
        | _ => none
      let s := (s.modChan c ch (fun q => { q with fpend := false })).setStrand c k
        { t with waitHalf := half, life := (if t.life = .waiting then .running else t.life), wait := .grants [], micro := {} }
      let s := { s with core := c, strand := k }
      .next (s.takeTrap 0x0D (BitVec.ofNat 64 ch) 0)

end Sys2Proof.Machine
end

