-- ==== Sys2Proof/Machine/Flash.lean ====
section
/-! DEFINITION. The serial flash: its authentication, its write counter, and the check of a firmware image
(spec/01_package.md R18; spec/19_host.md R390, R392). -/

namespace Sys2Proof.Machine

/-! The device (R392). -/

/-- The bytes of an image's header: its length and its version (PRESUMED, log entry 67: their places). -/
def imageHeader (i : Image) : List Byte := bytesLE 8 i.length ++ bytesLE 4 i.version.toNat

/-- What an answer of the flash authenticates: the write counter and the contents (PRESUMED, log entry 67: their places). -/
def Flash.message (f : Flash) : List Byte :=
  let image := fun (i : Image) => imageHeader i ++ i.bytes ++ i.key ++ i.signature
  (bytesLE 8 f.counter ++ bytesLE 8 f.cfgGen.toNat ++ bytesLE 8 f.leaf ++ f.certificate) ++
  (image f.recovery ++ image f.bitstream ++ bytesLE 8 f.recoveryFloor.toNat ++ bytesLE 8 f.bitstreamFloor.toNat)

/-- The device's tag is the one that the key shared at manufacture gives. -/
def Flash.tagRight (f : Flash) : Bool :=
  match f.key with
  | none => true
  | some k => kmac256 k f.message "" 32 == kmac256 Config.flashKey f.message "" 32

/-- An access to the flash authenticates: its tag is right and its counter is not old (R392). -/
def State.flashAnswers (s : State) : Bool := s.flash.tagRight && decide (s.pkg.flashSeen ≤ s.flash.counter)

/-- The package has read the flash: it knows the counter. -/
def State.readFlash (s : State) : State := { s with pkg := { s.pkg with flashSeen := s.flash.counter } }

/-- A write to the flash advances its counter; one that does not authenticate writes nothing (log entry 67). -/
def State.writeFlash (s : State) (f : Flash → Flash) : State :=
  if s.flashAnswers then
    { s with flash := { f s.flash with counter := s.flash.counter + 1 }, pkg := { s.pkg with flashSeen := s.flash.counter + 1 } }
  else s

/-! Images (R390). -/

/-- An image is Mbonto's: its header gives its length, its key is the one whose digest the mask ROM holds, and its signature is
one over header and bytes (log entry 67). -/
def imageSigned (i : Image) : Bool :=
  decide (i.length = i.bytes.length) && shake256 i.key 64 == Config.romKeyDigest && Config.xmssVerify i.key (imageHeader i ++ i.bytes) i.signature

/-- It is signed and its version is not below the floor of its kind. -/
def imageGood (i : Image) (floor : BitVec 32) : Bool := imageSigned i && decide (floor.toNat ≤ i.version.toNat)

/-- What CONFIGURE asks of the flash: it authenticates, and both its images are good. -/
def State.flashGood (s : State) : Bool :=
  s.flashAnswers && (imageGood s.flash.recovery s.flash.recoveryFloor && imageGood s.flash.bitstream s.flash.bitstreamFloor)

end Sys2Proof.Machine
end

