-- ==== Sys2Proof/Machine/Land.lean ====
section
/-! DEFINITION. How a port sequencer stops, where its local bytes are and how a get lands (spec/18_link.md R378, R380). -/

namespace Sys2Proof.Machine

/-! How a sequencer stops (spec/18_link.md R378). -/

/-- Link operations of a port that are outstanding. -/
def State.linkOps (s : State) (p : Nat) : List (Nat × Remote) := s.pool.remotes.filter (fun e => e.2.port == p && e.2.kind.link)

/-- A sequencer goes IDLE with a cause. -/
def Sequencer.stop (q : Sequencer) (last : BitVec 8) : Sequencer :=
  { q with st := .idle, last := last, word := none, skip := none, sent := 0 }

/-- The sequencer of a port goes IDLE with a cause: gets in flight are dropped and no further message is begun. -/
def State.seqStop (s : State) (p g : Nat) (cause : BitVec 8) : State :=
  let mine := ((s.linkOps p).filter (fun e => e.2.grp == g)).map (fun e => e.1)
  let s := { s with pool := { s.pool with remotes := s.pool.remotes.filter (fun e => !mine.contains e.1) } }
  (s.modPort p (fun x => x.takeBack mine)).modSeq p (fun q => q.stop cause)

/-- A fault of a link program: its sequencer stops and the task is contained. -/
def State.seqContain (s : State) (p : Nat) (cause : BitVec 8) : State :=
  match (s.portAt p).seq.grp with
  | none => s.modSeq p (fun q => q.stop cause)
  | some g => (s.seqStop p g cause).contain g cause

/-- The sequencers bound to a group. -/
def State.seqsOf (s : State) (g : Nat) : List Nat := (s.ports.filter (fun e => e.2.seq.grp == some g)).map (fun e => e.1)

/-- The sequencers of a contained task stop at once, though a boundary may still put its containment off (R378). -/
def State.stopSeqs (s : State) (g : Nat) (cause : BitVec 8) : State :=
  (s.seqsOf g).foldl (fun s p => if (s.portAt p).seq.st = .idle then s else s.seqStop p g cause) s

/-- An operation of a link program or of a strand fails: the task is contained, and with a link program's its sequencer
stops. -/
def State.remoteFails (s : State) (r : Remote) (cause : BitVec 8) : State :=
  if r.kind.link && (s.portAt r.port).seq.grp == some r.grp then s.seqContain r.port cause else s.contain r.grp cause

/-! Where a sequencer's bytes are (spec/18_link.md R380). -/

/-- The physical places of a sequencer's local range: scratchpad bytes of a core, or HBM bytes; absent where a piece
has not been read back. -/
inductive Local
  | s (c : Nat) (as : List Nat)
  | h (as : List Nat)
  | absent
  | fault
def State.localRange (s : State) (port g : Nat) (kind : BitVec 2) (a n : Nat) (right : Right) : Local :=
  match s.groups.find? g with
  | none => .fault
  | some x =>
    if kind = 0 then
      let c := x.cores.getD (s.portAt port).seq.rank 0
      match s.sLoc c g a n with
      | .ok as => .s c as
      | .absent => .absent
      | .outside => .fault
    else match s.hPhysRange x.ctx a n right with
      | some as => .h as
      | none => .fault

/-- A get's lines are written to the scratchpad, each with its own mark (spec/11_copy.md R236). -/
def State.landLines (s : State) (c : Nat) (as : List Nat) (bs : List Byte) (poison : List Nat) : State :=
  (List.range ((bs.length + 63) / 64)).foldl (fun s i =>
    s.sWrite c ((as.drop (64 * i)).take 64) ((bs.drop (64 * i)).take 64) (poison.contains i)) s

/-- A sequencer's get lands as copy elements land (R380, spec/10_phase.md R222, spec/11_copy.md R236): a poisoned line marks the
scratchpad line that it reaches, and contains the task where the data would leave the core. -/
def State.landGet (s : State) (tag : Nat) (r : Remote) (kind : BitVec 2) (a : Nat) (bs : List Byte) (poison : List Nat) : State :=
  match s.localRange r.port r.grp kind a bs.length .wr with
  | .s c as => (s.landLines c as bs poison).dropRemote tag
  | .h as =>
    if !poison.isEmpty then s.remoteFails r 0x40
    else match s.acceptBytes r.grp false (place as bs) with
      | none => s.fatal (((s.groups.find? r.grp).map (fun x => x.ctx)).getD 0) 0x81
      | some s => s.dropRemote tag
  | .absent =>
    { s with pool := { s.pool with remotes := s.pool.remotes.put tag { r with data := bs, lines := poison, answer := some (0, !poison.isEmpty) } } }
  | .fault => s.fatal (((s.groups.find? r.grp).map (fun x => x.ctx)).getD 0) 0x80

/-- Gets of a group that have arrived and whose scratchpad piece was not back yet land now (spec/16_context.md R340). -/
def State.landPending (s : State) (g : Nat) : State :=
  s.pool.remotes.foldl (fun s e => match e.2.kind, e.2.answer with
    | .get _ _ kind a _, some _ => if e.2.grp = g then s.landGet e.1 e.2 kind a e.2.data e.2.lines else s
    | _, _ => s) s

end Sys2Proof.Machine
end

