-- ==== Sys2Proof/Machine/Link.lean ====
section
/-! DEFINITION. The registers of a port that software reads, the port sequencers with their words, and the link
instructions (spec/18_link.md R361 to R363, R377 to R382). -/

namespace Sys2Proof.Machine

/-! Lanes and the port's registers. -/

/-- A lane of a port. -/
def Port.lane (q : Port) (i : Nat) : Lane := q.lanes.get {} i
def State.modLane (s : State) (p i : Nat) (f : Lane → Lane) : State :=
  s.modPort p (fun q => { q with lanes := q.lanes.set {} i (f (q.lane i)) })

/-- A set of lanes as a mask. -/
def laneMask (f : Nat → Bool) : BitVec 16 := BitVec.ofNat 16 ((List.range 16).foldl (fun n i => if f i then n + 2 ^ i else n) 0)
/-- The lanes of a mask, and how many they are. -/
def lanesOf (m : BitVec 16) : List Nat := (List.range 16).filter (fun i => m.getLsbD i)
def laneCount (m : BitVec 16) : Nat := (lanesOf m).length

/-- Laser `i` of a port is retired (R363); the flash keeps it. -/
def State.retired (s : State) (p i : Nat) : Bool := s.flash.ret.get false (p * 16 + i)
/-- `AGE` of a laser in minutes: what the flash holds and what has come since its last write (R363). -/
def State.laserAge (s : State) (p i : Nat) : BitVec 32 :=
  s.flash.age.get 0 (p * 16 + i) + BitVec.ofNat 32 ((s.portAt p).lane i).fresh

/-- Healthy transmit lanes: lasers not retired; `TXOK` reads its reset value until the first ENABLE (R361, R362). -/
def State.healthyTx (s : State) (p : Nat) : BitVec 16 :=
  if (s.portAt p).enabled then laneMask (fun i => !s.retired p i) else 0
/-- Healthy receive lanes: light and codeword lock (R361). -/
def Port.healthyRx (q : Port) : BitVec 16 := laneMask (fun i => (q.lane i).locked && !(q.lane i).rxlos)

/-- The code of a port state (R362). -/
def PortState.code : PortState → Nat
  | .dark => 0 | .seek => 1 | .train => 2 | .active => 3 | .degraded => 4 | .retrain => 5 | .failed => 6 | .bypassed => 7
/-- The code of a sequencer state (R377). -/
def SqState.code : SqState → Nat
  | .idle => 0 | .running => 1 | .waiting => 2 | .fencing => 3 | .paused => 4

/-- `PSTATE` (R362). -/
def State.pstate (s : State) (p : Nat) : Word :=
  let q := s.portAt p
  BitVec.ofNat 64 ((s.healthyTx p).toNat * 2 ^ 48 + q.healthyRx.toNat * 2 ^ 32 + q.w % 32 * 2 ^ 24 + q.rate.toNat * 2 ^ 22 +
    q.cause.toNat * 256 + q.st.code)

/-- Insert into a rising list. -/
def insertNat (v : Nat) : List Nat → List Nat
  | [] => [v]
  | a :: t => if v ≤ a then v :: a :: t else a :: insertNat v t

/-- `PEOLH`: with n lasers not retired the (n − 3)th smallest of their `EOLH`, 0 below four (R363). -/
def State.peolh (s : State) (p : Nat) : Word :=
  let l := (((List.range 16).filter (fun i => !s.retired p i)).map (fun i => ((s.portAt p).lane i).eolh.toNat)).foldl (fun t v => insertNat v t) []
  if l.length < 4 then 0 else BitVec.ofNat 64 (l.getD (l.length - 4) 0)

/-- The sequencer status word (R377). -/
def Sequencer.status (q : Sequencer) (bound : Bool) : Word :=
  BitVec.ofNat 64 (q.spcw.toNat * 2 ^ 32 + q.last.toNat * 256 + bound.toNat * 8 + q.st.code)

/-! The sequencer's operations. -/

/-- A get of the port has not landed. -/
def State.getsOpen (s : State) (p : Nat) : Bool :=
  (s.linkOps p).any (fun e => match e.2.kind with | .get _ _ _ _ _ => true | _ => false)

/-- A fatal error of a link program. -/
def State.seqFatal (s : State) (p g : Nat) (cause : BitVec 8) : State :=
  (s.modSeq p (fun q => q.stop cause)).fatal (s.grpCtx g) cause

/-- The focus sequencer's word has been performed: it changes and goes on at the next word. -/
def State.seqNext (s : State) (f : Sequencer → Sequencer) : State :=
  s.modSeq s.port (fun q => let q' := f q; { q' with spcw := q'.spcw + 1, word := none, sent := 0 })

/-- Perform a word of the focus sequencer: it is RUNNING for a task that is not being contained. -/
def onSeq (s : State) (go : Sequencer → Nat → State) : Res :=
  let q := (s.portAt s.port).seq
  match q.grp with
  | none => .next s
  | some g =>
    match s.groups.find? g with
    | none => .next s
    | some x => if q.st = .running && x.contain.isNone then .next (go q g) else .next s

/-- The sequencer fetches its next word from H space as committed; a word that is none contains the task; words of a
loop with count 0 are passed over (R380). -/
def execSequencerWordFetch (port : Nat) (s : State) : Res :=
  let s : State := { s with port := port }
  onSeq s (fun q g =>
    match q.word with
    | some w => match decodeSq w with
      | .ok _ => s
      | .bad _ => s.seqContain port 0x01
    | none =>
      match s.hPhys (s.grpCtx g) ((q.prog.toNat + 8 * q.spcw.toNat : Nat) : Int) .rd with
      | none => s.seqFatal port g 0x80
      | some pa =>
        let r := s.homeRead (addrs pa 8)
        let w : Word := BitVec.ofNat 64 (natLE r.1)
        if r.2.1 then r.2.2.seqContain port 0x40
        else match q.skip with
          | none => r.2.2.modSeq port (fun q => { q with word := some w })
          | some k => match decodeSq w with
            | .ok (.sqEndl k' _) => r.2.2.seqNext (fun q => if k' = k then { q with skip := none } else q)
            | _ => r.2.2.seqNext id)

/-- A WAITING sequencer whose count has come takes it and goes on; a FENCING one whose operations are complete is RUNNING
again at its word (R378). -/
def execSequencerWaitEnd (port : Nat) (s : State) : Res :=
  let q := (s.portAt port).seq
  match q.st with
  | .waiting =>
    if q.need.toNat ≤ q.go.toNat then
      .next (({ s with port := port } : State).seqNext (fun q => { q with st := .running, go := q.go - q.need, need := 0 }))
    else .next s
  | .fencing => if (s.linkOps port).isEmpty then .next (s.modSeq port (fun q => { q with st := .running })) else .next s
  | _ => .next s

/-! The words. -/

/-- `sq.nop` (R380). -/
def execSqNop (s : State) : Res := onSeq s (fun _ _ => s.seqNext id)

/-- An address generator, and its change. -/
def Sequencer.gen (q : Sequencer) (i : Nat) : Gen := q.gens.get {} i
def Sequencer.modGen (q : Sequencer) (i : Nat) (f : Gen → Gen) : Sequencer := { q with gens := q.gens.set {} i (f (q.gen i)) }

/-- A field of a generator takes a value (R379). -/
def Gen.cfg (x : Gen) (f : BitVec 4) (v : BitVec 48) : Gen :=
  match f.toNat with
  | 0 => { x with a := v }
  | 1 => { x with d0 := v }
  | 2 => { x with d1 := v }
  | _ => { x with kind := v.extractLsb' 0 2, capi := v.extractLsb' 4 4 }

/-- `sq.cfg` (R380). -/
def execSqCfg (gi : BitVec 2) (f : BitVec 4) (v : BitVec 48) (s : State) : Res :=
  onSeq s (fun _ _ => s.seqNext (fun q => q.modGen gi.toNat (fun x => x.cfg f v)))

/-- A loop counter. -/
def Sequencer.loop (q : Sequencer) (k : BitVec 2) : SqLoop := q.loops.get {} k.toNat
def Sequencer.setLoop (q : Sequencer) (k : BitVec 2) (l : SqLoop) : Sequencer := { q with loops := q.loops.set {} k.toNat l }

/-- `sq.loop` (R380). -/
def execSqLoop (k : BitVec 2) (n : BitVec 32) (s : State) : Res :=
  onSeq s (fun q _ =>
    if (q.loop k).active then s.seqContain s.port 0x01
    else if n = 0 then s.seqNext (fun q => { q with skip := some k })
    else s.seqNext (fun q => q.setLoop k { remain := n, start := q.spcw + 1, active := true }))

/-- The generators of a mask step by `D1`. -/
def Sequencer.bumpD1 (q : Sequencer) (m : BitVec 4) : Sequencer :=
  (List.range 4).foldl (fun q i => if m.getLsbD i then q.modGen i (fun x => { x with a := x.a + x.d1 }) else q) q

/-- `sq.endl` (R380). -/
def execSqEndl (k : BitVec 2) (m : BitVec 4) (s : State) : Res :=
  onSeq s (fun q _ =>
    let l := q.loop k
    if !l.active then s.seqContain s.port 0x01
    else if l.remain - 1 = 0 then s.seqNext (fun q => (q.bumpD1 m).setLoop k { l with remain := 0, active := false })
    else s.seqNext (fun q => { (q.bumpD1 m).setLoop k { l with remain := l.remain - 1 } with spcw := l.start - 1 }))

/-- The generators step by `D0` where their bump bits are set. -/
def Sequencer.bumpD0 (q : Sequencer) (gl gr : BitVec 2) (bl br : BitVec 1) : Sequencer :=
  let q := if bl = 1 then q.modGen gl.toNat (fun x => { x with a := x.a + x.d0 }) else q
  if br = 1 then q.modGen gr.toNat (fun x => { x with a := x.a + x.d0 }) else q

/-- Start a link operation on the sequencer's own port. -/
def State.newLink (s : State) (p g : Nat) (kind : RemoteKind) : State :=
  let t := s.freshTag
  t.2.sendAttempt t.1 { kind := kind, grp := g, port := p }

/-- Messages of a word of `n` bytes, and the offset and length of message `i` (R380). -/
def messageCount (n : Nat) : Nat := (n + 65535) / 65536
def messagePart (n i : Nat) : Nat × Nat := (65536 * i, min 65536 (n - 65536 * i))

/-- Messages that may begin now: at most 256 operations are outstanding (R377). -/
def State.mayBegin (s : State) (p n sent : Nat) : List Nat :=
  ((List.range (messageCount n)).drop sent).take (256 - (s.linkOps p).length)

/-- The word ends once its last message has begun. -/
def State.wordBegun (s : State) (n sent : Nat) (f : Sequencer → Sequencer) : State :=
  if messageCount n ≤ sent then s.seqNext f else s.modSeq s.port (fun q => { q with sent := sent })

/-- `sq.get` (R380): READ messages without a lease, whose data lands as copy elements land. -/
def execSqGet (gl gr : BitVec 2) (bl br : BitVec 1) (n : BitVec 20) (s : State) : Res :=
  onSeq s (fun q g =>
    let len := n.toNat * 64
    let l := q.gen gl.toNat
    let r := q.gen gr.toNat
    let c := q.caps.get {} r.capi.toNat
    if 2 ≤ l.kind.toNat ∨ l.a.toNat % 64 ≠ 0 ∨ r.a.toNat % 64 ≠ 0 ∨ r.kind ≠ 2 ∨ peerFacing s.port then s.seqContain s.port 0x01
    else if c.poison then s.seqContain s.port 0x40
    else if !capCheck c.v r.a.toNat len .rd then s.seqContain s.port 0x0A
    else
      let is := s.mayBegin s.port len q.sent
      let s := is.foldl (fun s i =>
        let m := messagePart len i
        s.newLink s.port g (.get s.port (pKey c.v (r.a.toNat + m.1)) l.kind (l.a.toNat + m.1) m.2)) s
      s.wordBegun len (q.sent + is.length) (fun q => q.bumpD0 gl gr bl br))

/-- What a put reads at its source. -/
inductive PutRead
  | ok (bs : List Byte) (s : State)
  | later
  | stop (s : State)
  deriving DecidableEq

/-- The bytes of a put's source, read as a copy reads (R380, spec/10_phase.md R221). -/
def State.putSource (s : State) (g : Nat) (q : Sequencer) (kind : BitVec 2) (a n : Nat) : PutRead :=
  match s.localRange s.port g kind a n .rd with
  | .s c as =>
    let r := s.sRead c as
    if r.2.1 then .stop (r.2.2.seqContain s.port 0x40) else .ok r.1 r.2.2
  | .h as =>
    let own := s.fencedBytes g q.mark.xf false [] as
    let line := own.2.homeRead as
    if line.2.1 then .stop (line.2.2.seqContain s.port 0x40)
    else
      let r := line.2.2.committedBytes g q.mark.rf (List.zip (addrs a n) as) []
      .ok (overBytes own.1 r.1) r.2
  | .absent => .later
  | .fault => .stop (s.seqFatal s.port g 0x80)

/-- The messages of a put, in order; the last one carries the signal where there is one (R380). -/
def State.putMessages (s : State) (g : Nat) (q : Sequencer) (l r : Gen) (len : Nat) (sig : Option (Nat × Nat))
    (fin : Sequencer → Sequencer) : List Nat → Nat → State
  | [], sent => s.wordBegun len sent fin
  | i :: is, sent =>
    let m := messagePart len i
    match s.putSource g q l.kind (l.a.toNat + m.1) m.2 with
    | .stop s' => s'
    | .later => s.modSeq s.port (fun q => { q with sent := sent })
    | .ok bs s' =>
      let signal := if i + 1 = messageCount len then sig else none
      (s'.newLink s'.port g (.put s'.port (r.a.toNat + m.1) bs signal)).putMessages g q l r len sig fin is (sent + 1)

/-- `sq.put` and `sq.putsig`. -/
def putWord (gl gr : BitVec 2) (bl br : BitVec 1) (n : BitVec 20) (sig : Option (Nat × Nat)) (s : State) : Res :=
  onSeq s (fun q g =>
    let len := n.toNat * 64
    let l := q.gen gl.toNat
    let r := q.gen gr.toNat
    if 2 ≤ l.kind.toNat ∨ l.a.toNat % 64 ≠ 0 ∨ r.a.toNat % 64 ≠ 0 ∨ r.kind ≠ 3 ∨ !peerFacing s.port then s.seqContain s.port 0x01
    else s.putMessages g q l r len sig (fun q => q.bumpD0 gl gr bl br) (s.mayBegin s.port len q.sent) q.sent)

/-- `sq.put` (R380). -/
def execSqPut (gl gr : BitVec 2) (bl br : BitVec 1) (n : BitVec 20) (s : State) : Res := putWord gl gr bl br n none s

/-- `sq.putsig` (R380): the counter's offset in the window and the decrement go with the last message. -/
def execSqPutsig (gl gr : BitVec 2) (bl br : BitVec 1) (o : BitVec 24) (dec : BitVec 4) (n : BitVec 20) (s : State) : Res :=
  putWord gl gr bl br n (some (o.toNat * 8, dec.toNat)) s

/-- `sq.wait` (R378). -/
def execSqWait (n : BitVec 16) (s : State) : Res :=
  onSeq s (fun q _ =>
    if n.toNat ≤ q.go.toNat then s.seqNext (fun q => { q with go := q.go - n.setWidth 32 })
    else s.modSeq s.port (fun q => { q with st := .waiting, need := n.setWidth 32 }))

/-- `sq.post` (R380): earlier gets have landed; earlier puts have read their source when they began. -/
def execSqPost (n : BitVec 16) (s : State) : Res :=
  onSeq s (fun _ _ => if s.getsOpen s.port then s else s.seqNext (fun q => { q with posted := q.posted + n.setWidth 32 }))

/-- `sq.fence` (R378, R380). -/
def execSqFence (s : State) : Res :=
  onSeq s (fun _ _ => if (s.linkOps s.port).isEmpty then s.seqNext id else s.modSeq s.port (fun q => { q with st := .fencing }))

/-- `sq.ev` (R380): a LINK_MARK record. -/
def execSqEv (v : BitVec 16) (s : State) : Res :=
  onSeq s (fun _ g => (s.seqNext id).event 0x19 s.port 0xFF v.toNat (s.grpCtx g))

/-- `sq.halt` (R378, R380). -/
def execSqHalt (s : State) : Res :=
  onSeq s (fun _ _ =>
    if (s.linkOps s.port).isEmpty then (s.seqNext id).modSeq s.port (fun q => q.stop 0)
    else s.modSeq s.port (fun q => { q with st := .fencing }))

/-! The link instructions. -/

/-- Sequencer `p` is bound to the moving strand's task. -/
def State.bound (s : State) (p : Nat) : Bool := decide (p < 80) && (s.portAt p).seq.grp == s.myCore.group && s.myCore.group.isSome

/-- The result of `lnk.start` where it does not bind (R382); 0 where it does. -/
def State.startCode (s : State) (v : Word) : Nat :=
  let p := bitsOf v 56 7
  let q := s.portAt p
  if v.getLsbD 63 || bitsOf v 48 8 != 0 || bitsOf v 0 3 != 0 || decide (80 ≤ p) then 4
  else if q.seq.st ≠ .idle then 1
  else if q.pworld ≠ (s.ctxAt s.myCtx).world then 2
  else if !q.up then 3
  else 0

/-- `lnk.start` (R382). -/
def execLnkStart (pre : Pre) (d a : BitVec 6) (s : State) : Res :=
  issue (.lnkStart pre d a) s (fun s =>
    let x := s.me.rd a
    unlessPoison x.poison (
      let code := s.startCode x.v
      let q : Sequencer :=
        { st := .running, grp := s.myCore.group, prog := x.v.extractLsb' 0 48, caps := s.me.c, mark := s.me.mark,
          last := (s.portAt (bitsOf x.v 56 7)).seq.last,
          rank := (match s.myGroup with | some (_, y) => rankIn y.cores s.core | none => 0) }
      let s := if code = 0 then s.modSeq (bitsOf x.v 56 7) (fun _ => q) else s
      scalarResult d { v := BitVec.ofNat 64 code } s))

/-- `lnk.step` (R382). -/
def execLnkStep (pre : Pre) (n a : BitVec 6) (s : State) : Res :=
  issue (.lnkStep pre n a) s (fun s =>
    let x := s.me.rd a
    let p := bitsOf x.v 0 7
    unlessPoison x.poison (
      if s.bound p then
        if 2 ^ 32 ≤ (s.portAt p).seq.go.toNat + n.toNat then .fatal 0x82
        else .done (s.modSeq p (fun q => { q with go := q.go + n.setWidth 32, mark := q.mark.join s.me.mark }))
      else .done s))

/-- `lnk.wait` (R382). -/
def execLnkWait (pre : Pre) (a : BitVec 6) (s : State) : Res :=
  issue (.lnkWait pre a) s (fun s =>
    let x := s.me.rd a
    let p := bitsOf x.v 0 7
    unlessPoison x.poison (
      if s.bound p then
        let q := (s.portAt p).seq
        let target := x.v.extractLsb' 32 32
        if (q.posted - target).toNat < 2 ^ 31 ∨ q.st = .idle then .done (s.modMe (fun t => t.learn q.mark))
        else .wait (.posted p target)
      else .done s))

/-- What `lnk.stat` reads (R382). -/
def State.linkStat (s : State) (v : Word) : Word :=
  let p := bitsOf v 0 7
  let q := (s.portAt p).seq
  let b := s.bound p
  if 80 ≤ p then 0
  else match bitsOf v 8 3 with
    | 0 => s.pstate p
    | 1 => if b then q.status true else 0
    | 2 => if b then zx q.posted else 0
    | 3 => if b then zx q.go else 0
    | 4 => s.peolh p
    | _ => 0

/-- `lnk.stat` (R382). -/
def execLnkStat (pre : Pre) (d a : BitVec 6) (s : State) : Res :=
  issue (.lnkStat pre d a) s (fun s =>
    let x := s.me.rd a
    unlessPoison x.poison (scalarResult d { v := s.linkStat x.v } s))

end Sys2Proof.Machine
end

