-- ==== Sys2Proof/Machine/Share.lean ====
section
/-! DEFINITION. How the dispatcher shares the cores of a die among groups that wait (spec/15_queue.md R312,
spec/22_programs_scheduling.md R411): the cores held for a group of higher priority, the groups pre-empted for it, and the
contexts that a pass of the ring visits. -/

namespace Sys2Proof.Machine

/-- A group is leaving its cores. -/
def Group.leaving (x : Group) : Bool := x.st == .saving || (x.st == .running && x.preemptAt.isSome)

/-- The cores that groups are leaving. -/
def State.leavingCores (s : State) : List Nat := (s.groups.filter (fun e => e.2.leaving)).flatMap (fun e => e.2.cores)

/-- A claim to `size` cores among some. -/
structure Claim where
  from' : List Nat
  size : Nat
  deriving DecidableEq, Repr

/-- Every claim can have cores of its own, by R249, beside those used: in one cluster up to 8, else eight of a cluster and the
rest of another of its die. -/
def packs : List Claim → List Nat → Bool
  | [], _ => true
  | r :: rest, used =>
    let avail := r.from'.filter (fun c => !used.contains c)
    let of := fun (cl : Nat) => avail.filter (fun c => clusterOf c == cl)
    let cls := (avail.map clusterOf).eraseDups
    if r.size ≤ 8 then cls.any (fun cl => decide (r.size ≤ (of cl).length) && packs rest (used ++ (of cl).take r.size))
    else cls.any (fun a => decide (8 ≤ (of a).length) && cls.any (fun b =>
      a != b && dieOf ((of a).headD 0) == dieOf ((of b).headD 0) && decide (r.size - 8 ≤ (of b).length) &&
      packs rest (used ++ (of a).take 8 ++ (of b).take (r.size - 8))))

/-- What the dispatcher intends for groups that wait: the cores held for them, the groups to be pre-empted, and whether one of
them could be placed now. -/
structure Plan where
  claims : List Claim := []
  victims : List Nat := []
  ready : Bool := false
  deriving DecidableEq, Repr

/-- The cores of some groups. -/
def State.coresOf (s : State) (gs : List Nat) : List Nat :=
  gs.flatMap (fun g => match s.groups.find? g with | some x => x.cores | none => [])

/-- Cores of a die. -/
def onDie (d : Nat) (l : List Nat) : List Nat := l.filter (fun c => dieOf c == d)

/-- Group slots of a context that no group has or is about to take (spec/16_context.md R335). -/
def State.slotsFree (s : State) (ctx : Nat) : Nat :=
  (s.ctxAt ctx).slots -
    (s.groups.filter (fun e => e.2.ctx == ctx && (e.2.leaving || e.2.st == .saved || e.2.st == .parked || e.2.slot.isSome))).length

/-- The order in which R411 takes victims. -/
def victimBefore (a b : Nat × Group) : Bool :=
  if a.2.prio = b.2.prio then
    if a.2.placedAt = b.2.placedAt then decide (a.2.cores.foldl min 512 < b.2.cores.foldl min 512)
    else decide (b.2.placedAt < a.2.placedAt)
  else decide (b.2.prio < a.2.prio)
def victimInsert (x : Nat × Group) : List (Nat × Group) → List (Nat × Group)
  | [] => [x]
  | y :: t => if victimBefore x y then x :: y :: t else y :: victimInsert x t
def victimSort (l : List (Nat × Group)) : List (Nat × Group) := l.foldl (fun acc x => victimInsert x acc) []

/-- Running groups of lower priority on a die that can be pre-empted, in the order of R411. -/
def State.candidates (s : State) (p : Plan) (prio die : Nat) : List (Nat × Group) :=
  victimSort (s.groups.filter (fun e => e.2.st == .running && !e.2.leaving && decide (prio < e.2.prio) && !p.victims.contains e.1 &&
    (decide (0 < s.slotsFree e.2.ctx) || e.2.slot.isSome) && dieOf (e.2.cores.headD 0) == die))

/-- The claim of a waiting group to a die's cores that are free, that groups are leaving, and that victims hold. -/
def State.claimOn (s : State) (p : Plan) (size die : Nat) (vs : List (Nat × Group)) : Claim :=
  { from' := onDie die (s.leavingCores ++ s.coresOf p.victims ++ vs.flatMap (fun v => v.2.cores) ++ s.freeCores), size := size }

/-- Victims are taken in order until the group fits; none where all of them do not make room. -/
def takeVictims (fit : List (Nat × Group) → Bool) : List (Nat × Group) → List (Nat × Group) → Option (List (Nat × Group))
  | got, [] => if fit got then some got else none
  | got, v :: vs => if fit got then some got else takeVictims fit (got ++ [v]) vs

/-- Of victims taken in order, those without which the group would not fit: a later one that is not needed goes first. -/
def neededVictims (fit : List (Nat × Group) → Bool) (l : List (Nat × Group)) : List (Nat × Group) :=
  l.reverse.foldl (fun got v =>
    let rest := got.filter (fun w => w.1 != v.1)
    if fit rest then rest else got) l

/-- The victims that R411 forms on a die for a waiting group. -/
def State.victimsOn (s : State) (p : Plan) (w : Waiter) (die : Nat) : Option (List (Nat × Group)) :=
  let fit := fun (vs : List (Nat × Group)) => packs (p.claims ++ [s.claimOn p w.size die vs]) []
  (takeVictims fit [] (s.candidates p w.prio die)).map (neededVictims fit)

/-- The die choice of R411: the lowest highest priority, then the fewest victims, then the lowest die. -/
def betterDie (a b : Nat × List (Nat × Group)) : Bool :=
  let high := fun l : List (Nat × Group) => l.foldl (fun m e => min m e.2.prio) 8
  if high a.2 = high b.2 then
    if a.2.length = b.2.length then decide (a.1 < b.1) else decide (a.2.length < b.2.length)
  else decide (high b.2 < high a.2)

/-- The free cores that a waiting group could have now, beside a plan. -/
def State.fitsNow (s : State) (p : Plan) (w : Waiter) : Bool :=
  w.dies.any (fun d => fits s.freeCores d w.size && packs (p.claims ++ [{ from' := onDie d s.freeCores, size := w.size }]) [])

/-- A plan with one more waiting group: it can be placed now, or cores are held for it on one die, with the groups pre-empted
there, or nothing is where pre-emption cannot make room (R312, R411). -/
def State.planOne (s : State) (p : Plan) (w : Waiter) : Plan :=
  if s.fitsNow p w then { p with ready := true, claims := p.claims ++ [{ from' := s.freeCores.filter (fun c => w.dies.contains (dieOf c)), size := w.size }] }
  else
    let dies := w.dies.filterMap (fun d => (s.victimsOn p w d).map (fun l => (d, l)))
    match dies.foldl (fun (b : Option (Nat × List (Nat × Group))) d =>
        match b with | none => some d | some e => if betterDie d e then some d else b) none with
    | none => p
    | some (d, l) => { p with claims := p.claims ++ [s.claimOn p w.size d l], victims := p.victims ++ l.map (fun v => v.1) }

/-- The plan for some waiting groups, those of higher priority first. -/
def State.planOf (s : State) (ws : List Waiter) : Plan :=
  ((List.range 8).flatMap (fun q => ws.filter (fun w => w.prio == q))).foldl s.planOne {}

/-- The plan for the waiting groups of higher priority than `prio`. -/
def State.planAbove (s : State) (prio : Nat) : Plan := s.planOf (s.waiting.filter (fun w => decide (w.prio < prio)))

/-- No waiting group of higher priority could be placed now, and without the cores taken there is still room for those that
cores are held for (R312). -/
def State.priorityAllows (s : State) (prio : Nat) (cores : List Nat) : Bool :=
  let p := s.planAbove prio
  !p.ready && packs p.claims cores

/-- The contexts that a pass of the ring visits: those of the priority with a group that fits on free cores not held, in the
order of their numbers from the one after `cur` on (R312). -/
def State.ringFrom (s : State) (prio cur : Nat) : List Nat :=
  let p := s.planAbove prio
  let ns := ((s.waiting.filter (fun w => w.prio == prio && s.fitsNow p w)).map (fun w => w.ctx)).eraseDups
  let sorted := ns.foldl (fun l n => l.takeWhile (fun m => decide (m < n)) ++ n :: l.dropWhile (fun m => decide (m < n))) []
  sorted.filter (fun n => decide (cur < n)) ++ sorted.filter (fun n => decide (n ≤ cur))

/-- A waiting group could be placed on cores among which `c` is, which is free. -/
def State.couldTake (s : State) (w : Waiter) (c : Nat) : Bool :=
  let free := onDie (dieOf c) s.freeCores
  let n := fun (cl : Nat) => (free.filter (fun k => clusterOf k == cl)).length
  let mine := clusterOf c
  free.contains c && w.dies.contains (dieOf c) &&
  (if w.size ≤ 8 then decide (w.size ≤ n mine)
   else (free.map clusterOf).any (fun b => b != mine &&
     (decide (8 ≤ n mine ∧ w.size - 8 ≤ n b) || decide (8 ≤ n b ∧ w.size - 8 ≤ n mine))))

end Sys2Proof.Machine
end

