-- ==== Sys2Proof/Machine/Place.lean ====
section
/-! DEFINITION. The life of a group: placing, loading, pre-emption, saving, resuming and retiring; and the end of a
launch (spec/12_group.md R249 to R254, spec/16_context.md R328, R329, R335 to R340, spec/15_queue.md R307, R308,
R311, R312, spec/22_programs_scheduling.md R411). -/

namespace Sys2Proof.Machine

/-! What a core keeps of groups that have left it. -/

/-- Change the saved image of a rank of a group. -/
def State.modSave (s : State) (g rank : Nat) (f : CoreSave → CoreSave) : State :=
  s.modGroup g (fun x => { x with saved := x.saved.map (fun l => (List.zip (List.range l.length) l).map (fun e =>
    if e.1 = rank then f e.2 else e.2)) })

/-- The rank that a core had in a group. -/
def State.rankOn (s : State) (g c : Nat) : Nat := match s.groups.find? g with | some x => rankIn x.cores c | none => 0

def TileState.inPlace (t : TileState) : Bool := t == .held || t == .scanning
def BankState.inPlace (t : BankState) : Bool := t == .held || t == .scanning

/-- Something written to the core slot that a group has of a core. -/
def State.slotImage (s : State) (g c : Nat) (f : State → Nat → State) : State :=
  match (s.groups.find? g).bind (fun x => s.rankSlot x (rankIn x.cores c)) with
  | none => s
  | some a => f s a

/-- A tile held in place is written to its owner's image and becomes CLEAR (spec/08_tile.md R163), or what the group on the
core has in it. -/
def State.scanTile (s : State) (c i : Nat) : State :=
  let t := (s.coreAt c).tile i
  match t.st.inPlace, t.owner with
  | true, some g =>
    ((s.modSave g (s.rankOn g c) (fun v => { v with tiles := v.tiles.put i { t with st := .live } })).slotImage g c
      (fun s a => s.writeTile (a + tileAt i) t)).modCore c
      (fun co => { co.setTile i (co.awayTiles.get {} i) with awayTiles := co.awayTiles.erase i })
  | _, _ => s

/-- A bank held in place is written to its owner's image and becomes EMPTY (R164); item 2i is group i's active bank,
item 2i + 1 its shadow bank. -/
def State.scanBank (s : State) (c item : Nat) : State :=
  let b := (s.coreAt c).bank (item / 2)
  let k := if item % 2 = 0 then b.active else b.shadow
  match k.st.inPlace, k.owner with
  | true, some g =>
    let keep := fun (v : CoreSave) =>
      let old := v.banks.get {} (item / 2)
      let img : Bank := { k with st := .loaded }
      { v with banks := v.banks.put (item / 2) (if item % 2 = 0 then { old with active := img } else { old with shadow := img }) }
    ((s.modSave g (s.rankOn g c) keep).slotImage g c (fun s a => s.writeBank (a + bankAt item) k)).modCore c (fun co =>
      let mine := co.awayBanks.get {} item
      { co.setBank (item / 2) (if item % 2 = 0 then { b with active := mine } else { b with shadow := mine }) with
        awayBanks := co.awayBanks.erase item })
  | _, _ => s

/-- The contents of a physical piece. -/
def Mem.piece (m : Mem) (q : Nat) : Mem :=
  { bytes := sliceDown m.bytes (q * 16384) 16384, poison := sliceDown m.poison (q * 256) 256,
    latent := sliceDown m.latent (q * 256) 256 }

/-- Other contents in a physical piece. -/
def Mem.setPiece (m : Mem) (q : Nat) (img : Mem) : Mem :=
  { bytes := putUp 0 m.bytes img.bytes (q * 16384) 16384, poison := putUp false m.poison img.poison (q * 256) 256,
    latent := putUp false m.latent img.latent (q * 256) 256 }

/-- A physical piece of a saved group is written to its image and freed (spec/16_context.md R339). -/
def State.scanPiece (s : State) (c q : Nat) : State :=
  match (s.coreAt c).pieces.find? q with
  | none => s
  | some p =>
    let img := (s.coreAt c).spad.piece q
    let s := if p.present then (s.modSave p.grp (s.rankOn p.grp c) (fun v => { v with pieces := v.pieces.put p.idx img })).writePiece
      p.grp (s.rankOn p.grp c) p.idx img else s
    s.modCore c (fun co => { co with pieces := co.pieces.erase q })

/-- A transfer of a group has not yet landed or stopped. -/
def State.groupMoving (s : State) (g : Nat) : Bool :=
  s.cores.any (fun e => e.2.channels.any (fun k => k.2.queue.any (fun t => t.grp == g)))

/-- World switch: everything that the core keeps for saved groups goes to their images, and the scratchpad and the vector
state are zeroed (R329). -/
def State.worldSwitch (s : State) (c : Nat) : State :=
  let s := (List.range 4).foldl (fun s i => s.scanTile c i) s
  let s := (List.range 8).foldl (fun s i => s.scanBank c i) s
  let s := (List.range 24).foldl (fun s q => s.scanPiece c q) s
  s.modCore c (fun co => { co with
    spad := {}, strands := co.strands.map (fun e => (e.1, { e.2 with vr := [], w := [], z := [], m := [], vt := 8 })) })

/-- The saved groups that keep something on a core. -/
def Core.keepers (co : Core) : List Nat :=
  (co.tiles.filterMap (fun e => if e.2.st.inPlace then e.2.owner else none) ++
   co.banks.flatMap (fun e => (if e.2.active.st.inPlace then e.2.active.owner.toList else []) ++
     (if e.2.shadow.st.inPlace then e.2.shadow.owner.toList else [])) ++
   co.pieces.map (fun e => e.2.grp)).eraseDups

/-! Choosing cores. -/

/-- A list of cores meets R249 for a group of its size. -/
def shapeFits (cores : List Nat) : Bool :=
  let one := fun l : List Nat => l.all (fun c => clusterOf c == clusterOf (l.headD 0))
  !cores.isEmpty && decide (cores.length ≤ 16) && cores.all (fun c => decide (c < Config.cores)) && cores.eraseDups.length == cores.length &&
  cores.all (fun c => dieOf c == dieOf (cores.headD 0)) &&
  (if cores.length ≤ 8 then one cores
   else one (cores.take 8) && one (cores.drop 8) && clusterOf (cores.headD 0) != clusterOf ((cores.drop 8).headD 0))

/-- The physical pieces of a core that no group holds. -/
def Core.freePieces (co : Core) : List Nat := (List.range 24).filter (fun q => (co.pieces.find? q).isNone)

/-- A free core can take a group of a world with `pieces` pieces: after a world switch, once the transfers of the
groups it keeps something for have landed (R276, R329). -/
def State.coreTakes (s : State) (c : Nat) (world : BitVec 8) (g pieces : Nat) : Bool :=
  let co := s.coreAt c
  if co.world != world then
    co.keepers.all (fun k => !s.groupMoving k) && co.channels.all (fun e => e.2.queue.isEmpty) && decide (pieces ≤ 24)
  else
    let own := (co.pieces.filter (fun e => e.2.grp == g && e.2.present)).length
    decide (pieces ≤ co.freePieces.length + own)

/-- A visit raises a deficit by 3,200 core-microseconds, here in core-nanoseconds. -/
def visitGain : Int := 3200000

/-- The visits that a context needs before it is served, one at least. -/
def visitsFor (deficit : Int) : Nat := if 0 < deficit then 1 else ((-deficit) / visitGain).toNat + 1

/-- The first of a list with the least value. -/
def leastBy (f : Nat → Nat) : List Nat → Option Nat
  | [] => none
  | x :: xs => match leastBy f xs with
    | none => some x
    | some y => if f y < f x then some y else some x

/-- Serve a context of a priority (R312): the one the ring stands at while its deficit is positive, else the first that visits
of the ring bring above 0. None where the ring serves another. -/
def State.serve (s : State) (prio ctx : Nat) : Option State :=
  let cur := s.ring.get 0 prio
  let order := s.ringFrom prio cur
  let d := fun n => (s.ctxAt n).deficit
  if order.contains cur && decide (0 < d cur) then (if cur = ctx then some s else none)
  else match leastBy (fun n => visitsFor (d n)) order with
    | none => none
    | some w =>
      if w ≠ ctx then none
      else
        let k : Int := visitsFor (d w)
        let ahead := order.takeWhile (fun n => n != w)
        let s := order.foldl (fun s n => s.modCtx n (fun c => { c with deficit :=
          c.deficit + visitGain * (if n = w || ahead.contains n then k else k - 1) })) s
        some { s with ring := s.ring.set 0 prio w }

/-- The charge of a placement (R312). -/
def State.charge (s : State) (ctx size : Nat) : State := s.modCtx ctx (fun c => { c with deficit := c.deficit - size * 25000 })

/-- The checks that placing and resuming share. -/
def State.takes (s : State) (cores : List Nat) (size pieces ctx prio g : Nat) : Bool :=
  let w := (s.ctxAt ctx).world
  cores.length == size && shapeFits cores && cores.all (fun c => (s.coreAt c).group.isNone) &&
  cores.all (fun c => s.coreTakes c w g pieces) && s.priorityAllows prio cores

/-- Take the cores for a group: a core that held another world is switched first (R329). -/
def State.takeCores (s : State) (cores : List Nat) (g : Nat) (world : BitVec 8) : State :=
  cores.foldl (fun s c =>
    let s := if (s.coreAt c).world != world then s.worldSwitch c else s
    s.modCore c (fun co => { co with group := some g, world := world })) s

/-- Give a rank its missing pieces: which free pieces is open (log entry 25). -/
def State.allot (s : State) (c g n : Nat) (present : Bool) : State :=
  let co := s.coreAt c
  let need := (List.range n).filter (fun i => (co.pieceOf g i).isNone)
  let free := co.freePieces
  let r := s.pick free.length
  let order := free.drop r.1 ++ free.take r.1
  r.2.modCore c (fun co => { co with pieces := (List.zip need order).foldl (fun t e =>
    t.put e.2 { grp := g, idx := e.1, present := present }) co.pieces })

/-! Placing. -/

/-- A task's new version and what governs its reads (spec/10_phase.md R214, R218). -/
def State.newVersion (s : State) (ctx : Nat) (st : Start) : Version :=
  let born := (s.ctxAt ctx).born
  match st with
  | .nothing => { refresh := born }
  | .all => { refresh := s.commits }
  | .regions es => { refresh := born, regions := (es.filter (fun e => e.space == 2)).map (fun e =>
      { lo := e.addr.toNat, hi := e.addr.toNat + e.len.toNat, point := s.commits }) }

/-- The queues of a frond at its start: the feed queue is closed with `NITEMS` (R285); its rebalancing steps come at the
frames from the next on (R287). -/
def Frond.setUp (f : Frond) (die frame : Nat) : Frond :=
  { f with die := some die, lastFrame := frame, queues := f.queues.map (fun r => if r.prod = 15 then { r with fin := some f.nitems } else r) }

/-- A launch goes from RELEASED to RUNNING when its first group is placed; so does the graph of a node
(R307). -/
def State.startLaunch (s : State) (l : Nat) : State :=
  match s.launches.find? l with
  | none => s
  | some x =>
    if x.st = .released then (s.modLaunch l (fun y => { y with st := .running })).launchRec l .running 0 else s
def State.startLaunches (s : State) (l : Nat) : State :=
  match (s.launches.find? l).bind (fun x => x.node) with
  | some (gl, _) => (s.startLaunch gl).startLaunch l
  | none => s.startLaunch l

/-- From the first placement of a context on, its entries may be cached (spec/09_page.md R193). -/
def Context.firstRun (c : Context) (now : Nat) : Context :=
  if c.cached.isSome then c
  else { c with cached := some now, invals := [], held := [3, 4, 5, 11].foldl (fun t i => t.set 0 i (c.word i)) [] }

/-- The dispatcher places the next group of a launch (R252). -/
def execGroupPlace (launch : Nat) (cores : List Nat) (s : State) : Res :=
  match s.launches.find? launch with
  | none => .next s
  | some x =>
    let n := x.next
    let p := match x.frond with | some f => pinnaOf f.pinnae n 0 | none => 0
    let kd := x.nextKernel
    let prio := (s.queueAt x.queue).prio
    let die := dieOf (cores.headD 0)
    let sameDie := match x.frond with | some f => (match f.die with | some d => d == die | none => true) | none => true
    if s.placeable launch x && sameDie &&
        s.takes cores kd.gsize kd.pieces x.ctx prio 0 then
      match s.serve prio x.ctx with
      | none => .next s
      | some s =>
        let id := s.fresh
        let g := id.1
        let s := id.2.takeCores cores g (s.ctxAt x.ctx).world
        let s := cores.foldl (fun s c => s.allot c g kd.pieces true) s
        let pinna : Option PinnaSlot := x.frond.map (fun _ => { pinna := p, number := n })
        let y : Group := { ctx := x.ctx, launch := launch, queue := x.queue, prio := prio, size := kd.gsize, kdesc := kd,
                           task := BitVec.ofNat 64 (bitsOf (x.words.getD 2 0) 32 32 + n), cores := cores,
                           ver := s.newVersion x.ctx x.start, pinna := pinna, placedAt := s.pkg.up }
        let s := { s with groups := s.groups.put g y }
        let s := s.modLaunch launch (fun l => { l with next := n + 1 })
        let s := if n = 0 then (s.modFrond launch (fun f => f.setUp die (s.pkg.ns / 10000))).startLaunches launch else s
        let s := s.modFrond launch (fun f => { f with placed := n + 1 })
        let s := s.modCtx x.ctx (fun c => { c.firstRun s.commits with st := .running })
        .next (s.charge x.ctx kd.gsize)
    else .next s

/-- A strand of a group that starts (spec/05_strand.md R80, spec/14_kernel.md R278). -/
def startStrand (entry : BitVec 48) (first : Word) (args : List Word) : Strand :=
  let regs : List Reg := (first :: args).map (fun v => { v := v })
  { life := .running, pc := entry, x := (Tbl.setRange {} [] 0 regs : Tbl Reg) }

/-- The barriers of a group that starts (spec/13_barrier.md R260). -/
def startBarriers (size : Nat) : Tbl Barrier := [(0, { part := 8 * size, arrive := 8 * size, used := true })]

/-- The strands of a core of a group that starts. -/
def State.startCore (s : State) (c : Nat) (x : Group) : State :=
  match s.launches.find? x.launch with
  | none => s
  | some l =>
    let first := match x.pinna with | some p => BitVec.ofNat 64 p.pinna | none => x.task
    let t := startStrand x.kdesc.entry first ((l.words.drop 4).take 4)
    s.modCore c (fun co => { co with strands := (List.range 8).map (fun k => (k, t)), gated := false })

/-- An RLC task's controllers are loaded from `RBLK` before its first instruction (spec/17_refinement.md R349). -/
def State.loadRlc (s : State) (g : Nat) (x : Group) : State :=
  match s.launches.find? x.launch with
  | none => s
  | some l =>
    if bitsOf (l.words.getD 0 0) 0 4 = 5 then
      match s.readWords x.ctx g 0 (bitsOf (l.words.getD 3 0) 16 48) 32 with
      | .fault => s.fatal x.ctx 0x80
      | .poison s' => s'.contain g 0x40
      | .ok ws s' => x.cores.foldl (fun s c => s.modCore c (fun co => { co with rlc := Rlc.load ws })) s'
    else s

/-- A saved strand goes on (spec/05_strand.md R82, R109): a suspended loop from a fresh window, a strand saved inside
the wait of its `bar` or `syswr` in that wait. -/
def Strand.resume (t : Strand) : Strand :=
  if t.life ≠ .saved then t
  else
    let t : Strand := { t with preemptAt := none, stopSoon := false }
    let inWait := t.micro.stage == 1 && (match t.wait with | .barrier _ _ => true | .supervisor => true | _ => false)
    let t : Strand := match t.loops with
      | e :: rest => if e.susp then { t with loops := { e with susp := false } :: rest, sg := 1 } else t
      | [] => t
    let l := if inWait then Life.waiting else t.active
    if t.haltMark then { t with life := .halted, haltedFrom := l, haltMark := false } else { t with life := l }

/-- A group that has been loaded goes to RUNNING, every strand in one clock (R252). -/
def execGroupLoaded (grp : Nat) (s : State) : Res :=
  match s.groups.find? grp with
  | none => .next s
  | some x =>
    if x.st ≠ .loading || x.contain.isSome then .next s
    else match x.saved with
      | none =>
        let s := s.modGroup grp (fun y => { y with st := .running, barriers := startBarriers y.size })
        let s := x.cores.foldl (fun s c => s.startCore c x) s
        .next (s.loadRlc grp x)
      | some _ =>
        let s := match x.parking with
          | some q => s.modCore (x.cores.getD q.rank 0) (fun co => co.setStrand q.strand ((co.strandAt q.strand).learn q.mark))
          | none => s
        let s := s.modGroup grp (fun y => { y with st := .running, saved := none, parking := none })
        let wake := fun (s : State) (p : Nat) => s.modPort p (fun q =>
          if q.seq.grp = some grp && q.seq.st == .paused then { q with seq := { q.seq with st := q.seq.pausedFrom } } else q)
        let s := (List.range 80).foldl wake s
        .next (x.cores.foldl (fun s c => s.modCore c (fun co => (co.mapStrands Strand.resume).ungate)) s)

/-! Pre-emption. -/

/-- A strand that a pre-emption request reaches (R109): a WAITING one stops at once, another at an instruction boundary,
the end of this clock the first. One that a debug halt has reached inside its instruction stops at the boundary that the halt
gives (spec/05_strand.md R83). -/
def Strand.preempt (t : Strand) (now : Nat) : Strand :=
  let asked : Strand := { t with preemptAt := some now, stopSoon := t.stopSoon || t.haltSoon }
  match t.life with
  | .running => asked
  | .handler => asked
  | .waiting => if t.outs = 0 then asked.stopMarked else asked
  | .halted => if t.rests then asked.stopMarked else { asked with stopSoon := true }
  | _ => t

/-- A group of its own priority may displace it: after 25 µs, once its context's deficit is not positive (R312). -/
def State.equalDisplaces (s : State) (g : Nat) (x : Group) : Bool :=
  decide (x.placedAt + 25000 ≤ s.pkg.up) && decide ((s.ctxAt x.ctx).deficit ≤ 0) &&
  s.waitsFor g (fun _ p => decide (p = x.prio))

/-- The dispatcher has a reason to pre-empt a group, and a free slot for it (R312, R335, R411). -/
def State.mayPreempt (s : State) (g : Nat) (x : Group) : Bool :=
  (decide (0 < s.slotsFree x.ctx) || x.slot.isSome) && ((s.planOf s.waiting).victims.contains g || s.equalDisplaces g x)

/-- A pre-emption request reaches every core of a RUNNING group (R335, R109); it is ignored for a group that is
EXITING or already leaving (R254). -/
def execPreemptionRequest (grp : Nat) (rows : List (List Nat)) (s : State) : Res :=
  match s.groups.find? grp with
  | none => .next s
  | some x =>
    if x.st ≠ .running || x.preemptAt.isSome || x.contain.isSome || x.leave == some .exits || !s.mayPreempt grp x then .next s
    else
      let now := s.pkg.clocks
      let s := s.modGroup grp (fun y => { y with preemptAt := some now, pmemw := 0 })
      .next ((List.zip (List.range x.cores.length) x.cores).foldl (fun s e =>
        (s.gate e.2 (rows.getD e.1 [])).modCore e.2 (fun co => (co.mapStrands (fun t => t.preempt now)).count 8 1)) s)

/-- A strand that has not stopped 3 × IMAX clocks after the request stops at its next instruction boundary
(R109). -/
def execStrandStopTimeout (c k : Nat) (s : State) : Res :=
  let t := s.strandAt c k
  match t.preemptAt, (s.groupOf c).bind (fun g => s.groups.find? g) with
  | some at', some x =>
    if decide (at' + 3 * x.kdesc.imax ≤ s.pkg.clocks) && (t.life == .running || t.life == .handler) then
      let t := { t with stopSoon := true }
      .next (s.setStrand c k (if t.between then t.atBoundary else t))
    else .next s
  | _, _ => .next s

/-! Saving. -/

/-- Strands and engines of a core have stopped (R335). -/
def Core.quiet (co : Core) : Bool :=
  (List.range 8).all (fun k => (co.strandAt k).life == .saved || (co.strandAt k).life == .done) &&
  co.vq.all (fun e => !e.started && !e.opened) && co.mq.all (fun e => e.st != .running)

/-- What a group takes along of a channel, and what stays: transfers still landing stay (spec/11_copy.md R243). -/
def Channel.split (k : Channel) (g : Nat) : Channel × Channel :=
  if k.st = .stopped then
    ({ k with queue := k.queue.filter (fun t => t.grp == g) }, { queue := k.queue.filter (fun t => t.grp != g) })
  else ({ k with queue := [] }, { queue := k.queue })

/-- Shadow banks that a stopped `wload` has loaded in part and that hold nothing else (spec/08_tile.md R162). -/
def Core.partLoads (co : Core) : Tbl BankGroup :=
  co.mq.foldl (fun t e => match e.st, tcmd e.instr with
    | .stopped, some cmd =>
      let b := (co.bank cmd.t).shadow
      if cmd.kind == .load && decide (0 < e.row) && b.st == .empty then t.put cmd.t { t.get {} cmd.t with shadow := b } else t
    | _, _ => t) []

/-- The saved image of a core, and the core as the group leaves it: live tiles and loaded banks are HELD in place
(R163, R164), its pieces stay resident. -/
def Core.saveOf (co : Core) (g : Nat) (images : Tbl Mem) : CoreSave :=
  { strands := co.strands, fifo := co.fifo, sem := co.sem, out := co.out, vq := co.vq, mq := co.mq, cq := co.cq, fq := co.fq
    channels := co.channels.map (fun e => (e.1, (e.2.split g).1)), rlc := co.rlc, counters := co.counters
    tiles := (List.range 4).foldl (fun t i =>
      let mine := if (co.tile i).st.inPlace then co.awayTiles.get {} i else co.tile i
      if (co.tile i).st = .live then t else t.put i mine) []
    banks := co.awayBanks.foldl (fun t e =>
      let b := t.get {} (e.1 / 2)
      t.put (e.1 / 2) (if e.1 % 2 = 0 then { b with active := e.2 } else { b with shadow := e.2 })) co.partLoads
    pieces := images }
def Bank.hold (b : Bank) (g : Nat) : Bank := if b.st = .loaded then { b with st := .held, owner := some g } else if b.st.inPlace then b else {}
def Core.leave (co : Core) (g : Nat) : Core :=
  { co with
    strands := [], fifo := [], sem := [], issued := [], out := [], vstarts := 0, vbusy := [], vq := [], mq := [], cq := [], fq := [], rlc := {}, counters := []
    group := none, gated := false, awayTiles := [], awayBanks := []
    channels := co.channels.map (fun e => (e.1, (e.2.split g).2))
    tiles := (co.tiles.filter (fun e => e.2.st != .clear)).map (fun e =>
      (e.1, if e.2.st = .live then { e.2 with st := .held, owner := some g } else e.2))
    banks := co.banks.map (fun e => (e.1, { active := e.2.active.hold g, shadow := e.2.shadow.hold g }))
    pieces := co.pieces.filter (fun e => e.2.grp != g || e.2.present) }

/-- The lowest slot of the save area that no other group of the context has (R336): a group has one from its save until its
last piece is read back. -/
def State.freeSlot (s : State) (ctx : Nat) : Nat :=
  let used := s.groups.filterMap (fun e => if e.2.ctx = ctx then e.2.slot else none)
  ((List.range (used.length + 1)).find? (fun k => !used.contains k)).getD 0

/-- A group is leaving its cores and has stopped there: it can be saved. -/
def State.saveReady (s : State) (g : Nat) (x : Group) : Bool :=
  x.leaving && x.leave != some .exits && x.contain.isNone && !s.linkBusy g && x.cores.all (fun c => (s.coreAt c).quiet)

/-- A group that has stopped is saved at the end of the clock: a fatal error or a containment of that clock comes first
(R327). -/
def execGroupSaved (grp : Nat) (s : State) : Res :=
  match s.groups.find? grp with
  | none => .next s
  | some x => if s.saveReady grp x then .next (s.modGroup grp (fun y => { y with saveDue := true })) else .next s

/-- The records of a group that has stopped are written: it is SAVED, or PARKED by a `park`, and its cores are
free (R252, R335). A sequencer of the group is PAUSED with it (spec/18_link.md R378). -/
def State.saveGroup (s : State) (grp : Nat) : State :=
  match s.groups.find? grp with
  | none => s
  | some x =>
    if !x.saveDue then s
    else if !s.saveReady grp x then s.modGroup grp (fun y => { y with saveDue := false })
    else
      let img := (List.zip (List.range x.cores.length) x.cores).map (fun e => (s.coreAt e.2).saveOf grp (x.images.get [] e.1))
      let st := if x.parking.isSome then GState.parked else .saved
      let s := s.settleCharge grp
      let s := x.cores.foldl (fun s c => s.modCore c (fun co => co.leave grp)) s
      let slot := x.slot.getD (s.freeSlot x.ctx)
      let s := s.modGroup grp (fun y => { y with
        st := st, saveDue := false, saved := some img, images := [], preemptAt := none, yielding := false, slot := some slot
        plat := (match x.preemptAt with | some t => s.pkg.clocks - t | none => 0) })
      let s := s.writeRecords grp
      let pause := fun (s : State) (p : Nat) => s.modPort p (fun q =>
        if q.seq.grp = some grp && q.seq.st != .idle && q.seq.st != .paused then
          { q with seq := { q.seq with st := .paused, pausedFrom := q.seq.st } } else q)
      ((List.range 80).foldl pause s).settleCtx x.ctx

/-- A claimed tile or bank has been scanned: item 0 to 3 a tile, 4 to 11 a bank (R163, R164, R339). -/
def execTileScan (c item : Nat) (s : State) : Res :=
  if item < 4 then
    .next (if ((s.coreAt c).tile item).st = .scanning then s.scanTile c item else s)
  else
    let b := (s.coreAt c).bank ((item - 4) / 2)
    let k := if item % 2 = 0 then b.active else b.shadow
    .next (if item < 12 ∧ k.st = .scanning then s.scanBank c (item - 4) else s)

/-- The pieces that a group starting on a core can have there without a claim: free ones, and its own. -/
def Core.piecesFor (co : Core) (g : Nat) : Nat := co.freePieces.length + (co.pieces.filter (fun e => e.2.grp == g)).length

/-- The partition that a moving frond group is to start with in its new pinna (spec/14_kernel.md R289). -/
def State.movesTo (s : State) (x : Group) : Option PinnaRec :=
  match x.pinna, s.frondOf x.launch with
  | some p, some f => if p.moving then p.mark.bind (fun t => f.pinnae[t]?) else none
  | _, _ => none

/-- An incoming group lacks free pieces on a core (R339): one that waits and could be placed on this free core, and whose world
the core holds (another world's entry frees everything, R329), or the group on the core, which moves to another pinna. -/
def State.piecesLacking (s : State) (c : Nat) : Bool :=
  let co := s.coreAt c
  match co.group with
  | none => s.waiting.any (fun w => (s.ctxAt w.ctx).world == co.world && s.couldTake w c && decide (co.piecesFor w.grp < w.pieces))
  | some g => match (s.groups.find? g).bind s.movesTo with
    | none => false
    | some r => decide (co.piecesFor g < r.kdesc.pieces)

/-- The dispatcher claims a piece of a saved group for an incoming one, the lowest first, once the transfers into it
have landed or stopped: it is written to its image and freed (R339). -/
def execPieceClaim (c piece : Nat) (s : State) : Res :=
  let co := s.coreAt c
  let claimable := fun q : Nat => match co.pieces.find? q with
    | some p => co.group != some p.grp
    | none => false
  match co.pieces.find? piece with
  | none => .next s
  | some p =>
    if claimable piece && (List.range piece).all (fun q => !claimable q) && !s.groupMoving p.grp && s.piecesLacking c then
      .next (s.scanPiece c piece)
    else .next s

/-! Resuming. -/

/-- Everything that a saved group holds in place on cores it does not come back to goes to its image (R163, R340). -/
def State.gatherFrom (s : State) (g c : Nat) : State :=
  let mine := fun (o : Option Nat) => o == some g
  let s := (List.range 4).foldl (fun s i => if mine ((s.coreAt c).tile i).owner then s.scanTile c i else s) s
  let s := (List.range 8).foldl (fun s i =>
    let b := (s.coreAt c).bank (i / 2)
    if mine (if i % 2 = 0 then b.active.owner else b.shadow.owner) then s.scanBank c i else s) s
  (List.range 24).foldl (fun s q => match (s.coreAt c).pieces.find? q with
    | some p => if p.grp = g then s.scanPiece c q else s
    | none => s) s

/-- Tiles and banks of an image on a core. Where another group's contents are held in place they stay until a command claims
the place (R163, R164, R340). -/
def Core.installTile (co : Core) (i : Nat) (t : Tile) : Core :=
  if (co.tile i).st.inPlace then { co with awayTiles := co.awayTiles.set {} i t }
  else co.setTile i (if t.st.inPlace then { t with st := .live } else t)
def Core.installBank (co : Core) (item : Nat) (k : Bank) : Core :=
  let b := co.bank (item / 2)
  let old := if item % 2 = 0 then b.active else b.shadow
  if k = {} then co
  else if old.st.inPlace then { co with awayBanks := co.awayBanks.set {} item k }
  else co.setBank (item / 2) (if item % 2 = 0 then { b with active := k } else { b with shadow := k })
def Core.installTiles (co : Core) (v : CoreSave) : Core :=
  let co := v.tiles.foldl (fun co e => co.installTile e.1 e.2) co
  v.banks.foldl (fun co e => (co.installBank (2 * e.1) e.2.active).installBank (2 * e.1 + 1) e.2.shadow) co

/-- Tiles and banks that were held in place on the same core return without moving (R340). -/
def Bank.back (b : Bank) (g : Nat) : Bank := if b.st.inPlace ∧ b.owner = some g then { b with st := .loaded } else b
def Core.unhold (co : Core) (g : Nat) : Core :=
  { co with
    tiles := co.tiles.map (fun e => (e.1, if e.2.st.inPlace ∧ e.2.owner = some g then { e.2 with st := .live } else e.2))
    banks := co.banks.map (fun e => (e.1, { active := e.2.active.back g, shadow := e.2.shadow.back g })) }

/-- The records of an image on a core (R337, R338); transfers of other groups that still land stay first in their
channels (spec/11_copy.md R243). -/
def Core.restore (co : Core) (v : CoreSave) : Core :=
  { co with
    strands := v.strands, fifo := v.fifo, sem := v.sem, out := v.out, vq := v.vq, mq := v.mq, cq := v.cq, fq := v.fq
    rlc := v.rlc, counters := v.counters, gated := true
    channels := (List.range 8).foldl (fun t ch =>
      let k := v.channels.get {} ch
      t.set {} ch { k with queue := (co.chan ch).queue ++ k.queue, st := if k.st = .stopped then .stopped else .idle }) co.channels }

/-- An image with the tiles that its group holds in place on a core: their words of the core record are read back too. -/
def CoreSave.withHeld (v : CoreSave) (co : Core) (g : Nat) : CoreSave :=
  { v with tiles := (co.tiles.filter (fun e => e.2.st.inPlace && e.2.owner == some g)).foldl (fun t e => t.put e.1 e.2) v.tiles }

/-- A rank of a group comes back on a core. -/
def State.resumeRank (s : State) (g rank c : Nat) (pieces : Nat) : State :=
  match (s.groups.find? g).bind (fun x => x.saved.bind (fun l => l[rank]?)) with
  | none => s
  | some v =>
    let v := match s.groups.find? g with | some x => s.readRecords x rank (v.withHeld (s.coreAt c) g) | none => v
    let s := s.modCore c (fun co => (co.unhold g).restore v)
    let s := s.modCore c (fun co => co.installTiles v)
    let s := s.modGroup g (fun y => { y with images := y.images.put rank v.pieces })
    s.allot c g pieces false

/-- The dispatcher resumes a SAVED group on free cores (R252, R340), once its transfers have landed or stopped
(spec/11_copy.md R243). A lost image ends the context (R328). -/
def execGroupResume (grp : Nat) (cores : List Nat) (s : State) : Res :=
  match s.groups.find? grp with
  | none => .next s
  | some x =>
    let running := s.pkg.st == .serving || s.pkg.st == .draining
    if x.st == .saved && x.contain.isNone && running && !s.groupMoving grp &&
        s.takes cores x.size x.kdesc.pieces x.ctx x.prio grp then
      if (x.saved.getD []).any (fun v => v.lost) then .next (s.fatal x.ctx 0x83)
      else match s.serve x.prio x.ctx with
        | none => .next s
        | some s =>
          let moved := (List.zip x.cores cores).filter (fun e => e.1 != e.2)
          let s := moved.foldl (fun s e => s.gatherFrom grp e.1) s
          let s := s.takeCores cores grp (s.ctxAt x.ctx).world
          let s := (List.zip (List.range cores.length) cores).foldl (fun s e => s.resumeRank grp e.1 e.2 x.kdesc.pieces) s
          let s := s.modGroup grp (fun y => { y with
            st := .loading, cores := cores, placedAt := s.pkg.up, slot := if y.images.all (fun e => e.2.isEmpty) then none else y.slot })
          let s := s.modCtx x.ctx (fun c => { c with st := .running })
          .next (s.charge x.ctx x.size)
    else .next s

/-- The next absent piece of a rank is read back, in ascending order, once the strands have restarted (R340). -/
def execPieceReadback (grp rank : Nat) (s : State) : Res :=
  match s.groups.find? grp with
  | none => .next s
  | some x =>
    let c := x.cores.getD rank 0
    if s.groupOf c ≠ some grp ∨ rank ≥ x.cores.length ∨ x.st = .loading then .next s
    else
      let co := s.coreAt c
      let absent := fun i : Nat => match co.pieceOf grp i with | some (_, p) => !p.present | none => false
      match (List.range 24).find? absent with
      | none => .next s
      | some i => match co.pieceOf grp i with
        | none => .next s
        | some (q, p) =>
          if x.badImages.contains (rank, i) then .next (s.fatal x.ctx 0x83)
          else
          let img := s.readPiece grp rank i (Tbl.get {} (x.images.get [] rank) i)
          let s := s.modCore c (fun co => { co with spad := co.spad.setPiece q img, pieces := co.pieces.put q { p with present := true } })
          let images := x.images.put rank (Tbl.erase (x.images.get [] rank) i)
          .next ((s.modGroup grp (fun y => { y with
            images := images, slot := if images.all (fun e => e.2.isEmpty) then none else y.slot })).landPending grp)

/-! Retiring. -/

/-- The engines hold no entry of an EXITING group, its transfers have landed and signalled, or stopped (R252), and its
sequencers neither run nor fence (spec/18_link.md R378). -/
def State.emptied (s : State) (x : Group) (g : Nat) : Bool :=
  (s.seqsOf g).all (fun p => (s.portAt p).seq.st == .idle || (s.portAt p).seq.st == .waiting) &&
  x.cores.all (fun c =>
    let co := s.coreAt c
    co.vq.isEmpty && co.mq.isEmpty && co.cq.isEmpty &&
    co.channels.all (fun k => k.2.st == .stopped || k.2.queue.all (fun t => t.grp != g)))

/-- A task whose strands, engines and transfers are done takes its final boundary (spec/10_phase.md R212); a WAITING
sequencer of it is IDLE (spec/18_link.md R378). -/
def execTaskRetire (grp : Nat) (s : State) : Res :=
  match s.groups.find? grp with
  | none => .next s
  | some x =>
    if x.st ≠ .exiting || x.finalBound.isSome || x.contain.isSome || !s.emptied x grp then .next s
    else
      let s := (s.seqsOf grp).foldl (fun s p => s.modSeq p (fun q =>
        if q.st = .waiting then { q with st := .idle, last := 0, word := none } else q)) s
      let r := s.phaseBoundary grp
      .next (r.2.modGroup grp (fun y => { y with finalBound := some r.1 }))

/-- The final boundary has completed. -/
def State.finished (s : State) (x : Group) (g : Nat) : Bool :=
  x.st == .exiting && x.contain.isNone && (match x.finalBound with | some b => s.boundaryDone g b | none => false)

/-- The group is RETIRED: its task has completed (R212, R252). -/
def State.retireGroup (s : State) (g : Nat) : State :=
  match s.groups.find? g with
  | none => s
  | some x =>
    ((s.removeGroup g .retired 0 false).modLaunch x.launch (fun l => { l with completed := l.completed + 1 })).soon
      [.event (.launchEnd x.launch)]

/-- An EXITING group retires once its final boundary has completed (R252); a moving frond group restarts instead. -/
def execGroupRetire (grp : Nat) (s : State) : Res :=
  match s.groups.find? grp with
  | none => .next s
  | some x =>
    let moving := match x.pinna with | some p => p.moving | none => false
    if s.finished x grp && !moving then .next (s.retireGroup grp) else .next s

/-- A moving frond group starts afresh in its new pinna on the same cores (spec/14_kernel.md R289): what its old task had, its
counters, sequencers and requests too, has gone as at a task's end. -/
def execFrondGroupRestart (grp : Nat) (s : State) : Res :=
  match s.groups.find? grp with
  | none => .next s
  | some x =>
    match x.pinna, s.frondOf x.launch with
    | some p, some f =>
      match p.mark.bind (fun t => f.pinnae[t]?.map (fun r => (t, r))) with
      | none => .next s
      | some (t, r) =>
        let room := x.cores.all (fun c => decide (r.kdesc.pieces ≤ (s.coreAt c).piecesFor grp))
        if !p.moving || !s.finished x grp || !room then .next s
        else
          let kd := { r.kdesc with gsize := f.gsize }
          let zero := fun (s : State) (c : Nat) =>
            let s := s.addCounters x.ctx (s.coreAt c).counters
            s.modCore c (fun co =>
              let mine := (co.pieces.filter (fun e => e.2.grp == grp)).map (fun e => e.1)
              { (co.idleChannels grp).vacate grp with group := some grp, spad := mine.foldl (fun m q => m.setPiece q {}) co.spad })
          let clear := fun (s : State) (c : Nat) =>
            let s := s.allot c grp kd.pieces true
            s.modCore c (fun co =>
              let own := (co.pieces.filter (fun e => e.2.grp == grp)).map (fun e => e.1)
              { co with spad := own.foldl (fun m q => m.setPiece q {}) co.spad })
          let s := (x.cores.foldl zero s).unbind grp x.ctx 0
          let s := x.cores.foldl clear s
          let y : Group := { x with
            st := .running, kdesc := kd, nsub := 1, b1 := 0, b2 := 0, b3 := 0, barriers := startBarriers x.size,
            ver := s.newVersion x.ctx ((s.launches.find? x.launch).map (fun l => l.start) |>.getD .nothing),
            images := [], badImages := [], finalBound := none, slot := none, plat := 0, pmemw := 0,
            pinna := some { pinna := t, number := p.number } }
          let s := s.modGroup grp (fun _ => y)
          .next (x.cores.foldl (fun s c => s.startCore c y) s)
    | _, _ => .next s

/-! Launches. -/

/-- The drain deadline has come (spec/01_package.md R22). -/
def State.deadlineHere (s : State) : Bool :=
  s.pkg.st == .draining && (match s.pkg.drainDeadline with | some t => decide (t ≤ s.pkg.ns) | none => false)

/-- Nodes of a graph whose counter is 0 and which have not been launched (spec/15_queue.md R311): each is journaled
and goes to the dispatcher. In the clock of the drain deadline none is launched (R319). -/
def State.launchNodes (s : State) (l : Nat) : State :=
  match s.launches.find? l with
  | none => s
  | some x =>
    if s.deadlineHere then s else
    x.graph.foldl (fun s e =>
      match e.2.launch with
      | none => s
      | some nl => match s.launches.find? nl with
        | none => s
        | some y =>
          if e.2.pred = 0 && y.st == .accepted then
            ((s.launchRec nl .accepted 0).modLaunch nl (fun z => { z with st := .released })).launchRec nl .released 0
          else s) s

/-- A launch ends once all its tasks have ended (R308); a graph launches the nodes that have become ready and ends when
no node runs and none can launch (R311). -/
def State.endLaunch (s : State) (launch : Nat) : State :=
  match s.launches.find? launch with
  | none => s
  | some x =>
    if !x.st.live then s
    else if !x.graph.isEmpty then
      let s := s.launchNodes launch
      let busy := x.graph.any (fun e => match e.2.launch with
        | some nl => ((s.launches.find? nl).map (fun y => y.st.live)).getD false
        | none => false)
      let done := ((s.launches.find? launch).map (fun y => y.graph.all (fun e => e.2.done))).getD false
      if busy then s
      else (s.finishLaunch launch (if done then .completed else .partly) 0)
    else if x.next < x.ntasks ∨ (s.liveGroups launch).isEmpty = false then s
    else match x.frond with
      | some f =>
        if f.queues.all Rachis.drained then (s.finishLaunch launch .completed 0)
        else (s.finishLaunch launch .discarded 0x04)
      | none =>
        let st := if x.lost = 0 then LState.completed else if x.completed = 0 then .discarded else .partly
        s.finishLaunch launch st 0

/-- The end of a launch, where it ends. -/
def execLaunchEnd (launch : Nat) (s : State) : Res := .next (s.endLaunch launch)

end Sys2Proof.Machine
end

