-- ==== Sys2Proof/Machine/Poolev.lean ====
section
/-! DEFINITION. What the pool's answers and time do to cached pages and remote operations, and the prefetch engine's
walk (spec/09_page.md R185 to R189; spec/18_link.md R367, R368). -/

namespace Sys2Proof.Machine

/-! The session. -/

/-- A pool-facing port carries messages. -/
def State.poolPortUp (s : State) : Bool := (List.range 80).any (fun p => !peerFacing p && (s.portAt p).up)

/-- The package in TRAIN: it asks for a session once package time is locked and a port is up, and serves once it has
one and is locked (spec/01_package.md R20, spec/19_host.md R388). -/
def State.trainTest (s : State) : State :=
  if s.pkg.st ≠ .train || !s.poolPortUp || !s.ptp.lock then s
  else match s.pool.token with
    | some t => { s with pkg := { s.pkg with st := .serving, trainSince := 0 } }.event 0x01 0xFF 0xFF t.toNat 0
    | none => if s.pool.remotes.any (fun r => r.2.kind == .session) then s else (s.newRemote .session 0 0 0 0).2

/-- Requests that the package sends only while package time is locked: SESSION, and those for a lease (spec/19_host.md R388). -/
def RemoteKind.needsLock : RemoteKind → Bool
  | .session => true
  | .page _ _ => true
  | .renew _ => true
  | _ => false

/-- The pool's SESSION response: it carries the tag of its request (R367), which the row SESSION does not name. -/
def State.onSession (s : State) (token : Word) (answers : Nat → Bool := fun _ => true) : State :=
  match List.find? (fun r : Nat × Remote => r.2.kind == .session && answers r.1) s.pool.remotes with
  | none => s
  | some (tag, _) =>
    let s := s.dropRemote tag
    if s.pkg.st = .train then { s with pool := { s.pool with token := some token, lastToken := token } }.trainTest else s

/-- SESSION (R367). -/
def execSession (token : BitVec 64) (s : State) : Res := .next (s.onSession token)

/-! Faults of a task's pool operations. -/

/-- A task's operation is refused: FENCED, POOL_DENIED or POISON (R185, R186). -/
def State.refused (s : State) (g : Nat) (status : BitVec 8) (obj : Nat) : State :=
  (s.fencedEvent status obj).contain g (statusCause status)

/-! Answers. -/

/-- A list of bytes made `n` long. -/
def fitBytes (n : Nat) (bs : List Byte) : List Byte := (bs ++ List.replicate n 0).take n

/-- A page is granted (R185, R186): its frame is filled, and writes of this package that waited are applied. -/
def State.grantPage (s : State) (key expiry : Nat) (bs : List Byte) (poison : List Nat) : State :=
  s.modPage key (fun p =>
    if p.st = .requested then
      let f : Tbl Byte := Tbl.setRange 0 [] 0 (fitBytes 65536 bs)
      { p with st := .leased, frame := p.late.foldl (fun t w => t.set 0 w.1 w.2) f, late := []
               poison := poison.foldl (fun t l => if l < 1024 then t.set false l true else t) [], latent := []
               expiry := expiry, granted := expiry - s.pkg.ns, demandRead := false, readBy := [] }
    else p)

/-- READ_DATA: poisoned 64-byte lines of the data by number. A page request that is answered with POISON or STALE ends as one
that is denied: the page is ABSENT and its waiters are contained with POISON or FENCED (log entry 53). -/
def State.onReadData (s : State) (tag : Nat) (status : BitVec 8) (expiry : Nat) (bs : List Byte) (poison : List Nat) : State :=
  match Tbl.find? s.pool.remotes tag with
  | none => s
  | some r =>
    let po := !poison.isEmpty || status == 3
    match r.kind with
    | .page key _ =>
      let s := s.dropRemote tag
      if status = 0 then s.grantPage key expiry bs poison
      else ((s.absentPage key).fencedEvent status (key / 2 ^ 32)).containWaiters key (statusCause status)
    | .homeRead key _ n =>
      if status = 0 ∨ status = 3 then
        { s with pool := { s.pool with remotes := s.pool.remotes.put tag { r with answer := some (extended (fitBytes n bs), po) } } }
      else (s.dropRemote tag).refused r.grp status (keyObj key)
    | .copyRead _ _ key n =>
      if status = 0 ∨ status = 3 then
        { s with pool := { s.pool with remotes := s.pool.remotes.put tag { r with answer := some (0, po), data := fitBytes n bs } } }
      else (s.dropRemote tag).refused r.grp status (keyObj key)
    | .get _ key kind a n =>
      if status = 0 ∨ status = 3 then
        s.landGet tag r kind a (fitBytes n bs) (if status = 3 && poison.isEmpty then List.range ((n + 63) / 64) else poison)
      else ((s.dropRemote tag).fencedEvent status (keyObj key)).remoteFails r (statusCause status)
    | _ => s

/-- READ_DATA (R185). -/
def execReadData (tag : Nat) (status : BitVec 8) (expiry : Nat) (bytes : List Byte) (poison : List Nat) (s : State) : Res :=
  .next (s.onReadData tag status expiry bytes poison)

/-- The unit of a WRITE leaves its boundary. -/
def State.dropUnit (s : State) (g bound tag : Nat) : State :=
  s.modGroup g (fun x => { x with ver := { x.ver with bounds := x.ver.bounds.map (fun b =>
    if b.id = bound then { b with punits := b.punits.filter (fun u => u.tag != some tag) } else b) } })

/-- WRITE_ACK: the unit is committed, or the pages that received it are DROPPED and the task is contained (R186). -/
def State.onWriteAck (s : State) (tag : Nat) (status : BitVec 8) : State :=
  match Tbl.find? s.pool.remotes tag with
  | none => s
  | some r =>
    match r.kind with
    | .write g bound key bs =>
      let s := (s.dropRemote tag).dropUnit g bound tag
      if status = 0 then s.settleBounds g
      else ((s.frameReject bs).refused g status (keyObj key)).settleBounds g
    | _ => s

/-- WRITE_ACK (R186). -/
def execWriteAck (tag : Nat) (status : BitVec 8) (s : State) : Res := .next (s.onWriteAck tag status)

/-- What the pool stored for an atomic, from the old value it answers with. -/
def storedValue (size : Nat) (op : BitVec 3) (operand compare : Word) (cas : Bool) (old : Word) : Option Word :=
  let low := fun v : Word => v.toNat % 2 ^ (8 * size)
  if cas then (if low old = low compare then some operand else none) else some (amoResult op size old operand)

/-- ATOMIC_RESULT: the frame takes the value that the pool stored, and the strand its old value (R186). -/
def State.onAtomicResult (s : State) (tag : Nat) (status : BitVec 8) (old : Word) : State :=
  match Tbl.find? s.pool.remotes tag with
  | none => s
  | some r =>
    match r.kind with
    | .atomic key size op operand compare cas =>
      if status = 0 then
        let s := match storedValue size op operand compare cas old with
          | some v => s.frameWrite (place (addrs key size) (lowBytes size v))
          | none => s
        { s with pool := { s.pool with remotes := s.pool.remotes.put tag { r with answer := some (BitVec.ofNat 64 (old.toNat % 2 ^ (8 * size)), false) } } }
      else (s.dropRemote tag).refused r.grp status (keyObj key)
    | _ => s

/-- ATOMIC_RESULT (R186). -/
def execAtomicResult (tag : Nat) (status : BitVec 8) (old : BitVec 64) (s : State) : Res := .next (s.onAtomicResult tag status old)

/-- The response to a RENEW (R185): a page not renewed is left to its expiry. A renewal begins a new lease for the demand-read
condition of R187 (DESIGN CHOICE, log entry 70). -/
def State.onRenew (s : State) (tag : Nat) (status : BitVec 8) (expiry : Nat) : State :=
  match Tbl.find? s.pool.remotes tag with
  | none => s
  | some r =>
    match r.kind with
    | .renew key =>
      let s := s.dropRemote tag
      if status = 0 then
        s.modPage key (fun p => if p.st = .leased then
          { p with expiry := expiry, granted := expiry - s.pkg.ns, demandRead := false } else p)
      else s
    | _ => s

/-- RENEW's response (R185). -/
def execRenewResponse (tag : Nat) (status : BitVec 8) (expiry : Nat) (s : State) : Res := .next (s.onRenew tag status expiry)

/-! Revocation and expiry (R185). -/

/-- The key of a pool page of an object. -/
def pageKey (obj : BitVec 48) (page : Nat) : Nat := obj.toNat * 2 ^ 32 + page

/-- The acknowledgement of a REVOKE leaves on the port on which it came, or where that is down on another. -/
def State.ackRevoke (s : State) (k : Nat) (tp : Nat × Nat) : State :=
  let m : Sent := .revokeAck tp.1 (k / 2 ^ 32) (k % 2 ^ 32)
  if (s.portAt tp.2).up then s.transmit tp.2 m
  else
    let r := s.choosePort (tp.2 / 20) false
    match r.1 with
    | some p => r.2.transmit p m
    | none => s.send m

/-- REVOKE: a LEASED page is REVOKING; any other is acknowledged at once, but one REVOKING already when it is done. -/
def State.onRevoke (s : State) (obj : BitVec 48) (page tag port : Nat) : State :=
  let k := pageKey obj page
  match s.page? k with
  | none => s.ackRevoke k (tag, port)
  | some p => match p.st with
    | .leased => s.modPage k (fun p => { p with st := .revoking, revoke := (tag, port) })
    | .revoking => s
    | .requested => s.ackRevoke k (tag, port)
    | .dropped => s.ackRevoke k (tag, port)

/-- REVOKE (R185). The row names neither its tag nor its port: free values. -/
def execRevoke (obj : BitVec 48) (page : Nat) (s : State) : Res :=
  let t := s.pick 65536
  let p := t.2.choosePort 0 false
  .next (p.2.onRevoke obj page t.1 (p.1.getD 0))

/-- Every read that a REVOKING page had accepted has returned (R185). -/
def execRevokeDrained (obj : BitVec 48) (page : Nat) (s : State) : Res :=
  let k := pageKey obj page
  match s.page? k with
  | none => .next s
  | some p => if p.st = .revoking then .next ((s.dropPage k).ackRevoke k p.revoke) else .next s

/-- Package time comes within 20 µs of a page's expiry (R185). -/
def execLeaseExpiry (obj : BitVec 48) (page : Nat) (s : State) : Res := .next (s.freshen (pageKey obj page))

/-! Step schedules (R188, R189). -/

/-- The step that a queue runs: its oldest spore not yet ended. -/
def State.stepOf (s : State) (q : Nat) : Option Nat :=
  (List.find? (fun e : Nat × Launch => e.2.queue == q && e.2.node.isNone && !e.2.st.over) s.launches).map (fun e => e.2.sseq.toNat)

/-- The entries of a queue's schedule ring, with their numbers; none for one that is not read cleanly. -/
def State.scheduleRing (s : State) (q : Nat) : List (Nat × Option (BitVec 128)) :=
  let x := s.queueAt q
  (List.range (2 ^ (x.ssz + 4))).map (fun i => match (s.readHome x.ctx (x.sched + 16 * i) 2).1 with
    | some [w0, w1] => (i, some (w1 ++ w0))
    | _ => (i, none))

/-- Entries for a step in ring order. -/
def stepEntries (ring : List (Nat × Option (BitVec 128))) (step : Nat) : List (Nat × BitVec 128) :=
  ring.filterMap (fun e => match e.2 with
    | some v => if (v.extractLsb' 96 32).toNat = step % 2 ^ 32 then some (e.1, v) else none
    | none => none)

/-- The entries of a queue's window: steps n + 1 to n + k in ascending order. -/
def State.windowEntries (s : State) (q : Nat) : List (Nat × BitVec 128) :=
  let x := s.queueAt q
  match s.stepOf q with
  | none => []
  | some n => if x.look = 0 then [] else
      let ring := s.scheduleRing q
      (List.range x.look).flatMap (fun i => stepEntries ring (n + 1 + i))

/-- An entry's capability, offset and length in bytes, where it passes the engine's checks. -/
def State.entryRange (s : State) (q : Nat) (e : BitVec 128) : Option (BitVec 128 × Nat × Nat) :=
  let ctx := (s.queueAt q).ctx
  let i := (e.extractLsb' 84 12).toNat
  if e.extractLsb' 64 18 != 0 || decide (s.capCount ctx ≤ i) then none
  else match (s.capEntry ctx i).1 with
    | some (c, false) =>
      let off := (e.extractLsb' 28 36).toNat * 256
      let n := (e.extractLsb' 0 28).toNat * 256
      if s.capEntryOk ctx c && capRD c && decide (off + n ≤ capLen c) then some (c, off, n) else none
    | _ => none

/-- Ring entries that are not mapped or are read poisoned are skipped with an event record (R177, R189). -/
def State.badRing (s : State) (q : Nat) : State :=
  if (s.queueAt q).look = 0 || (s.stepOf q).isNone then s
  else (s.scheduleRing q).foldl (fun s e => if e.2.isNone then s.event 0x06 0xFF 0xFF q e.1 else s) s

/-- The prefetch engine walks the entries of a queue's window (R189). -/
def State.walkSchedule (s : State) (q : Nat) : State :=
  (s.windowEntries q).foldl (fun s e => match s.entryRange q e.2 with
    | none => s.event 0x06 0xFF 0xFF q e.1
    | some (c, off, n) => if n = 0 then s else s.claimPages c off n (e.2.extractLsb' 82 2).toNat 0 0) (s.badRing q)

/-- PREFETCH_WALK. -/
def execPrefetchWalk (q : Nat) (s : State) : Res := .next (s.walkSchedule q)

/-- A page lies in the present window of some queue's schedule. -/
def State.inWindow (s : State) (key : Nat) : Bool :=
  (List.range 1024).any (fun q => (s.queueAt q).look != 0 && (s.windowEntries q).any (fun e => match s.entryRange q e.2 with
    | some (c, off, n) => n != 0 && !capHome c && decide (pageOf (pKey c off) ≤ key ∧ key ≤ pageOf (pKey c off + n - 1))
    | none => false))

/-- A LEASED page of which less than a quarter of its granted duration remains is renewed where a demand access has read it
during its lease or it lies in a schedule's window (R187). -/
def State.renewPage (s : State) (k : Nat) : State :=
  match s.page? k with
  | none => s
  | some p =>
    let late := decide (4 * (p.expiry - s.pkg.ns) < p.granted)
    let asked := s.pool.remotes.any (fun r => r.2.kind == .renew k)
    if p.st = .leased && s.ptp.lock && late && !asked && (p.demandRead || s.inWindow k) then (s.newRemote (.renew k) 0 0 0 0).2
    else s

/-- The prefetch engine renews a page (R187). -/
def execLeaseRenewal (obj : BitVec 48) (page : Nat) (s : State) : Res := .next (s.renewPage (pageKey obj page))

/-- `pf.p` (R207): the pages are claimed, and LEASED ones renewed as R187 gives. -/
def execPfP (pre : Pre) (d : BitVec 6) (c : BitVec 4) (r : BitVec 2) (x : BitVec 6) (sc : BitVec 2) (disp : BitVec 20) (s : State) : Res :=
  issue (.pfP pre d c r x sc disp) s (fun s =>
    let a := s.me.mxOff x sc disp
    let cr := s.me.cap c
    let q := s.me.rd d
    unlessPoison (a.2 || cr.poison || q.poison) (
      let n := max q.v.toNat 1
      if capCheck cr.v a.1 n .rd then
        let s := s.claimPages cr.v a.1.toNat n r.toNat s.grp (dieOf s.core)
        .done ((claimedPages cr.v a.1.toNat n).foldl State.renewPage s)
      else .trap 0x0A (addrInfo a.1) 0))

/-- How readily a page goes for space: reuse classes from `.once` to `.near`, least recently used first (R187). -/
def evictBefore (a b : Page) : Bool := decide (b.reuse < a.reuse) || (a.reuse == b.reuse && decide (a.lastUse < b.lastUse))

/-- A DROPPED page's frame is reclaimed (R185); when frames are needed, the first LEASED page in the order of R187 that
the current step has not read is dropped. -/
def execFrameReclaim (obj : BitVec 48) (page : Nat) (s : State) : Res :=
  let k := pageKey obj page
  match s.page? k with
  | none => .next s
  | some p => match p.st with
    | .dropped => .next (s.absentPage k)
    | .leased =>
      let free := fun (x : Page) => x.st == .leased && x.readBy.isEmpty
      if free p && s.pool.pages.all (fun e => !(free e.2 && evictBefore e.2 p)) then .next (s.dropPage k) else .next s
    | _ => .next s

/-! Time-outs (spec/18_link.md R368). -/

/-- The object that a remote operation names. -/
def RemoteKind.obj : RemoteKind → Nat
  | .page key _ => key / 2 ^ 32
  | .renew key => key / 2 ^ 32
  | .homeRead key _ _ => keyObj key
  | .write _ _ key _ => keyObj key
  | .atomic key _ _ _ _ _ => keyObj key
  | .get _ key _ _ _ => keyObj key
  | .copyRead _ _ key _ => keyObj key
  | _ => 0

/-- An operation out of retries. A boundary's write counts as a demand access, and pages that its bytes reached are
dropped (log entry 32). -/
def State.abandon (s : State) (tag : Nat) (r : Remote) : State :=
  let s := (s.dropRemote tag).event 0x18 r.port 0xFF tag r.kind.obj
  match r.kind with
  | .page key _ => (s.absentPage key).containWaiters key 0x43
  | .write g bound _ bs => (((s.dropUnit g bound tag).frameReject bs).contain g 0x43).settleBounds g
  | .renew key => s.dropPage key
  | .session => s
  | _ => s.remoteFails r 0x43

/-- An attempt has timed out, all its flits having left: the back-off runs, or the operation is abandoned. -/
def execRemoteTimeout (tag : Nat) (s : State) : Res :=
  match Tbl.find? s.pool.remotes tag with
  | none => .next s
  | some r =>
    if r.backoff || r.answer.isSome || (s.portAt r.port).unsent tag || decide (s.pkg.up < r.deadline) then .next s
    else if r.attempt < (s.portAt r.port).retry.toNat then
      let wait := min (4000 * 2 ^ (r.attempt + 1)) 256000
      .next { s with pool := { s.pool with remotes := s.pool.remotes.put tag { r with backoff := true, deadline := s.pkg.up + wait } } }
    else .next (s.abandon tag r)

/-- The back-off has ended: the request is resent with its tag, on a port of the same kind on its die that is up; where
none is, the attempt passes without being sent. What only a locked package sends waits for the lock (spec/19_host.md R388). -/
def execRetryBackoff (tag port : Nat) (s : State) : Res :=
  match Tbl.find? s.pool.remotes tag with
  | none => .next s
  | some r =>
    let same := fun p : Nat => p / 20 == r.port / 20 && peerFacing p == peerFacing r.port && (s.portAt p).up
    let ok := if r.kind.link then port == r.port else same port || (port == r.port && !(List.range 80).any same)
    if !r.backoff || decide (s.pkg.up < r.deadline) || !ok || (r.kind.needsLock && !s.ptp.lock) then .next s
    else .next (s.sendAttempt tag { r with attempt := r.attempt + 1, port := port })

/-! PUT and PUTSIG at the receiver, and their acknowledgement (R380). -/

/-- The receive window's H address and length. -/
def Port.window (p : Port) : Nat × Nat := (p.rxbase.toNat * 65536, p.rxlen.toNat * 65536)

/-- A response to a PUT, kept for repeats (R367). -/
def State.answerPut (s : State) (port : Nat) (token : Word) (tag : Nat) (status : BitVec 8) : State :=
  (s.modPort port (fun p => { p with served := ((token, tag), status) :: p.served })).transmit port (.putAck tag port status)

/-- Write a PUT's data and apply its decrement: the status of the response. -/
def State.servePut (s : State) (port off : Nat) (world : BitVec 8) (bs : List Byte) (sig : Option (Nat × BitVec 16)) : BitVec 8 × State :=
  let p := s.portAt port
  let ctx := p.rxctx.toNat
  let inside := fun (o n : Nat) => decide (o + n ≤ p.window.2)
  let sigIn := match sig with | some (o, _) => inside o 8 | none => true
  if !peerFacing port || p.rxlen == 0 || !inside off bs.length || !sigIn || world != (s.ctxAt ctx).world then (2, s)
  else match s.hPhysRange ctx ((p.window.1 + off : Nat) : Int) bs.length .wr with
    | none => (2, s)
    | some as =>
      match sig with
      | none => (0, s.commitBytes (place as bs))
      | some (o, dec) => match s.hPhysRange ctx ((p.window.1 + o : Nat) : Int) 8 .wr with
        | none => (2, s)
        | some cs =>
          let s := s.commitBytes (place as bs)
          let r := s.homeRead cs
          if r.2.1 then (3, r.2.2)
          else (0, r.2.2.commitBytes (place cs (wordBytes (BitVec.ofNat 64 (natLE r.1) - zx dec))))

/-- A PUT or PUTSIG arrives; a repeat of its token and tag gets the stored response (R367). -/
def State.onPut (s : State) (port : Nat) (token : Word) (tag off : Nat) (world : BitVec 8) (bs : List Byte)
    (sig : Option (Nat × BitVec 16)) : State :=
  match (s.portAt port).served.find? (fun e => e.1 == (token, tag)) with
  | some (_, st) => s.transmit port (.putAck tag port st)
  | none =>
    let r := s.servePut port off world bs sig
    r.2.answerPut port token tag r.1

/-- PUT (R380). The row names no token: a free value. -/
def execPut (port tag off : Nat) (world : BitVec 8) (bytes : List Byte) (s : State) : Res :=
  let t := s.pick (2 ^ 64)
  .next (t.2.onPut port (BitVec.ofNat 64 t.1) tag off world bytes none)

/-- PUTSIG (R380). -/
def execPutsig (port tag off : Nat) (world : BitVec 8) (bytes : List Byte) (counter : Nat) (dec : BitVec 16) (s : State) : Res :=
  let t := s.pick (2 ^ 64)
  .next (t.2.onPut port (BitVec.ofNat 64 t.1) tag off world bytes (some (counter, dec)))

/-- PUT_ACK: DENIED and POISON contain the task (R380). -/
def State.onPutAck (s : State) (tag : Nat) (status : BitVec 8) : State :=
  match Tbl.find? s.pool.remotes tag with
  | none => s
  | some r =>
    match r.kind with
    | .put _ _ _ _ =>
      let s := s.dropRemote tag
      if status = 0 then s else s.remoteFails r (statusCause status)
    | _ => s

/-- PUT_ACK (R380). -/
def execPutAck (tag : Nat) (status : BitVec 8) (s : State) : Res := .next (s.onPutAck tag status)

end Sys2Proof.Machine
end

