-- ==== Sys2Proof/Machine/Package.lean ====
section
/-! DEFINITION. The package states: power, identity, configuration, draining, failure and reset, and the power cap
(spec/01_package.md R17 to R24; spec/19_host.md R390, R393, R394). -/

namespace Sys2Proof.Machine

/-- The package enters FAILED (R20, R21, R24): open versions are discarded, the session is abandoned, sequencers stop with
their `LAST` as it is, and nothing moves until RESET. -/
def State.pkgFail (s : State) (cause : BitVec 8) : State :=
  if s.pkg.st = .reset ∨ s.pkg.st = .failed then s
  else
    let s := { s with pkg := { s.pkg with st := .failed, failCause := cause, drainDeadline := none, deadlineNow := false } }
    let s := s.event 0x03 0xFF 0xFF cause.toNat 0
    { s with groups := s.groups.map (fun e => (e.1, { e.2 with ver := {}, contain := none }))
             ports := s.ports.map (fun e => (e.1, { e.2 with seq := { e.2.seq with st := .idle, word := none } }))
             pool := { s.pool with token := none, pages := [], remotes := [] } }

/-- RESET: every state on the package is cleared but the flash (R20); the ports' switches hold their position
(spec/18_link.md R374), and the PUF gives its seed again (spec/19_host.md R393). Host memory, the weight store and what the model holds
beside the package stay. -/
def State.cleared (s : State) : State :=
  { State.reset with
    schedule := s.schedule, core := s.core, strand := s.strand, port := s.port, seqTurn := s.seqTurn, free := s.free,
    nextId := s.nextId, flash := s.flash, switches := s.switches, puf := s.puf, weights := s.weights, host := s.host, outbox := s.outbox, order := s.order }

/-- A RESET, over which `AGE` is kept (spec/18_link.md R362): the minutes that the flash does not have yet too. -/
def State.pkgReset (s : State) : State :=
  s.ports.foldl (fun r e => e.2.lanes.foldl (fun r l =>
    if l.2.fresh = 0 then r else r.modLane e.1 l.1 (fun x => { x with fresh := l.2.fresh })) r) s.cleared

/-- Power is good and reset released (R20). -/
def execPowerGood (s : State) : Res :=
  if s.pkg.st = .reset then .next { s with pkg := { s.pkg with st := .identify, timeRuns := true, ns := 0 } } else .next s

/-- The PUF gives the seed, the device's own at every power-on; the key pair and the identity digest follow from it (R20,
spec/19_host.md R393; log entry 67). -/
def execIdentityDerived (seed : BitVec 768) (s : State) : Res :=
  if s.pkg.st = .identify then
    let seed := s.puf.getD seed
    let key := Config.xmssPublicKey seed
    .next { s with puf := some seed, pkg := { s.pkg with st := .configure, seed := seed, pubkey := key, pid := BitVec.ofNat 64 (natLE (shake256 key 8)) } }
  else .next s

/-- The PUF's reconstruction fails (R20). -/
def execPufFail (s : State) : Res := if s.pkg.st = .identify then .next (s.pkgFail 0x01) else .next s

/-- The recovery core authenticates the flash, then verifies and loads image and bitstream; what does not pass is a failure
(R20, spec/19_host.md R390, R392, R394). -/
def execConfigurationLoaded (s : State) : Res :=
  if s.pkg.st ≠ .configure then .next s
  else if s.flashGood then
    let digest := fun (i : Image) => BitVec.ofNat 512 (natLE (shake256 i.bytes 64))
    let s := s.readFlash.writeFlash (fun f => { f with cfgGen := f.cfgGen + 1 })
    .next ({ s with
      pkg := { s.pkg with st := .train, trainSince := s.pkg.up, bmeas := digest s.flash.bitstream,
                          rmeas := digest s.flash.recovery } } : State).trainTest
  else .next (s.pkgFail 0x02)

/-- Signature or flash authentication fails (R20). -/
def execConfigurationFail (s : State) : Res := if s.pkg.st = .configure then .next (s.pkgFail 0x02) else .next s

/-- 2 s in TRAIN without a pool session (R20). -/
def execSessionTimeout (s : State) : Res :=
  if s.pkg.st = .train && s.pool.token.isNone && decide (s.pkg.trainSince + 2000000000 ≤ s.pkg.up) then .next (s.pkgFail 0x03)
  else .next s

/-- DRAIN with a deadline in µs (R20, R23). -/
def State.drain (s : State) (deadline : BitVec 32) : State :=
  if s.pkg.st = .serving then
    let at' := if deadline = 0 then none else some (s.pkg.ns + deadline.toNat * 1000)
    { s with pkg := { s.pkg with st := .draining, drainDeadline := at' } }
  else s

/-- `PKG_CTL` DRAIN, from the host window alone (spec/19_host.md R385). -/
def execPkgCtlDrain (via : Via) (deadline : BitVec 32) (s : State) : Res := .next (if via = .host then s.drain deadline else s)

/-- RESUME: TRAIN, with a new session to ask for (R20, R21). -/
def State.resume (s : State) : State :=
  if s.pkg.st = .quiesced then
    ({ s with pkg := { s.pkg with st := .train, trainSince := s.pkg.up }, pool := { s.pool with token := none } } : State).trainTest
  else s

/-- `PKG_CTL` RESUME. -/
def execPkgCtlResume (via : Via) (s : State) : Res := .next (if via = .host then s.resume else s)

/-- `PKG_CTL` RESET. -/
def execPkgCtlReset (via : Via) (s : State) : Res := .next (if via = .host then s.pkgReset else s)

/-- The power goes: what the flash holds is all that stays (R18). -/
def execPowerLoss (s : State) : Res := .next s.cleared

/-- `PKG_PWR` (R17): the reserved bits drop, and the cap is the nearest value in its range. -/
def State.setCap (s : State) (v : Word) : State :=
  let cap := v.extractLsb' 0 12
  { s with pkg := { s.pkg with cap := cap, capEffective := min (max cap.toNat 1800) 3600 } }

/-- `PKG_PWR`. -/
def execPkgPwrWrite (via : Via) (v : BitVec 64) (s : State) : Res := .next (if via = .host then s.setCap v else s)

/-- The launches that have a running task, and the graphs of which they are nodes with the graphs' other nodes. -/
def State.busyLaunches (s : State) : List (Nat × Launch) :=
  let busy := s.launches.filter (fun e => !(s.liveGroups e.1).isEmpty)
  let graphs := busy.filterMap (fun e => e.2.node.map (fun n => n.1))
  launchSort (s.launches.filter (fun e => e.2.st.live && (busy.any (fun b => b.1 == e.1) || graphs.contains e.1 ||
    (match e.2.node with | some (gl, _) => graphs.contains gl | none => false))))

/-- The drain deadline (R20 to R22): groups whose final boundary has completed retire; every other running task is
discarded with cause DRAIN and its launch ends, a graph with its nodes (spec/15_queue.md R319); the package is
QUIESCED. -/
def State.deadline (s : State) : State :=
  let done := s.groups.filter (fun e => s.finished e.2 e.1)
  let s := done.foldl (fun s e => (s.retireGroup e.1).endLaunch e.2.launch) s
  s.busyLaunches.foldl (fun s e => s.cutLaunch e.1 0x45) s

/-- The deadline falls: at the end of the clock (R22). -/
def execDrainDeadline (s : State) : Res :=
  match s.pkg.drainDeadline with
  | none => .next s
  | some t => if s.pkg.st = .draining && decide (t ≤ s.pkg.ns) then .next { s with pkg := { s.pkg with deadlineNow := true } } else .next s

/-- An uncorrectable error in the command complex's state SRAM (R24). -/
def execFatalPackageError (s : State) : Res := .next (s.pkgFail 0x10)

end Sys2Proof.Machine
end

