-- ==== Sys2Proof/Machine/Port.lean ====
section
/-! DEFINITION. The life of a port: training, loss of light and restriping, received flits and the messages in them, and
its lasers (spec/18_link.md R361 to R376). -/

namespace Sys2Proof.Machine

/-! Lane sets and training messages. -/

/-- The width that a number of usable lanes gives; 0 where the direction cannot carry flits (R365). -/
def widthOf (n : Nat) : Nat := if 16 ≤ n then 16 else if 12 ≤ n then 12 else if 8 ≤ n then 8 else if 6 ≤ n then 6 else if 4 ≤ n then 4 else 0
/-- The active lanes of a set of usable ones: the lowest-numbered (R365). -/
def activeLanes (m : BitVec 16) : BitVec 16 :=
  let l := (lanesOf m).take (widthOf (laneCount m))
  laneMask (fun i => l.contains i)

/-- This end has the lower identity (R370). -/
def State.lower (s : State) (p : Nat) : Bool := decide (s.pkg.pid.toNat < (s.portAt p).peerPid.toNat)

/-- A training message of this end, with lane sets for its transmit and its receive direction (R370). -/
def State.trainMsg (s : State) (p : Nat) (tx rx : BitVec 16) : TrainMsg :=
  let q := s.portAt p
  { trate := q.trate, tseq := q.exch.tseq, txset := s.healthyTx p, rxset := q.healthyRx,
    usea := (if s.lower p then tx else rx), useb := (if s.lower p then rx else tx), pid := s.pkg.pid }

/-- The lane sets that a message gives for this end's transmit and receive direction. -/
def State.useTx (s : State) (p : Nat) (m : TrainMsg) : BitVec 16 := if s.lower p then m.usea else m.useb
def State.useRx (s : State) (p : Nat) (m : TrainMsg) : BitVec 16 := if s.lower p then m.useb else m.usea

/-- A target rate; 3 is treated as 2 (R362). -/
def rateOf (r : BitVec 2) : BitVec 2 := if r = 3 then 2 else r
/-- The lower of two rates is the larger code (R371). -/
def slower (a b : BitVec 2) : BitVec 2 := if (rateOf a).toNat < (rateOf b).toNat then rateOf b else rateOf a

/-- Send a TRAIN message: 1 OFFER, 2 ACCEPT, 3 READY, 4 RETRAIN_REQ, 5 RESTRIPE (R370). A FAILED package sends no new flit
(spec/01_package.md R20, R21). -/
def State.sendTrain (s : State) (p kind : Nat) (m : TrainMsg) : State :=
  if s.pkg.st = .failed then s
  else (s.send (.train p kind m)).send (.flit p (flitBytes { kind := 2, plen := 48 } (trainBytes kind m)))
def State.sendOffer (s : State) (p : Nat) : State := s.sendTrain p 1 (s.trainMsg p 0 0)

/-- Change the exchange under way. -/
def State.modExch (s : State) (p : Nat) (f : Exchange → Exchange) : State := s.modPort p (fun q => { q with exch := f q.exch })

/-! Leaving service. -/

/-- A port without its link: lasers dark, unacknowledged flits abandoned, the incomplete message discarded (R367,
R369). -/
def Port.down (q : Port) (st : PortState) : Port :=
  { q with
    st := st, w := 0, rxw := 0, txLanes := 0, rxLanes := 0, exch := { tseq := q.exch.tseq }, txRestripe := none, rxRestripe := none,
    laterRetrain := [], outq := [], replay := [], unacked := 0, incoming := none, lastNak := none, nakTimes := [],
    lanes := (List.range 16).foldl (fun t i => t.set {} i { (t.get {} i) with lit := false }) q.lanes }

/-- The port enters FAILED, BYPASSED or DARK; a task whose link program it carries is contained with LINK_LOST (R378). -/
def State.portDown (s : State) (p : Nat) (st : PortState) : State :=
  let s := s.modPort p (fun q => q.down st)
  if (s.portAt p).seq.st = .idle then s else s.seqContain p 0x43

/-- The port FAILED, with the lanes left (R369). -/
def State.portFail (s : State) (p left : Nat) : State :=
  ((s.modPort p (fun q => { q with cause := 0x14 })).event 0x14 p 0xFF left 0).portDown p .failed

/-! The exchange. -/

/-- The exchange starts again with the next number (R370, R373). -/
def State.restart (s : State) (p : Nat) : State :=
  (s.modExch p (fun e => { tseq := e.tseq + 1 })).sendOffer p

/-- RETRAIN is entered with an exchange number. -/
def State.enterRetrain (s : State) (p : Nat) (tseq : BitVec 8) : State :=
  s.modPort p (fun q => { q with st := .retrain, since := s.pkg.up, w := 0, rxw := 0, txRestripe := none, rxRestripe := none,
                                 exch := { tseq := tseq } })

/-- This end asks for a retrain. -/
def State.askRetrain (s : State) (p : Nat) : State :=
  let s := s.enterRetrain p ((s.portAt p).exch.tseq + 1)
  let m := s.trainMsg p 0 0
  (s.modExch p (fun e => { e with requestSent := some m })).sendTrain p 4 m

/-- What both ends compute from their two messages (R371): this end's ACCEPT. -/
def State.agreed (s : State) (p : Nat) (own peer : TrainMsg) : TrainMsg :=
  { s.trainMsg p (activeLanes (own.txset &&& peer.rxset)) (activeLanes (peer.txset &&& own.rxset)) with
    trate := slower own.trate peer.trate, txset := own.txset, rxset := own.rxset }

/-- This end's ACCEPT goes out with the peer's OFFER or request known. -/
def State.announce (s : State) (p : Nat) (own peer : TrainMsg) : State :=
  let s := s.modPort p (fun q => { q with peerPid := peer.pid })
  let a := s.agreed p own peer
  (s.modExch p (fun e => { e with offer := some peer, acceptSent := some a })).sendTrain p 2 a

/-- A request is served in an exchange of its own (R371). -/
def State.serveRequest (s : State) (p : Nat) (m : TrainMsg) : State :=
  let s := (s.enterRetrain p m.tseq).sendOffer p
  s.announce p (s.trainMsg p 0 0) m

/-- The oldest request that waited is served (R371, R373). -/
def State.serveLater (s : State) (p : Nat) : State :=
  let q := s.portAt p
  match q.laterRetrain with
  | [] => s
  | m :: rest =>
    if q.up && q.txRestripe.isNone && q.rxRestripe.isNone then
      (s.modPort p (fun q => { q with laterRetrain := rest })).serveRequest p m
    else s

/-- The port is up with the agreed lanes and rate: PORT_UP or RETRAINED, and replay resumes (R369);
a request that arrived meanwhile is served next (R371). -/
def State.portUp (s : State) (p : Nat) (own peer : TrainMsg) : State :=
  let q := s.portAt p
  let tx := own.txset &&& peer.rxset
  let rx := peer.txset &&& own.rxset
  let code := if q.st = .retrain then 0x12 else 0x13
  let fresh := q.st != .retrain
  let w := widthOf (laneCount tx)
  let rw := widthOf (laneCount rx)
  let q' : Port :=
    { q with st := (if w = 16 ∧ rw = 16 ∧ own.trate = 0 then .active else .degraded), w := w, rxw := rw, rate := own.trate,
             cause := BitVec.ofNat 8 code, txLanes := tx, rxLanes := rx, exch := { tseq := q.exch.tseq },
             txSeq := if fresh then 0 else q.txSeq, rxSeq := if fresh then 0 else q.rxSeq,
             lastProgress := s.pkg.up, lastNak := none, nakTimes := [] }
  let s := (s.setPort p q').event code p 0xFF own.trate.toNat ((activeLanes tx).toNat * 65536 + (activeLanes rx).toNat)
  (((s.replayAll p).pump p).trainTest).serveLater p

/-- READY has gone both ways (R369, R370). -/
def State.readyTest (s : State) (p : Nat) : State :=
  let e := (s.portAt p).exch
  match e.acceptSent, e.offer with
  | some own, some peer => if e.readySent && e.readyGot then s.portUp p own peer else s
  | _, _ => s

/-- Compare the two ACCEPTs: READY where they agree, a new exchange where they do not (R370). -/
def State.compareAccepts (s : State) (p : Nat) : State :=
  let e := (s.portAt p).exch
  match e.acceptSent, e.accept with
  | some a, some b =>
    if a.trate = b.trate ∧ a.usea = b.usea ∧ a.useb = b.useb then
      if e.readySent || a.usea == 0 || a.useb == 0 then s
      else ((s.modExch p (fun e => { e with readySent := true })).sendTrain p 3 (s.trainMsg p 0 0)).readyTest p
    else s.restart p
  | _, _ => s

/-- This end's ACCEPT, held against the peer's where that has come already. -/
def State.sendAccept (s : State) (p : Nat) (own peer : TrainMsg) : State := (s.announce p own peer).compareAccepts p

/-- SEEK becomes TRAIN with at least four receive lanes locked and the peer's OFFER seen (R369). -/
def State.seekTest (s : State) (p : Nat) : State :=
  let q := s.portAt p
  match q.st, q.exch.offer with
  | .seek, some peer =>
    if 4 ≤ laneCount q.healthyRx then
      let s := s.modPort p (fun q => { q with st := .train, since := s.pkg.up })
      s.sendAccept p (s.trainMsg p 0 0) peer
    else s
  | _, _ => s

/-- A number is ahead of another by less than half the range. -/
def tseqAhead (a b : BitVec 8) : Bool := decide ((a - b).toNat < 128) && a != b

/-- OFFER (R370): one of a later exchange is adopted and answered with this end's own. -/
def State.onOffer (s : State) (p : Nat) (m : TrainMsg) : State :=
  let q := s.portAt p
  let newer := tseqAhead m.tseq q.exch.tseq
  if !(q.st == .seek || q.st == .train || q.st == .retrain) || (m.tseq != q.exch.tseq && !newer) then s
  else
    let s := if newer then (s.modExch p (fun _ => { tseq := m.tseq })).sendOffer p else s
    let s := s.modExch p (fun e => { e with offer := some m, requestSent := none })
    if q.st = .seek then s.seekTest p else s.sendAccept p (s.trainMsg p 0 0) m

/-- OFFER. -/
def execOffer (port : Nat) (msg : TrainMsg) (s : State) : Res := .next (s.onOffer port msg)

/-- The message belongs to the exchange under way. -/
def Port.inExchange (q : Port) (m : TrainMsg) : Bool := (q.st == .train || q.st == .retrain) && m.tseq == q.exch.tseq

/-- ACCEPT (R370). -/
def State.onAccept (s : State) (p : Nat) (m : TrainMsg) : State :=
  if (s.portAt p).inExchange m then
    (s.modExch p (fun e => { e with accept := some m, requestSent := none })).compareAccepts p
  else s
def execAccept (port : Nat) (msg : TrainMsg) (s : State) : Res := .next (s.onAccept port msg)

/-- READY (R370). -/
def State.onReady (s : State) (p : Nat) (m : TrainMsg) : State :=
  if (s.portAt p).inExchange m then (s.modExch p (fun e => { e with readyGot := true })).readyTest p else s
def execReady (port : Nat) (msg : TrainMsg) (s : State) : Res := .next (s.onReady port msg)

/-- RETRAIN_REQ (R369, R371, R373): served after a restripe; it crosses this end's own where no reply to that has
arrived; behind another exchange it waits. -/
def State.onRetrainReq (s : State) (p : Nat) (m : TrainMsg) : State :=
  let q := s.portAt p
  let later := s.modPort p (fun q => { q with laterRetrain := q.laterRetrain ++ [m] })
  if q.up then
    if q.txRestripe.isSome || q.rxRestripe.isSome then later
    else s.serveRequest p m
  else if q.st = .retrain then
    match q.exch.requestSent with
    | some own =>
      let n := if tseqAhead m.tseq own.tseq then m.tseq else own.tseq
      (s.modExch p (fun e => { e with tseq := n, requestSent := none })).sendAccept p own m
    | none => later
  else s

/-- RETRAIN_REQ. -/
def execRetrainReq (port : Nat) (msg : TrainMsg) (s : State) : Res := .next (s.onRetrainReq port msg)

/-- 100 µs without READY (R369): the lanes left of a failing exchange are not stated, a free value. -/
def execTrainTimeout (port : Nat) (s : State) : Res :=
  let q := s.portAt port
  let left := s.pick 17
  if s.pkg.up < q.since + 100000 then .next s
  else match q.st with
    | .train =>
      if 16 ≤ q.attempts + 1 then .next (left.2.portFail port left.1)
      else
        let s := s.modPort port (fun q => { q with st := .seek, attempts := q.attempts + 1, exch := { tseq := q.exch.tseq } })
        .next (s.sendOffer port)
    | .retrain => .next (left.2.portFail port left.1)
    | _ => .next s

/-! Commands. -/

/-- The command complex takes a port command: only from the host window (spec/19_host.md R385). -/
def State.portCommand (s : State) (via : Via) (p : Nat) : Bool := via == .host && decide (p < 80) && s.pkg.st != .reset

/-- ENABLE: a DARK port lights its lasers and seeks (R369). -/
def State.enablePort (s : State) (p : Nat) (trate : BitVec 2) : State :=
  if (s.portAt p).st = .dark then
    let lit := fun (q : Port) => (List.range 16).foldl (fun t i => t.set {} i { (t.get {} i) with lit := !s.retired p i }) q.lanes
    let s := s.modPort p (fun q => { q with st := .seek, rate := 2, trate := rateOf trate, enabled := true, lanes := lit q })
    s.sendOffer p
  else s

/-- `PCTL` ENABLE. -/
def execPctlEnable (via : Via) (port : Nat) (trate : BitVec 2) (s : State) : Res :=
  if s.portCommand via port then .next (s.enablePort port trate) else .next s

/-- DISABLE: DARK from any state but BYPASSED (R369). -/
def State.disablePort (s : State) (p : Nat) : State :=
  if (s.portAt p).st = .bypassed then s else (s.modPort p (fun q => { q with attempts := 0 })).portDown p .dark

/-- `PCTL` DISABLE. -/
def execPctlDisable (via : Via) (port : Nat) (s : State) : Res :=
  if s.portCommand via port then .next (s.disablePort port) else .next s

/-- RETRAIN: from ACTIVE or DEGRADED (R369). -/
def State.retrainPort (s : State) (p : Nat) (trate : BitVec 2) : State :=
  if (s.portAt p).up then (s.modPort p (fun q => { q with trate := rateOf trate })).askRetrain p else s

/-- `PCTL` RETRAIN. -/
def execPctlRetrain (via : Via) (port : Nat) (trate : BitVec 2) (s : State) : Res :=
  if s.portCommand via port then .next (s.retrainPort port trate) else .next s

/-- The switches of a port move; they hold their position without power and over RESET (R374). -/
def State.setSwitch (s : State) (p : Nat) (released : Bool) : State := { s with switches := s.switches.set false p released }

/-- BYPASS: the switches are released (R369, R374). -/
def State.bypassPort (s : State) (p : Nat) : State :=
  if (s.portAt p).st = .bypassed then s
  else (((s.modPort p (fun q => { q with cause := 0x15 })).event 0x15 p 0xFF 0 0).portDown p .bypassed).setSwitch p true

/-- `PCTL` BYPASS. -/
def execPctlBypass (via : Via) (port : Nat) (s : State) : Res :=
  if s.portCommand via port then .next (s.bypassPort port) else .next s

/-- UNBYPASS: the switches are set to the package (R369, R374). -/
def State.unbypassPort (s : State) (p : Nat) : State :=
  if (s.portAt p).st = .bypassed then (s.modPort p (fun q => { q with st := .dark })).setSwitch p false else s

/-- `PCTL` UNBYPASS. -/
def execPctlUnbypass (via : Via) (port : Nat) (s : State) : Res :=
  if s.portCommand via port then .next (s.unbypassPort port) else .next s

/-! Loss of light (R372, R373). -/

/-- The LANE of a record: the lane where there is one, else 0xFF (R408). -/
def laneField (m : BitVec 16) : Nat := match lanesOf m with | [i] => i | _ => 0xFF

/-- The usable lanes of a direction, after a restripe under way. -/
def usableNow (r : Option Restripe) (lanes : BitVec 16) : BitVec 16 := match r with | some x => x.lanes | none => lanes

/-- A direction of a port that is up loses lanes: the record, and FAILED below four (R369, R372); the flag tells that
it goes on with the lanes given. -/
def State.laneLoss (s : State) (p : Nat) (lost left : BitVec 16) (rx : Bool) : Bool × State :=
  let s := (s.modPort p (fun q => { q with cause := 0x10 })).event 0x10 p (laneField lost) (lost.toNat + rx.toNat * 65536) (laneCount left)
  if laneCount left < 4 then (false, s.portFail p (laneCount left)) else (true, s.modPort p (fun q => { q with st := .degraded }))

/-- Transmit lanes are lost: new flits stop and the marker names the new set. A loss of which the peer's notice has told
already is the same loss (R373). -/
def State.loseTx (s : State) (p : Nat) (lost : BitVec 16) : State :=
  let q := s.portAt p
  if q.up then
    let left := usableNow q.txRestripe q.txLanes &&& ~~~ lost
    if left = usableNow q.txRestripe q.txLanes then s else
    let r := s.laneLoss p lost left false
    if r.1 then
      let s := r.2.modPort p (fun q => { q with txRestripe := some { lanes := left } })
      s.sendTrain p 5 (s.trainMsg p (activeLanes left) 0)
    else r.2
  else if q.st = .train ∨ q.st = .retrain then s.restart p
  else s

/-- Receive lanes are lost: RESTRIPE names them by its `RXSET`. A loss of which the peer's marker has told already is the same
loss (R373). -/
def State.loseRx (s : State) (p : Nat) (lost : BitVec 16) : State :=
  let q := s.portAt p
  if q.up then
    let left := usableNow q.rxRestripe q.rxLanes &&& ~~~ lost
    if left = usableNow q.rxRestripe q.rxLanes then s else
    let r := s.laneLoss p lost left true
    if r.1 then
      let s := r.2.modPort p (fun q => { q with rxRestripe := some { lanes := left } })
      s.sendTrain p 5 (s.trainMsg p 0 0)
    else r.2
  else if q.st = .train ∨ q.st = .retrain then s.restart p
  else s

/-- A receiver sees no light for 64 ns (R372); in RESET the ports are held in reset. -/
def execLossOfLight (port : Nat) (lanes : BitVec 16) (s : State) : Res :=
  let lost := laneMask (fun i => lanes.getLsbD i && !((s.portAt port).lane i).rxlos)
  if lost = 0 ∨ s.pkg.st = .reset then .next s
  else
    let s := (lanesOf lost).foldl (fun s i => s.modLane port i (fun l => { l with rxlos := true, locked := false })) s
    .next (s.loseRx port lost)

/-- The marker of the peer's direction: this end switches, replies and records it (R372 step 3). A marker whose set has a lane
that this end has lost since is not answered: the peer hears of that loss and sends another (log entry 37). -/
def State.onMarker (s : State) (p : Nat) (m : TrainMsg) : State :=
  let q := s.portAt p
  let left := usableNow q.rxRestripe q.rxLanes &&& m.txset
  let set := s.useRx p m
  if laneCount left < 4 then s.portFail p (laneCount left)
  else if set &&& ~~~ left ≠ 0 then s
  else
    let w := widthOf (laneCount left)
    let s := s.setPort p { q with rxLanes := left, rxw := w, rxRestripe := none, st := .degraded }
    ((s.sendTrain p 5 (s.trainMsg p 0 set)).event 0x11 p 0xFF (set.toNat + w * 65536 + 2 ^ 24) q.rxSeq).serveLater p

/-- The reply to this end's marker: it switches, records it and replays (R372 step 3). -/
def State.onReply (s : State) (p : Nat) (m : TrainMsg) : State :=
  let q := s.portAt p
  match q.txRestripe with
  | none => s
  | some r =>
    let set := activeLanes r.lanes
    if s.useTx p m ≠ set then s
    else
      let w := widthOf (laneCount r.lanes)
      let first := (q.txSeq + 4096 - q.replay.length) % 4096
      let s := s.setPort p { q with txLanes := r.lanes, w := w, txRestripe := none, st := .degraded }
      let s := s.event 0x11 p 0xFF (set.toNat + w * 65536) (q.replay.length * 65536 + first)
      ((s.replayAll p).pump p).serveLater p

/-- The peer's receiver has lost lanes of this end's transmit direction. -/
def State.onLossNotice (s : State) (p : Nat) (m : TrainMsg) : State :=
  let q := s.portAt p
  let lost := usableNow q.txRestripe q.txLanes &&& ~~~ m.rxset
  if lost = 0 then s else s.loseTx p lost

/-- RESTRIPE: a marker names a set for this end's receive direction, a reply one for its transmit direction, and a
notice none (R372; log entry 37). -/
def State.onRestripe (s : State) (p : Nat) (m : TrainMsg) : State :=
  if (s.portAt p).up then
    if s.useRx p m ≠ 0 then s.onMarker p m
    else if s.useTx p m ≠ 0 then s.onReply p m
    else s.onLossNotice p m
  else s
def execRestripe (port : Nat) (msg : TrainMsg) (s : State) : Res := .next (s.onRestripe port msg)

/-- A TRAIN flit arrives (R370); one with a reserved number or a nonzero reserved field is discarded (R364). -/
def State.onTrain (s : State) (p : Nat) (payload : List Byte) : State :=
  match trainOf payload with
  | some (1, m) => s.onOffer p m
  | some (2, m) => s.onAccept p m
  | some (3, m) => s.onReady p m
  | some (4, m) => s.onRetrainReq p m
  | some (5, m) => s.onRestripe p m
  | _ => s

/-- A receive lane detects light and gains codeword lock (R361, R369); in RESET the ports are held in reset
(spec/01_package.md R19), and released switches let no light in (R374). -/
def execCodewordLockGained (port lane : Nat) (s : State) : Res :=
  if lane < 16 ∧ s.switches.get false port = false ∧ s.pkg.st ≠ .reset then
    .next ((s.modLane port lane (fun l => { l with rxlos := false, locked := true })).seekTest port)
  else .next s

/-! Received flits (R364, R366, R367). -/

/-- A field of the fixed part. -/
def Incoming.word (m : Incoming) (i : Nat) : Word := BitVec.ofNat 64 (natLE ((m.bytes.drop (8 * i)).take 8))

/-- Poisoned 64-byte lines of the data: those that a poisoned payload line overlaps (log entry 38). -/
def Incoming.lines (m : Incoming) : List Nat := (m.poison.flatMap (fun l => if l = 0 then [0] else [l - 1, l])).eraseDups

/-- A message whose last flit has arrived is delivered (R367). PTP messages reach the package as PTP_MESSAGE; the
world of a PUT stands in no field of it, a free value. -/
def State.deliver (s : State) (p : Nat) (m : Incoming) : State :=
  let w1 := m.word 1
  let off := (m.word 2).toNat
  let arg := m.word 3
  let data := (m.bytes.drop 32).take (bitsOf w1 0 16 + 1)
  match m.opc.toNat with
  | 0x81 => s.onSession (m.word 0) (fun t => t == m.tag)
  | 0x82 => s.onReadData m.tag (arg.extractLsb' 56 8) (bitsOf arg 0 56) data m.lines
  | 0x83 => s.onWriteAck m.tag (arg.extractLsb' 0 8)
  | 0x84 => s.onAtomicResult m.tag (w1.extractLsb' 8 8) arg
  | 0x85 => s.onRenew m.tag (arg.extractLsb' 56 8) (bitsOf arg 0 56)
  | 0x86 => s.onRevoke (w1.extractLsb' 16 48) (off / 65536) m.tag p
  | 0x07 =>
    let r := s.pick 256
    r.2.onPut p (m.word 0) m.tag off (BitVec.ofNat 8 r.1) data none
  | 0x08 =>
    let r := s.pick 256
    r.2.onPut p (m.word 0) m.tag off (BitVec.ofNat 8 r.1) data (some (bitsOf arg 0 48, arg.extractLsb' 48 16))
  | 0x87 => s.onPutAck m.tag (arg.extractLsb' 0 8)
  | 0x0F => s
  | n => s.event 0x1A p 0xFF n 0

/-- An accepted flit joins its message. -/
def State.assemble (s : State) (p : Nat) (h : FlitHead) (payload : List Byte) : State :=
  let m? : Option Incoming := if h.first then some { opc := h.opc, tag := h.tag } else (s.portAt p).incoming
  match m? with
  | none => s
  | some m =>
    let base := m.bytes.length / 64
    let marks := (List.range 4).filter (fun k => h.pmask.getLsbD k)
    let m : Incoming := { m with bytes := m.bytes ++ payload, poison := m.poison ++ marks.map (fun k => base + k) }
    if h.last then (s.modPort p (fun q => { q with incoming := none })).deliver p m
    else s.modPort p (fun q => { q with incoming := some m })

/-- A failed or out-of-order DATA flit: one NAK, none again for the same `SEQ` within 2 µs (R366); more than 16 within
10 µs retrain the port at the next lower rate (R369). -/
def State.refuseFlit (s : State) (p : Nat) : State :=
  let q := s.portAt p
  let again := match q.lastNak with | some (n, t) => n == q.rxSeq && decide (s.pkg.up < t + 2000) | none => false
  if again || s.pkg.st == .failed then s
  else
    let times := s.pkg.up :: q.nakTimes.filter (fun t => decide (s.pkg.up ≤ t + 10000))
    let s := (s.setPort p { q with lastNak := some (q.rxSeq, s.pkg.up), nakTimes := times }).sendAck p 3
    if 16 < times.length then
      (s.modPort p (fun q => { q with nakTimes := [], trate := if q.rate.toNat < 2 then q.rate + 1 else q.trate })).askRetrain p
    else s

/-- A DATA flit in order: accepted, acknowledged after every 32nd, and handed to its message (R366). -/
def State.takeFlit (s : State) (p : Nat) (h : FlitHead) (payload : List Byte) : State :=
  let q := s.portAt p
  let s := s.setPort p { q with rxSeq := (q.rxSeq + 1) % 4096, unacked := q.unacked + 1, credit := q.credit + 1, lastNak := none }
  let s := if (q.rxSeq + 1) % 32 = 0 && s.pkg.st != .failed then s.sendAck p 0 else s
  s.assemble p h payload

/-- Use the acknowledgement of a flit, where it has one: waiting flits go out in the room that it makes. -/
def State.useAck (s : State) (p : Nat) (a : Option Nat) : State := match a with | some n => ((s.acked p n).2).pump p | none => s

/-- The payload of a TRAIN flit. -/
def trainPayload (bytes : List Byte) : Option (List Byte) :=
  match receiveFlit bytes with
  | .good h payload => if h.kind = 2 then some payload else none
  | _ => none

/-- A DATA flit arrives (R364, R366); a duplicate is discarded. A TRAIN flit, which moves in other states too, is heard as the
row of its message (R370). -/
def execDataFlit (port : Nat) (bytes : List Byte) (s : State) : Res :=
  match trainPayload bytes with
  | some payload => .next (s.onTrain port payload)
  | none =>
  if !(s.portAt port).up then .next s
  else match receiveFlit bytes with
    | .nothing => .next s
    | .bad a => .next ((s.useAck port a).refuseFlit port)
    | .good h payload =>
      if h.kind ≠ 1 then .next s
      else
        let s := s.useAck port (if h.ackv then some h.ackseq else none)
        let expected := (s.portAt port).rxSeq
        if h.seq = expected then .next (s.takeFlit port h payload)
        else if (expected + 4096 - h.seq) % 4096 ≤ 512 then .next s
        else .next (s.refuseFlit port)

/-- An IDLE flit arrives: its acknowledgement is used (R366). -/
def execIdleFlit (port : Nat) (bytes : List Byte) (s : State) : Res :=
  if !(s.portAt port).up then .next s
  else match receiveFlit bytes with
    | .nothing => .next s
    | .bad a => .next (s.useAck port a)
    | .good h _ => if h.kind = 0 && h.ackv then .next (s.useAck port (some h.ackseq)) else .next s

/-- A NAK arrives: the advance is applied, then everything from `ACKSEQ` on is resent, then what waits goes out (R366, R373); a
direction that restripes replays when it resumes. -/
def execNak (port : Nat) (bytes : List Byte) (s : State) : Res :=
  if !(s.portAt port).up then .next s
  else match receiveFlit bytes with
    | .nothing => .next s
    | .bad a => .next (s.useAck port a)
    | .good h _ =>
      if h.kind = 3 && h.ackv then
        let r := s.acked port h.ackseq
        if r.1 && (r.2.portAt port).txRestripe.isNone then .next ((r.2.replayAll port).pump port) else .next r.2
      else .next s

/-- Accepted flits are acknowledged at least every 1 µs, and a sender with 512 flits unacknowledged goes on with IDLE flits
(R366). -/
def execAckTimer (port : Nat) (s : State) : Res :=
  let q := s.portAt port
  if q.up && (decide (0 < q.unacked) || decide (512 ≤ q.replay.length)) && s.pkg.st != .failed then .next (s.sendAck port 0) else .next s

/-- 2 µs without progress: the sender resends (R366). -/
def execReplayTimeout (port : Nat) (s : State) : Res :=
  let q := s.portAt port
  if q.up && !q.replay.isEmpty && q.txRestripe.isNone && decide (q.lastProgress + 2000 ≤ s.pkg.up) then .next (s.replayAll port)
  else .next s

/-! Lasers (R363). -/

/-- Sums over samples, oldest at x = 0: n, Σx, Σy, Σxy, Σx². -/
def fitSums : List Nat → Nat → Int × Int × Int × Int × Int
  | [], _ => (0, 0, 0, 0, 0)
  | y :: ys, x =>
    let r := fitSums ys (x + 1)
    (r.1 + 1, r.2.1 + (x : Int), r.2.2.1 + (y : Int), r.2.2.2.1 + (x : Int) * (y : Int), r.2.2.2.2 + (x : Int) * (x : Int))

/-- Hours until the straight line fitted by least squares to hourly samples, newest first, reaches `limit`: a fraction
as numerator and positive denominator; none with fewer than 16 samples or where the line does not move that way
(PRESUMED, log entry 39: least squares). -/
def fitLine (samples : List Nat) (limit : Nat) (rising : Bool) : Option (Int × Int) :=
  let r := fitSums samples.reverse 0
  let n := r.1
  let sx := r.2.1
  let sy := r.2.2.1
  let d := n * r.2.2.2.2 - sx * sx
  let b := n * r.2.2.2.1 - sx * sy
  if samples.length < 16 ∨ (rising ∧ b ≤ 0) ∨ (¬ rising ∧ 0 ≤ b) then none
  else
    let num := ((limit : Int) * n - sy) * d - ((n - 1) * n - sx) * b
    let den := n * b
    some (if den < 0 then (-num, -den) else (num, den))

/-- `EOLH` from samples (R363, spec/19_host.md R396): whole hours; which way a fraction is rounded is open. -/
def State.fitHours (s : State) (samples : List Nat) (limit : Nat) (rising : Bool) : BitVec 32 × State :=
  match fitLine samples limit rising with
  | none => (0xFFFFFFFF, s)
  | some (num, den) =>
    if num ≤ 0 then (0, s)
    else
      let r := if num % den = 0 then ((0, s) : Nat × State) else s.pick 2
      let h := (num / den).toNat + r.1
      (if 2 ^ 32 ≤ h then 0xFFFFFFFF else BitVec.ofNat 32 h, r.2)

/-- `AGE` of a laser is written to the flash (R363). -/
def State.saveAge (s : State) (p i : Nat) : State :=
  if s.flashAnswers then
    (s.writeFlash (fun f => { f with age := f.age.set 0 (p * 16 + i) (s.laserAge p i) })).modLane p i (fun l => { l with fresh := 0 })
  else s

/-- A laser's `RET` changes in the flash, with its `AGE`. -/
def State.setRet (s : State) (p i : Nat) (v : Bool) : State :=
  (s.saveAge p i).writeFlash (fun f => { f with ret := f.ret.set false (p * 16 + i) v })

/-- Lit lasers are retired: their records in lane order, then the loss of their lanes (R363, R408). -/
def State.retireLasers (s : State) (p : Nat) (lanes : BitVec 16) : State :=
  let lost := laneMask (fun i => lanes.getLsbD i && ((s.portAt p).lane i).lit && !s.retired p i)
  if lost = 0 then s
  else
    let s := (lanesOf lost).foldl (fun s i =>
      ((s.setRet p i true).modLane p i (fun l => { l with lit := false })).event 0x16 p i (s.laserAge p i).toNat ((s.portAt p).lane i).bias.toNat) s
    s.loseTx p lost

/-- A monitor photodiode sees no light at the commanded bias, or the bias reaches `BMAX` (R363). -/
def execLaserRetire (port : Nat) (lanes : BitVec 16) (s : State) : Res := .next (s.retireLasers port lanes)

/-- The hourly sample of a lit laser's bias (R363). -/
def execLaserBiasSample (port lane : Nat) (bias : BitVec 16) (s : State) : Res :=
  let q := s.portAt port
  let l := q.lane lane
  if !l.lit || decide (16 ≤ lane) then .next s
  else
    let samples := (bias.toNat :: l.samples).take 256
    let r := s.fitHours samples q.bmax.toNat true
    let eol := decide (r.1.toNat < 720) && !l.warned
    let s := r.2.modLane port lane (fun l => { l with bias := bias, samples := samples, eolh := r.1, warned := l.warned || eol })
    let s := if eol then s.event 0x17 port lane r.1.toNat bias.toNat else s
    .next (if q.bmax.toNat ≤ bias.toNat then s.retireLasers port (1#16 <<< lane) else s)

/-- The host writes 0 to a laser's `RET` while the port is BYPASSED or DARK (R363). -/
def State.clearRet (s : State) (p i : Nat) : State :=
  let st := (s.portAt p).st
  if (st = .bypassed ∨ st = .dark) ∧ i < 16 ∧ s.retired p i then s.setRet p i false else s

/-- `LANE`i word 0 written with `RET` 0. -/
def execLaserRetClear (via : Via) (port lane : Nat) (s : State) : Res :=
  if s.portCommand via port then .next (s.clearRet port lane) else .next s

/-- A minute of lasing; the flash takes `AGE` every 60 (R363). -/
def execLasingMinute (port lane : Nat) (s : State) : Res :=
  if ((s.portAt port).lane lane).lit then
    let s := s.modLane port lane (fun l => { l with fresh := l.fresh + 1 })
    .next (if 60 ≤ ((s.portAt port).lane lane).fresh then s.saveAge port lane else s)
  else .next s

end Sys2Proof.Machine
end

