-- ==== Sys2Proof/Machine/Health.lean ====
section
/-! DEFINITION. Attestation, the flash, the host attachment, the repair of the configuration, scrub and the health
monitors (spec/19_host.md R383, R391 to R396; spec/09_page.md R201). -/

namespace Sys2Proof.Machine

/-! Attestation (R394). -/

/-- The contexts whose measurement a window may ask for: the host's those of world 0, a guest's those of its world. -/
def State.mayAttest (s : State) (via : Via) (v : Word) : Bool :=
  let w := (s.ctxAt (bitsOf v 0 12)).world
  v.getLsbD 12 || (match via with | .host => w == 0 | .guest g => g != 0 && w == g)

/-- A write of `ATCTL`: ignored while busy, exhausted at the last leaf, refused for another's context; else the next
leaf number is written to the flash first. A flash that does not authenticate takes no leaf number, and the request is refused
(log entry 67). -/
def State.writeAtctl (s : State) (via : Via) (v : Word) : State :=
  let a := s.attest
  if a.st = 1 ∨ s.pkg.st = .reset then s
  else if 2 ^ 20 ≤ s.flash.leaf then { s with attest := { a with st := 4 } }
  else if !s.mayAttest via v || !s.flashAnswers then { s with attest := { a with st := 3 } }
  else { s.writeFlash (fun f => { f with leaf := f.leaf + 1 }) with
         attest := { a with st := 1, req := v, via := via, leaf := s.flash.leaf } }

/-- `ATCTL`. -/
def execAtctlWrite (via : Via) (v : BitVec 64) (s : State) : Res := .next (s.writeAtctl via v)

/-- The report body: each part as a little-endian number, the short ones in 8 bytes (log entry 40). -/
def State.reportBody (s : State) : List Byte :=
  let a := s.attest
  let n := bitsOf a.req 0 12
  let c := s.ctxAt n
  let own := !a.req.getLsbD 12
  let parts := if own then (n, c.world.toNat, c.cgen.toNat, c.cmeas.toNat) else (0, 0, 0, 0)
  (bytesLE 8 s.pkg.pid.toNat ++ bytesLE 8 s.flash.cfgGen.toNat ++ bytesLE 64 s.pkg.bmeas.toNat ++ bytesLE 64 s.pkg.rmeas.toNat) ++
  (bytesLE 32 a.nonce.toNat ++ bytesLE 8 parts.1 ++ bytesLE 8 parts.2.1 ++ bytesLE 8 parts.2.2.1 ++ bytesLE 64 parts.2.2.2)

/-- The report is signed with its leaf and written: body, signature, certificate. -/
def execAttestationDone (s : State) : Res :=
  if s.attest.st = 1 ∧ s.pkg.st ≠ .reset then
    let body := s.reportBody
    let sig := Config.xmssSign s.pkg.seed s.attest.leaf body
    let s := s.hostWrite (bitsOf s.attest.req 16 48 * 65536) (body ++ sig ++ s.flash.certificate)
    .next { s with attest := { s.attest with st := 2 } }
  else .next s

/-! The flash (R392). -/

/-- An update through the recovery core's mailbox: verified, written only in QUIESCED; `CFG_GEN` is 0 and the floor is
the new version. -/
def execFlashUpdate (recovery : Bool) (image : Image) (s : State) : Res :=
  let floor := if recovery then s.flash.recoveryFloor else s.flash.bitstreamFloor
  if s.pkg.st ≠ .quiesced || !imageGood image floor then .next s
  else .next (s.writeFlash (fun f =>
    if recovery then { f with cfgGen := 0, recovery := image, recoveryFloor := image.version }
    else { f with cfgGen := 0, bitstream := image, bitstreamFloor := image.version }))

/-! The host attachment (R383). -/

/-- A die's UCIe module goes down: an event, and the package fails when all four are (R24). -/
def execUcieDown (die : Nat) (s : State) : Res :=
  if s.pkg.ucieDown.getLsbD die || decide (4 ≤ die) then .next s
  else
    let s := { s with pkg := { s.pkg with ucieDown := s.pkg.ucieDown ||| (1#4 <<< die) } }
    let s := s.event 0x25 0xFF 0xFF die 0
    .next (if s.pkg.ucieDown = 0xF then s.pkgFail 0x11 else s)

/-- It comes back. -/
def execUcieUp (die : Nat) (s : State) : Res :=
  if s.pkg.ucieDown.getLsbD die then
    .next (({ s with pkg := { s.pkg with ucieDown := s.pkg.ucieDown &&& ~~~ (1#4 <<< die) } } : State).event 0x26 0xFF 0xFF die 0)
  else .next s

/-! The configuration memory (R391). -/

/-- A mismatched frame: rewritten with an event, or the package fails at its third failure within 1 s. -/
def State.repairFrame (s : State) (f : Nat) : State :=
  if s.pkg.st = .failed then s
  else
    let recent := fun (l : List Nat) => l.filter (fun t => decide (s.pkg.up ≤ t + 1000000000))
    let fails := s.pkg.up :: recent (s.pkg.frameFails.get [] f)
    let repairs := s.pkg.up :: recent s.pkg.repairs
    let s := { s with pkg := { s.pkg with frameFails := s.pkg.frameFails.put f fails } }
    if 3 ≤ fails.length then s.pkgFail 0x12
    else ({ s with pkg := { s.pkg with repairs := repairs } } : State).event 0x24 0xFF 0xFF f repairs.length

/-- A pass over the configuration memory: the frames that mismatch, and whether the verified copy passes its check. -/
def execConfigReadbackPass (bad : List Nat) (copyGood : Bool) (s : State) : Res :=
  let on := s.pkg.st == .train || s.pkg.st == .serving || s.pkg.st == .draining || s.pkg.st == .quiesced
  if !on then .next s
  else if !copyGood then .next (s.pkgFail 0x12)
  else .next (bad.foldl (fun s f => s.repairFrame f) s)

/-! Scrub and the health monitors (R201, R396). -/

/-- Scrub of a line of HBM: a correctable error is corrected and counted; one that is not is found (spec/09_page.md
R197). -/
def execHbmScrub (stack line : Nat) (correctable : Bool) (s : State) : Res :=
  if correctable then .next { s with scrubCount := s.scrubCount.set 0 stack (s.scrubCount.get 0 stack + 1) }
  else if line * 64 < Config.hbmBytes then
    .next { s with hbm := ({ s.hbm with latent := s.hbm.latent.set false line true } : Mem).detect line }
  else .next s

/-- A monitor's new value with its prediction; the flag tells that `EOLH` is first below 720. -/
def Health.add (h : Health) (v : Nat) (eolh : BitVec 32) : Bool × Health :=
  let eol := decide (eolh.toNat < 720) && !h.warned
  (eol, { value := v, eolh := eolh, samples := (v :: h.samples).take 256, warned := h.warned || eol })

/-- A stack's hour ends: the count is what its scrub steps have counted and what the row adds to them. -/
def execHbmHourlyCount (stack count : Nat) (s : State) : Res :=
  let h := s.hbmHealth.get {} stack
  let v := s.scrubCount.get 0 stack + count
  let r := s.fitHours ((v :: h.samples).take 256) 1000000 true
  let n := h.add v r.1
  let s := { r.2 with hbmHealth := r.2.hbmHealth.set {} stack n.2, scrubCount := r.2.scrubCount.set 0 stack 0 }
  let s := if 100000 < v then s.event 0x20 0xFF 0xFF stack v else s
  .next (if n.1 then s.event 0x21 0xFF 0xFF stack r.1.toNat else s)

/-- A die's guard-band margin, in ps. -/
def execVgHourlyMeasure (die margin : Nat) (s : State) : Res :=
  let h := s.vgHealth.get {} die
  let r := s.fitHours ((margin :: h.samples).take 256) 0 false
  let n := h.add margin r.1
  let drift := (h.samples.take 24).any (fun m => decide (margin + 5 ≤ m))
  let s := { r.2 with vgHealth := r.2.vgHealth.set {} die n.2 }
  let s := if drift then s.event 0x22 0xFF 0xFF die margin else s
  .next (if n.1 then s.event 0x23 0xFF 0xFF die r.1.toNat else s)

end Sys2Proof.Machine
end

