-- ==== Sys2Proof/Machine/Host.lean ====
section
/-! DEFINITION. The register windows of the host and of the guests: what every 64-bit write does and what every read
gives (spec/19_host.md R384 to R386 and the window tables of the other chapters). -/

namespace Sys2Proof.Machine

/-- The completion ring of a window: 0 the host's, w world w's (R385, R387). -/
def ringOf : Sys2Proof.Via → Nat
  | .host => 0
  | .guest w => w.toNat

/-- Replace word `j` of a wide register. -/
def setPart {n : Nat} (v : BitVec n) (j : Nat) (w : Word) : BitVec n :=
  (v &&& ~~~ ((0xFFFFFFFFFFFFFFFF#64).setWidth n <<< (64 * j))) ||| (w.setWidth n <<< (64 * j))

/-! Writes. -/

/-- The package's own registers. -/
def State.writePackage (s : State) (via : Via) (off : Nat) (v : Word) : State :=
  let host := via == .host
  match off with
  | 0x08 =>
    if !host then s
    else match bitsOf v 0 2 with
      | 1 => s.drain (v.extractLsb' 32 32)
      | 2 => s.resume
      | 3 => s.pkgReset
      | _ => s
  | 0x10 => if host then s.setCap v else s
  | 0x20 => if host then { s with pkg := { s.pkg with jbase := v &&& 0xFFFFFFFFFFFFF000 } } else s
  | 0x30 => if host then { s with pkg := { s.pkg with ebase := v &&& 0xFFFFFFFFFFFF0000, ereach := true } } else s
  | 0x40 =>
    let c := s.completions.get {} (ringOf via)
    { s with completions := s.completions.set {} (ringOf via) { c with base := v &&& 0xFFFFFFFFFFFFC000 } }
  | 0x68 => s.writeAtctl via v
  | _ =>
    if 0x80 ≤ off ∧ off < 0xA0 then { s with attest := { s.attest with nonce := setPart s.attest.nonce ((off - 0x80) / 8) v } }
    else s

/-- A queue window (spec/15_queue.md R299). -/
def State.writeQueue (s : State) (via : Via) (q off : Nat) (v : Word) : State :=
  let x := s.queueAt q
  if off < 0x80 then (if x.feeds via then s.qlaunch q off (wordBytes v) else s)
  else if off = 0x80 then (if x.feeds via then s.qtail q v else s)
  else if !x.owns via then s
  else if off = 0x90 then
    match bitsOf v 0 4 with
    | 1 => s.enableQueue q
    | 2 => s.stopQueue q
    | 3 => s.disableQueue q
    | 4 => s.resyncQueue q
    | 5 => s.rekeyQueue q
    | _ => s
  else if off = 0x98 then s.modQueue q (fun x => { x with qseq := v })
  else if 0xA0 ≤ off ∧ off < 0xC0 then s.writeQdesc q ((off - 0xA0) / 8) v
  else s

/-- The fields of a descriptor word of a context that are not reserved (spec/16_context.md R321). -/
def cdescMask (i : Nat) : Word :=
  match i with
  | 0 => 0x0000FFFFFFFFF001
  | 1 => 0x0000FFFFFFFFF000
  | 2 => 0x0000FFFFFFFFFFFF
  | 3 => 0xFFFFFFFFFFFFFFFF
  | 4 => 0x0000FFFFFFFFFFFF
  | 5 => 0x0000FFFFFFFFFFFF
  | 6 => 0xFFFFFFFFFFFFFFFF
  | 7 => 0xFFFFFFFFFFFFFFFF
  | 8 => 0xFFFFFFFFF0000000
  | 9 => 0xFFFFFFFFC0000000
  | 10 => 0x000000000000FFFF
  | 11 => 0x0000FFFFFFFFFFFF
  | _ => 0

/-- A descriptor word of a context: H words by the host while NONE or RETIRED, G words by the party that drives the
context, words 0 to 2 until it is LOADED (spec/16_context.md R322, R325). -/
def State.writeCdesc (s : State) (via : Via) (n i : Nat) (v : Word) : State :=
  let c := s.ctxAt n
  let h := decide (6 ≤ i ∧ i ≤ 10)
  let early := c.st == .none || c.st == .retired
  let ok := if h then via == .host && early
    else c.drives via && (decide (3 ≤ i) || early || c.st == .created)
  if ok then
    let keep := if i = 0 then c.word 0 &&& 0xFF00000000000000 else 0
    s.modCtx n (fun c => { c with desc := c.desc.set 0 i (keep ||| (v &&& cdescMask i)) })
  else s

/-- The world's key in the parts that word writes bring; the last part installs it (log entry 29). -/
def State.writeKeyw (s : State) (n j : Nat) (v : Word) : State :=
  let c := s.ctxAt n
  if c.world = 0 then s
  else
    let key := setPart c.keyw j v
    let s := s.modCtx n (fun c => { c with keyw := key })
    if j ≠ 3 then s
    else if (s.worldKeys.find? c.world.toNat).isSome then s.ctxError n 3
    else { s with worldKeys := s.worldKeys.put c.world.toNat key }

/-- A context window (spec/16_context.md R320, R323, R325). -/
def State.writeContext (s : State) (via : Via) (n off : Nat) (v : Word) : State :=
  let c := s.ctxAt n
  let drives := c.drives via
  if off < 0x80 then s.writeCdesc via n (off / 8) v
  else if off = 0x80 then
    match bitsOf v 0 4 with
    | 1 => s.command via n drives (fun s => s.createCtx n)
    | 2 => s.command via n drives (fun s => s.startLoad n)
    | 3 => s.command via n drives (fun s => s.startInval n)
    | 4 => s.command via n true (fun s => s.endCtx n)
    | 6 => s.command via n (via == .host) (fun s => s.bindCtx n (v.extractLsb' 56 8))
    | _ => s
  else if !drives then s
  else if off = 0x88 then s.modCtx n (fun c => { c with inv := v &&& 0xE000FFFFFFFFFFFF })
  else if off = 0x90 then s.modCtx n (fun c => { c with len := v })
  else if off = 0xB0 then s.respond n v
  else if 0x100 ≤ off ∧ off < 0x120 then s.writeKeyw n ((off - 0x100) / 8) v
  else if 0x120 ≤ off ∧ off < 0x140 then s.modCtx n (fun c => { c with keyq := setPart c.keyq ((off - 0x120) / 8) v })
  else if off = 0x140 then (if c.world = 0 then s else s.installKey n v)
  else s

/-- A debug window (spec/16_context.md R341). -/
def State.writeDebug (s : State) (via : Via) (c off : Nat) (v : Word) : State :=
  let set := fun (f : Debug → Debug) => s.modCore c (fun co => { co with dbg := f co.dbg })
  if !s.debugReach via c then s
  else if off = 0 then
    let k := bitsOf v 0 3
    let go := fun (f : State → State) => s.debugWrite via c (v.getLsbD 8) f
    match bitsOf v 4 2 with
    | 1 => go (fun s => s.haltStrand c k)
    | 2 => go (fun s => s.resumeStrand c k)
    | 3 => go (fun s => s.stepStrand c k)
    | _ => go id
  else if 0x10 ≤ off ∧ off < 0x30 then set (fun d => { d with ibp := d.ibp.set 0 ((off - 0x10) / 8) (v &&& 0x8FFFFFFFFFFFFFFC) })
  else if 0x30 ≤ off ∧ off < 0x50 then set (fun d => { d with wbp := d.wbp.set 0 ((off - 0x30) / 8) (v &&& 0xE00F00000007FFFF) })
  else if off = 0x50 then set (fun d => { d with dsel := v &&& 0x707 })
  else s.writeDstate c off v

/-- The port window's registers, as the host writes them (spec/18_link.md R362). -/
def State.writePortHost (s : State) (p off : Nat) (v : Word) : State :=
  if off = 0x08 then
    match bitsOf v 0 3 with
    | 1 => s.enablePort p (v.extractLsb' 4 2)
    | 2 => s.disablePort p
    | 3 => s.retrainPort p (v.extractLsb' 4 2)
    | 4 => s.bypassPort p
    | 5 => s.unbypassPort p
    | _ => s
  else if off = 0x10 then
    s.modPort p (fun q => { q with bmax := v.extractLsb' 16 16, pworld := v.extractLsb' 8 8, retry := v.extractLsb' 0 4 })
  else if 0x100 ≤ off ∧ off < 0x200 ∧ off % 16 = 0 ∧ v.getLsbD 63 = false then s.clearRet p ((off - 0x100) / 16)
  else s

/-- `PRXW` (R362): a pool-facing port has no window, its `RXLEN` is 0. -/
def State.writePrxw (s : State) (p : Nat) (v : Word) : State :=
  s.modPort p (fun q => { q with rxctx := v.extractLsb' 48 12, rxbase := v.extractLsb' 16 32, rxlen := if peerFacing p then v.extractLsb' 0 16 else 0 })

/-- A port window: the host writes all of it, a guest only `PRXW` of a port of its world, naming a context of it
(R385). -/
def State.writePort (s : State) (via : Via) (p off : Nat) (v : Word) : State :=
  match via with
  | .host => if s.pkg.st = .reset then s else if off = 0x18 then s.writePrxw p v else s.writePortHost p off v
  | .guest w =>
    if off = 0x18 && w != 0 && (s.portAt p).pworld == w && (s.ctxAt (bitsOf v 48 12)).world == w then s.writePrxw p v else s

/-- A 64-bit write at an offset of a window (R384, R385): every other offset ignores writes. -/
def State.writeRegister (s : State) (via : Via) (off : Nat) (v : Word) : State :=
  if off % 8 ≠ 0 then s
  else if off < 0x100000 then s.writePackage via off v
  else if off < 0x140000 then s.writeQueue via ((off - 0x100000) / 256) (off % 256) v
  else if 0x400000 ≤ off ∧ off < 0x600000 then s.writeContext via ((off - 0x400000) / 512) (off % 512) v
  else if 0x800000 ≤ off ∧ off < 0xA00000 then s.writeDebug via ((off - 0x800000) / 4096) (off % 4096) v
  else if 0xA00000 ≤ off ∧ off < 0xA14000 then s.writePort via ((off - 0xA00000) / 1024) (off % 1024) v
  else s

/-- REGISTER_WRITE. -/
def execRegisterWrite (via : Via) (off : Nat) (v : BitVec 64) (s : State) : Res := .next (s.writeRegister via off v)

/-! Reads. They change nothing (R386); reading `CTXREQ` is a step of its own. -/

/-- The codes of the state fields. -/
def PkgState.code : PkgState → Nat
  | .reset => 0 | .identify => 1 | .configure => 2 | .train => 3 | .serving => 4 | .draining => 5 | .quiesced => 6 | .failed => 7
def QState.code : QState → Nat
  | .disabled => 0 | .active => 1 | .stopped => 2 | .error => 3 | .halted => 4 | .rekey => 5
def CState.code : CState → Nat
  | .none => 0 | .created => 1 | .loaded => 2 | .runnable => 3 | .running => 4 | .preempted => 5 | .retired => 6 | .failed => 7

/-- The package's own registers (R384; spec/01_package.md R23). -/
def State.readPackage (s : State) (via : Via) (off : Nat) : Word :=
  let host := via == .host
  let health := fun (h : Health) => BitVec.ofNat 64 (h.eolh.toNat * 2 ^ 32 + h.value % 2 ^ 32)
  match off with
  | 0x00 => BitVec.ofNat 64 (s.flash.cfgGen.toNat * 2 ^ 48 + s.pkg.failCause.toNat * 256 + s.pkg.st.code)
  | 0x10 => if host then zx s.pkg.cap else 0
  | 0x20 => if host then s.pkg.jbase else 0
  | 0x28 => zx s.pkg.jhead
  | 0x30 => if host then s.pkg.ebase else 0
  | 0x38 => zx s.pkg.ehead
  | 0x40 => (s.completions.get {} (ringOf via)).base
  | 0x48 => zx (s.completions.get {} (ringOf via)).head
  | 0x50 => BitVec.ofNat 64 s.pkg.ns
  | 0x58 => BitVec.ofNat 64 (s.ptp.offset.toNat * 2 ^ 32 + s.ptp.stepped.toNat * 2 + s.ptp.lock.toNat)
  | 0x60 => s.pkg.pid
  | 0x70 => BitVec.ofNat 64 (s.flash.leaf % 2 ^ 32 * 2 ^ 32 + s.attest.st.toNat)
  | _ =>
    if 0x200 ≤ off ∧ off < 0x280 then health (s.hbmHealth.get {} ((off - 0x200) / 8))
    else if 0x280 ≤ off ∧ off < 0x2A0 then health (let h := s.vgHealth.get {} ((off - 0x280) / 8); { h with value := h.value % 2 ^ 16 })
    else 0

/-- A queue window. -/
def State.readQueue (s : State) (via : Via) (q off : Nat) : Word :=
  let x := s.queueAt q
  if !x.feeds via then 0
  else if off = 0x88 then BitVec.ofNat 64 (x.head.toNat * 2 ^ 32 + x.err.toNat * 256 + x.st.code)
  else if off = 0x98 then (if x.authenticated then x.expected else x.sseq)
  else if 0xA0 ≤ off ∧ off < 0xC0 then x.word ((off - 0xA0) / 8)
  else 0

/-- A context window: whole for the party that drives the context; the host sees words 6 to 10 and `CTXSTAT` of any
other (spec/16_context.md R320, R325). -/
def State.readContext (s : State) (via : Via) (n off : Nat) : Word :=
  let c := s.ctxAt n
  let stat := BitVec.ofNat 64 (c.cgen.toNat * 2 ^ 32 + c.fcause.toNat * 2 ^ 16 + c.err.toNat * 256 + c.st.code)
  if c.drives via then
    if off < 0x80 then c.word (off / 8)
    else if off = 0x98 then stat
    else if off = 0xA0 then (match c.shown with | some r => r.v | none => 0)
    else if off = 0xA8 then (match c.shown with | some r => BitVec.ofNat 64 (2 ^ 63 + r.tag.toNat) | none => 0)
    else 0
  else match via with
    | .host => if 0x30 ≤ off ∧ off < 0x58 then c.word (off / 8) else if off = 0x98 then stat else 0
    | .guest _ => 0

/-- A debug window. -/
def State.readDebug (s : State) (via : Via) (c off : Nat) : Word :=
  let co := s.coreAt c
  let d := co.dbg
  if !s.debugReach via c then 0
  else if off = 0x08 then
    let halted := (List.range 8).foldl (fun n k => if (co.strandAt k).life = .halted then n + 2 ^ k else n) 0
    let ctx := match co.group.bind (fun g => s.groups.find? g) with | some x => x.ctx | none => 0
    BitVec.ofNat 64 (ctx * 2 ^ 48 + d.byWatch.toNat * 2 ^ 24 + d.byBreak.toNat * 2 ^ 16 + halted)
  else if 0x10 ≤ off ∧ off < 0x30 then d.ibp.get 0 ((off - 0x10) / 8)
  else if 0x30 ≤ off ∧ off < 0x50 then d.wbp.get 0 ((off - 0x30) / 8)
  else if off = 0x50 then d.dsel
  else
    let i := (2048 * d.page + (off - 0x800)) / 8
    if off < 0x800 ∨ 5 < d.page ∨ 1520 ≤ i then 0 else (co.strandAt d.strand).recordWord i

/-- A port window. -/
def State.readPort (s : State) (via : Via) (p off : Nat) : Word :=
  let q := s.portAt p
  let seen := match via with | .host => true | .guest w => w != 0 && q.pworld == w
  if !seen then 0
  else if off = 0 then s.pstate p
  else if off = 0x10 then BitVec.ofNat 64 (q.bmax.toNat * 65536 + q.pworld.toNat * 256 + (peerFacing p).toNat * 16 + q.retry.toNat)
  else if off = 0x18 then BitVec.ofNat 64 (q.rxctx.toNat * 2 ^ 48 + q.rxbase.toNat * 65536 + q.rxlen.toNat)
  else if off = 0x20 then s.peolh p
  else if off = 0x30 then q.seq.status false
  else if 0x100 ≤ off ∧ off < 0x200 then
    let i := (off - 0x100) / 16
    let l := q.lane i
    if off % 16 = 0 then
      BitVec.ofNat 64 ((s.retired p i).toNat * 2 ^ 63 + l.lit.toNat * 2 ^ 62 + l.rxlos.toNat * 2 ^ 61 + l.bias.toNat * 2 ^ 32 + (s.laserAge p i).toNat)
    else zx l.eolh
  else 0

/-- A 64-bit read at an offset of a window (R384, R385): every other offset reads 0. -/
def State.readRegister (s : State) (via : Via) (off : Nat) : Word :=
  if off % 8 ≠ 0 then 0
  else if off < 0x100000 then s.readPackage via off
  else if off < 0x140000 then s.readQueue via ((off - 0x100000) / 256) (off % 256)
  else if 0x400000 ≤ off ∧ off < 0x600000 then s.readContext via ((off - 0x400000) / 512) (off % 512)
  else if 0x800000 ≤ off ∧ off < 0xA00000 then s.readDebug via ((off - 0x800000) / 4096) (off % 4096)
  else if 0xA00000 ≤ off ∧ off < 0xA14000 then s.readPort via ((off - 0xA00000) / 1024) (off % 1024)
  else 0

end Sys2Proof.Machine
end

