-- ==== Sys2Proof/Machine/Phase.lean ====
section
/-! DEFINITION. The phase and fence instructions (spec/10_phase.md R225 to R228). They issue once every earlier S
instruction of the strand has retired (spec/05_strand.md R86). -/

namespace Sys2Proof.Machine

/-- `commit` (R225): stage 1 waits for the boundary to complete. -/
def execCommit (pre : Pre) (s : State) : Res :=
  issue (.commit pre) s (fun s =>
    let g := s.myCore.group.getD 0
    if s.me.micro.stage = 1 then
      if s.boundaryDone g s.me.micro.id then .done s else .keep s
    else
      let r := s.phaseBoundary g
      .keep (r.2.modMe (fun t => { t with micro := { stage := 1, id := r.1 } })))

/-- `XfencePoint()` (R226): the version as it stands now is what copies that this fence precedes may read. -/
def State.xfencePoint (s : State) : State :=
  let n := s.fresh
  let s := n.2
  match s.myCore.group with
  | none => s
  | some g =>
    (s.modGroup g (fun y => { y with ver := { y.ver with xfs := y.ver.xfs.put n.1 (y.ver.h, y.ver.p) } })).modMe
      (fun t => t.learn { xf := n.1 })

/-- `xfence` (R226). -/
def execXfence (pre : Pre) (s : State) : Res :=
  issue (.xfence pre) s (fun s => .done s.xfencePoint)

/-- An entry that the moving strand has dispatched to one of the named queues has not retired (R227). -/
def State.queuesHold (s : State) (q : BitVec 3) : Bool :=
  let c := s.myCore
  (q.getLsbD 0 && c.cq.any (fun e => e.owner == s.strand)) ||
  (q.getLsbD 1 && c.mq.any (fun e => e.owner == s.strand)) ||
  (q.getLsbD 2 && c.vq.any (fun e => e.owner == s.strand))

/-- `qfence` (R227): stage 1 waits for the strand's entries. -/
def execQfence (pre : Pre) (q : BitVec 3) (s : State) : Res :=
  issue (.qfence pre q) s (fun s =>
    if s.queuesHold q then .keep (s.modMe (fun t => { t with micro := { stage := 1 } })) else .done s)

/-- `sfence` (R228): every scratchpad access of the strand has been performed. -/
def execSfence (pre : Pre) (s : State) : Res := issue (.sfence pre) s (fun s => .done s)

end Sys2Proof.Machine
end

