-- ==== Sys2Proof/Machine/Ptp.lean ====
section
/-! DEFINITION. Package time: the IEEE 1588 messages and how they discipline it (spec/19_host.md R388, R389). -/

namespace Sys2Proof.Machine

/-- PTP runs once the command complex does. -/
def State.ptpRuns (s : State) : Bool :=
  s.pkg.st == .train || s.pkg.st == .serving || s.pkg.st == .draining || s.pkg.st == .quiesced

/-- Lock is lost: every cached page is dropped, with a record of how many (R388, spec/09_page.md R185). -/
def State.loseLock (s : State) : State :=
  if s.ptp.lock then
    let held := fun (p : Page) => p.st == .leased || p.st == .revoking
    let n := (s.pool.pages.filter (fun e => held e.2)).length
    let s := { s with ptp := { s.ptp with lock := false, good := 0, since := none },
                      pool := { s.pool with pages := s.pool.pages.map (fun e : Nat × Page => (e.1, if held e.2 then e.2.drop else e.2)) } }
    s.event 0x04 0xFF 0xFF n 0
  else s

/-- A page is LEASED. -/
def State.leaseHeld (s : State) : Bool := s.pool.pages.any (fun e => e.2.st == .leased || e.2.st == .revoking)

/-- The run of good intervals is broken. -/
def Ptp.broken (t : Ptp) : Ptp := { t with good := 0, since := none }

/-- A Sync of the selected master that came at `t` (in `up`) has a good offset or none: the intervals of 7.8125 ms since the run
began count, and the eighth locks package time (R388, R389). -/
def State.countGood (s : State) (good : Bool) (t : Nat) : State :=
  if !good then { s with ptp := s.ptp.broken }
  else match s.ptp.since with
    | none => { s with ptp := { s.ptp with good := 0, since := some t } }
    | some t0 =>
      let n := (t - t0) / 7812500
      let s := { s with ptp := { s.ptp with good := n } }
      if 8 ≤ n && !s.ptp.lock then ({ s with ptp := { s.ptp with lock := true } } : State).trainTest else s

/-- A measured offset from the master in ns, of a Sync that came at `t`: stepped in TRAIN while no lease is held, with the
arrival times kept of Sync messages, else slewed at a rate up to 200 ppm that is a free value; LOCK follows the offset (R388). -/
def State.discipline (s : State) (off : Int) (t : Nat) : State :=
  let r := s.pick 201
  let s := { s with ptp := { s.ptp with offset := BitVec.ofInt 32 off } }
  let s :=
    if s.pkg.st = .train && !s.leaseHeld then
      let back := fun (t2 : Nat) => ((t2 : Int) - off).toNat
      let moved := s.ptp.syncAt.map (fun (e : Nat × Nat × Nat × Bool) => (e.1, e.2.1, back e.2.2.1, e.2.2.2))
      let pairs := s.ptp.pair.map (fun (e : Nat × Nat × Nat) => (e.1, e.2.1, back e.2.2))
      { s with pkg := { s.pkg with ns := ((s.pkg.ns : Int) - off).toNat }
               ptp := { s.ptp with stepped := true, slew := 0, slewAcc := 0, reqAt := [], syncAt := moved, pair := pairs } }
    else if 1000000 < off.natAbs then { s with ptp := { s.ptp with slew := 0 } }
    else { s with ptp := { s.ptp with slew := -off, slewRate := r.1 }, free := r.2.free }
  let s := if 1000 < off.natAbs then s.loseLock else s
  s.countGood (decide (off.natAbs < 100)) t

/-- One Announce data set before another: the fields in the order of IEEE 1588's comparison. -/
def announceBefore : List Nat → List Nat → Bool
  | a :: as, b :: bs => if a = b then announceBefore as bs else decide (a < b)
  | _, _ => false

/-- The best master of those heard. -/
def bestMaster (l : Tbl (List Nat)) : Option Nat :=
  (l.foldl (fun (acc : Option (Nat × List Nat)) e => match acc with
    | none => some e
    | some b => if announceBefore e.2 b.2 then some e else some b) none).map (fun e => e.1)

/-- Select the master again; while unlocked a change restarts the count of good intervals. The last Sync received from the
selected master is the one that counts for missed ones: until a new one has sent any, that of the master before (R389; log entry
69). -/
def State.selectMaster (s : State) : State :=
  let m := bestMaster s.ptp.announced
  if m = s.ptp.master then s
  else
    let t := { s.ptp with master := m }
    let t := if t.lock then t else t.broken
    match m.bind (fun k => Tbl.find? t.syncUp k) with
    | some u => { s with ptp := { t with lastSync := some u, missed := 0 } }
    | none => { s with ptp := t }

/-- A Sync. One whose predecessor from the selected master was never followed up breaks the run: that interval has no
offset. -/
def State.onSync (s : State) (m seq : Nat) : State :=
  let mine := s.ptp.master == some m
  let t := { s.ptp with syncAt := s.ptp.syncAt.put m (seq, s.pkg.ns, false), syncUp := s.ptp.syncUp.put m s.pkg.up }
  let t := if mine then { t with missed := 0, lastSync := some s.pkg.up } else t
  match s.ptp.syncAt.find? m with
  | some (n, _, followed) =>
    if n = seq then s
    else { s with ptp := if mine && !followed then t.broken else t }
  | none => { s with ptp := t }

/-- A message heard on a pool-facing port. -/
def State.onPtp (s : State) : PtpMsg → State
  | .sync _ m seq => s.onSync m seq
  | .followUp _ m seq t1 =>
    match s.ptp.syncAt.find? m with
    | some (n, t2, followed) =>
      if n = seq && !followed then
        let s := { s with ptp := { s.ptp with syncAt := s.ptp.syncAt.put m (n, t2, true), pair := s.ptp.pair.put m (t1, t2) } }
        if s.ptp.master = some m then
          s.discipline ((t2 : Int) - (t1 : Int) - s.ptp.delay.get 0 m) ((s.ptp.syncUp.find? m).getD s.pkg.up)
        else s
      else s
    | none => s
  | .delayResp _ m seq t4 =>
    match s.ptp.reqAt.find? m, s.ptp.pair.find? m with
    | some (n, t3), some (t1, t2) =>
      if n = seq then { s with ptp := { s.ptp with delay := s.ptp.delay.put m ((((t2 : Int) - t1) + ((t4 : Int) - t3)) / 2) } } else s
    | _, _ => s
  | .announce _ m p1 cls acc var p2 ident steps =>
    ({ s with ptp := { s.ptp with announced := s.ptp.announced.put m [p1, cls, acc, var, p2, ident, steps, m],
                                  heardAt := s.ptp.heardAt.put m s.pkg.up } } : State).selectMaster

/-- The port that a message came on. -/
def ptpPort : PtpMsg → Nat
  | .sync p _ _ => p
  | .followUp p _ _ _ => p
  | .delayResp p _ _ _ => p
  | .announce p _ _ _ _ _ _ _ _ => p

/-- PTP_MESSAGE (R389). -/
def execPtpMessage (msg : PtpMsg) (s : State) : Res :=
  let p := ptpPort msg
  if s.ptpRuns && decide (p < 80) && !peerFacing p && (s.portAt p).up then .next (s.onPtp msg) else .next s

/-- The k-th expected Sync after the last one has not arrived (k + 0.5) intervals after it; the fourth clears LOCK
(R388, R389). -/
def execSyncMissed (s : State) : Res :=
  match s.ptp.lastSync with
  | none => .next s
  | some t =>
    let k := s.ptp.missed + 1
    if s.ptpRuns && decide (t + (2 * k + 1) * 3906250 ≤ s.pkg.up) then
      let s := { s with ptp := { s.ptp.broken with missed := k } }
      .next (if k = 4 then s.loseLock else s)
    else .next s

/-- The package sends Delay_Req to its master, 7.8125 ms after the one before (R389). -/
def execDelayReqInterval (s : State) : Res :=
  match s.ptp.master with
  | none => .next s
  | some m =>
    if s.ptpRuns && (match s.ptp.reqUp with | none => true | some t => decide (t + 7812500 ≤ s.pkg.up)) then
      let n := match s.ptp.reqAt.find? m with | some (k, _) => (k + 1) % 65536 | none => 0
      .next (({ s with ptp := { s.ptp with reqAt := s.ptp.reqAt.put m (n, s.pkg.ns), reqUp := some s.pkg.up } } : State).send (.delayReq m))
    else .next s

/-- Three Announce intervals without one: the master is forgotten (R389). -/
def execAnnounceReceiptTimeout (master : Nat) (s : State) : Res :=
  match s.ptp.heardAt.find? master with
  | none => .next s
  | some t =>
    if t + 3000000000 ≤ s.pkg.up then
      .next ({ s with ptp := { s.ptp with announced := s.ptp.announced.erase master, heardAt := s.ptp.heardAt.erase master } } : State).selectMaster
    else .next s

end Sys2Proof.Machine
end

