-- ==== Sys2Proof/Machine/Scalar.lean ====
section
/-! DEFINITION. The scalar and predicate instructions (spec/06_scalar.md R115 to R127). -/

namespace Sys2Proof.Machine

/-- A result computed from two registers carries the poison of either (R112). -/
def alu2 (f : Word → Word → Word) (d a b : BitVec 6) (s : State) : Eff :=
  scalarResult d { v := f (s.me.rd a).v (s.me.rd b).v, poison := (s.me.rd a).poison || (s.me.rd b).poison } s

/-- A result computed from one register (R112). -/
def alu1 (f : Word → Word) (d a : BitVec 6) (s : State) : Eff :=
  scalarResult d { v := f (s.me.rd a).v, poison := (s.me.rd a).poison } s

/-- A clean result. -/
def cleanResult (d : BitVec 6) (v : Word) (s : State) : Eff := scalarResult d { v := v } s

/-- A predicate result. -/
def predResult (k : BitVec 4) (b : PBit) (s : State) : Eff := .done (s.modMe (fun t => t.wrP k.toNat b))

/-- The high half of a signed and of an unsigned product (R115). -/
def mulHigh (a b : Word) : Word := BitVec.ofInt 64 (a.toInt * b.toInt / 2 ^ 64)
def mulHighU (a b : Word) : Word := BitVec.ofNat 64 (a.toNat * b.toNat / 2 ^ 64)

/-- A shift amount: the low six bits (R115). -/
def amount (b : Word) : Nat := b.toNat % 64

/-- Leading zero bits, trailing zero bits and one bits of a word (R117). -/
def leadingZeros (a : Word) : Nat := ((List.range 64).takeWhile (fun k => !a.getLsbD (63 - k))).length
def trailingZeros (a : Word) : Nat := ((List.range 64).takeWhile (fun k => !a.getLsbD k)).length
def ones (a : Word) : Nat := ((List.range 64).filter (fun k => a.getLsbD k)).length

/-- The quotients and remainders of R121, with their results for a zero divisor and for the overflow case. -/
def divS (a b : Word) : Word :=
  if b = 0 then BitVec.allOnes 64 else BitVec.ofInt 64 (a.toInt.tdiv b.toInt)
def divU (a b : Word) : Word := if b = 0 then BitVec.allOnes 64 else BitVec.ofNat 64 (a.toNat / b.toNat)
def remS (a b : Word) : Word := if b = 0 then a else BitVec.ofInt 64 (a.toInt.tmod b.toInt)
def remU (a b : Word) : Word := if b = 0 then a else BitVec.ofNat 64 (a.toNat % b.toNat)

/-- Bits [pos+w-1:pos] of a word, and a word with them replaced (R123); `wm` is w − 1. -/
def bitField (a : Word) (pos wm : BitVec 6) : Nat := a.toNat / 2 ^ pos.toNat % 2 ^ (wm.toNat + 1)
def fieldMask (pos wm : BitVec 6) : Word := BitVec.ofNat 64 ((2 ^ (wm.toNat + 1) - 1) * 2 ^ pos.toNat)
def signedField (a : Word) (pos wm : BitVec 6) : Word :=
  let n := bitField a pos wm
  if 2 ^ wm.toNat ≤ n then BitVec.ofInt 64 (n - 2 ^ (wm.toNat + 1) : Int) else BitVec.ofNat 64 n
def insertField (a b : Word) (pos wm : BitVec 6) : Word :=
  (a &&& ~~~ fieldMask pos wm) ||| ((b <<< pos.toNat) &&& fieldMask pos wm)

/-- `add` (R115). -/
def execAdd (pre : Pre) (d a b : BitVec 6) (s : State) : Res :=
  issue (.add pre d a b) s (alu2 (fun x y => x + y) d a b)

/-- `sub` (R115). -/
def execSub (pre : Pre) (d a b : BitVec 6) (s : State) : Res :=
  issue (.sub pre d a b) s (alu2 (fun x y => x - y) d a b)

/-- `mul` (R115). -/
def execMul (pre : Pre) (d a b : BitVec 6) (s : State) : Res :=
  issue (.mul pre d a b) s (alu2 (fun x y => x * y) d a b)

/-- `mulh` (R115). -/
def execMulh (pre : Pre) (d a b : BitVec 6) (s : State) : Res :=
  issue (.mulh pre d a b) s (alu2 (mulHigh) d a b)

/-- `mulhu` (R115). -/
def execMulhu (pre : Pre) (d a b : BitVec 6) (s : State) : Res :=
  issue (.mulhu pre d a b) s (alu2 (mulHighU) d a b)

/-- `min` (R115). -/
def execMin (pre : Pre) (d a b : BitVec 6) (s : State) : Res :=
  issue (.min pre d a b) s (alu2 (fun x y => if x.slt y then x else y) d a b)

/-- `max` (R115). -/
def execMax (pre : Pre) (d a b : BitVec 6) (s : State) : Res :=
  issue (.max pre d a b) s (alu2 (fun x y => if x.slt y then y else x) d a b)

/-- `minu` (R115). -/
def execMinu (pre : Pre) (d a b : BitVec 6) (s : State) : Res :=
  issue (.minu pre d a b) s (alu2 (fun x y => if x.ult y then x else y) d a b)

/-- `maxu` (R115). -/
def execMaxu (pre : Pre) (d a b : BitVec 6) (s : State) : Res :=
  issue (.maxu pre d a b) s (alu2 (fun x y => if x.ult y then y else x) d a b)

/-- `and` (R115). -/
def execAnd (pre : Pre) (d a b : BitVec 6) (s : State) : Res :=
  issue (.and pre d a b) s (alu2 (fun x y => x &&& y) d a b)

/-- `or` (R115). -/
def execOr (pre : Pre) (d a b : BitVec 6) (s : State) : Res :=
  issue (.or pre d a b) s (alu2 (fun x y => x ||| y) d a b)

/-- `xor` (R115). -/
def execXor (pre : Pre) (d a b : BitVec 6) (s : State) : Res :=
  issue (.xor pre d a b) s (alu2 (fun x y => x ^^^ y) d a b)

/-- `andn` (R115). -/
def execAndn (pre : Pre) (d a b : BitVec 6) (s : State) : Res :=
  issue (.andn pre d a b) s (alu2 (fun x y => x &&& ~~~ y) d a b)

/-- `orn` (R115). -/
def execOrn (pre : Pre) (d a b : BitVec 6) (s : State) : Res :=
  issue (.orn pre d a b) s (alu2 (fun x y => x ||| ~~~ y) d a b)

/-- `sll` (R115). -/
def execSll (pre : Pre) (d a b : BitVec 6) (s : State) : Res :=
  issue (.sll pre d a b) s (alu2 (fun x y => x <<< amount y) d a b)

/-- `srl` (R115). -/
def execSrl (pre : Pre) (d a b : BitVec 6) (s : State) : Res :=
  issue (.srl pre d a b) s (alu2 (fun x y => x >>> amount y) d a b)

/-- `sra` (R115). -/
def execSra (pre : Pre) (d a b : BitVec 6) (s : State) : Res :=
  issue (.sra pre d a b) s (alu2 (fun x y => x.sshiftRight (amount y)) d a b)

/-- `rotr` (R115). -/
def execRotr (pre : Pre) (d a b : BitVec 6) (s : State) : Res :=
  issue (.rotr pre d a b) s (alu2 (fun x y => x.rotateRight (amount y)) d a b)

/-- `addi` (R116). -/
def execAddi (pre : Pre) (d a i : BitVec 6) (s : State) : Res :=
  issue (.addi pre d a i) s (alu1 (fun x => x + sx i) d a)

/-- `slli` (R116). -/
def execSlli (pre : Pre) (d a i : BitVec 6) (s : State) : Res :=
  issue (.slli pre d a i) s (alu1 (fun x => x <<< i.toNat) d a)

/-- `srli` (R116). -/
def execSrli (pre : Pre) (d a i : BitVec 6) (s : State) : Res :=
  issue (.srli pre d a i) s (alu1 (fun x => x >>> i.toNat) d a)

/-- `srai` (R116). -/
def execSrai (pre : Pre) (d a i : BitVec 6) (s : State) : Res :=
  issue (.srai pre d a i) s (alu1 (fun x => x.sshiftRight i.toNat) d a)

/-- `clz` (R117). -/
def execClz (pre : Pre) (d a : BitVec 6) (s : State) : Res :=
  issue (.clz pre d a) s (alu1 (fun x => BitVec.ofNat 64 (leadingZeros x)) d a)

/-- `ctz` (R117). -/
def execCtz (pre : Pre) (d a : BitVec 6) (s : State) : Res :=
  issue (.ctz pre d a) s (alu1 (fun x => BitVec.ofNat 64 (trailingZeros x)) d a)

/-- `popc` (R117). -/
def execPopc (pre : Pre) (d a : BitVec 6) (s : State) : Res :=
  issue (.popc pre d a) s (alu1 (fun x => BitVec.ofNat 64 (ones x)) d a)

/-- `sext.b` (R117). -/
def execSextB (pre : Pre) (d a : BitVec 6) (s : State) : Res :=
  issue (.sextB pre d a) s (alu1 (fun x => sx (x.extractLsb' 0 8)) d a)

/-- `sext.h` (R117). -/
def execSextH (pre : Pre) (d a : BitVec 6) (s : State) : Res :=
  issue (.sextH pre d a) s (alu1 (fun x => sx (x.extractLsb' 0 16)) d a)

/-- `sext.w` (R117). -/
def execSextW (pre : Pre) (d a : BitVec 6) (s : State) : Res :=
  issue (.sextW pre d a) s (alu1 (fun x => sx (x.extractLsb' 0 32)) d a)

/-- `zext.b` (R117). -/
def execZextB (pre : Pre) (d a : BitVec 6) (s : State) : Res :=
  issue (.zextB pre d a) s (alu1 (fun x => zx (x.extractLsb' 0 8)) d a)

/-- `zext.h` (R117). -/
def execZextH (pre : Pre) (d a : BitVec 6) (s : State) : Res :=
  issue (.zextH pre d a) s (alu1 (fun x => zx (x.extractLsb' 0 16)) d a)

/-- `zext.w` (R117). -/
def execZextW (pre : Pre) (d a : BitVec 6) (s : State) : Res :=
  issue (.zextW pre d a) s (alu1 (fun x => zx (x.extractLsb' 0 32)) d a)

/-- The value of `pget`: p15 to p0, bit 0 reading 1; poisoned where one of p1 to p15 is (R127). -/
def predWord (t : Strand) : Reg :=
  { v := BitVec.ofNat 64 ((List.range 16).foldl (fun n k => n + (t.rdP k).v.toNat * 2 ^ k) 0)
    poison := (List.range 16).any (fun k => (t.rdP k).poison) }

/-- `pget` (R127). -/
def execPget (pre : Pre) (d : BitVec 6) (s : State) : Res :=
  issue (.pget pre d) s (fun s => scalarResult d (predWord s.me) s)

/-- `pset` (R127). -/
def execPset (pre : Pre) (a : BitVec 6) (s : State) : Res :=
  issue (.pset pre a) s (fun s =>
    let r := s.me.rd a
    .done (s.modMe (fun t => (List.range 16).foldl
      (fun t k => t.wrP k { v := r.v.getLsbD k, poison := r.poison }) t)))

/-- `movi` (R118). -/
def execMovi (pre : Pre) (d : BitVec 6) (i : BitVec 12) (s : State) : Res :=
  issue (.movi pre d i) s (cleanResult d (sx i))

/-- `movhi` (R119). -/
def execMovhi (pre : Pre) (d : BitVec 6) (i : BitVec 12) (s : State) : Res :=
  issue (.movhi pre d i) s (alu1 (fun x => (x <<< 12) + zx i) d d)

/-- `cmp` with the conditions eq, ne, lt, le (R125). -/
def execCmp (pre : Pre) (c : BitVec 2) (p : BitVec 4) (a b : BitVec 6) (s : State) : Res :=
  issue (.cmp pre c p a b) s (fun s => predResult p (cmpResult (cmpSigned c) (s.me.rd a) (s.me.rd b)) s)

/-- `cmp` with the conditions ltu, leu, tst, tnz (R125). -/
def execCmpUnsignedTest (pre : Pre) (c : BitVec 2) (p : BitVec 4) (a b : BitVec 6) (s : State) : Res :=
  issue (.cmpUnsignedTest pre c p a b) s (fun s => predResult p (cmpResult (cmpUnsigned c) (s.me.rd a) (s.me.rd b)) s)

/-- `cmpi` with the conditions eq, ne, lt, le: the immediate is signed (R125). -/
def execCmpi (pre : Pre) (c : BitVec 2) (p : BitVec 4) (a i : BitVec 6) (s : State) : Res :=
  issue (.cmpi pre c p a i) s (fun s => predResult p (cmpResult (cmpSigned c) (s.me.rd a) { v := sx i }) s)

/-- `cmpi` with the conditions ltu, leu, tst, tnz: the immediate is unsigned (R125). -/
def execCmpiUnsignedTest (pre : Pre) (c : BitVec 2) (p : BitVec 4) (a i : BitVec 6) (s : State) : Res :=
  issue (.cmpiUnsignedTest pre c p a i) s (fun s => predResult p (cmpResult (cmpUnsigned c) (s.me.rd a) { v := zx i }) s)

/-- `pand` (R126). -/
def execPand (pre : Pre) (p : BitVec 4) (a b : BitVec 6) (s : State) : Res :=
  issue (.pand pre p a b) s (fun s => predResult p (predOp (fun x y => x && y) (s.me.rdP a.toNat) (s.me.rdP b.toNat)) s)

/-- `por` (R126). -/
def execPor (pre : Pre) (p : BitVec 4) (a b : BitVec 6) (s : State) : Res :=
  issue (.por pre p a b) s (fun s => predResult p (predOp (fun x y => x || y) (s.me.rdP a.toNat) (s.me.rdP b.toNat)) s)

/-- `pxor` (R126). -/
def execPxor (pre : Pre) (p : BitVec 4) (a b : BitVec 6) (s : State) : Res :=
  issue (.pxor pre p a b) s (fun s => predResult p (predOp (fun x y => x != y) (s.me.rdP a.toNat) (s.me.rdP b.toNat)) s)

/-- `pandn` (R126). -/
def execPandn (pre : Pre) (p : BitVec 4) (a b : BitVec 6) (s : State) : Res :=
  issue (.pandn pre p a b) s (fun s => predResult p (predOp (fun x y => x && !y) (s.me.rdP a.toNat) (s.me.rdP b.toNat)) s)

/-- `lea` (R124). -/
def execLea (pre : Pre) (d b x : BitVec 6) (sc : BitVec 2) (disp : BitVec 20) (s : State) : Res :=
  issue (.lea pre d b x sc disp) s (fun s =>
    let a := s.me.mxAddr b x sc disp
    scalarResult d { v := BitVec.ofInt 64 a.1, poison := a.2 } s)

/-- `div` (R121). -/
def execDiv (pre : Pre) (d a b : BitVec 6) (s : State) : Res :=
  issue (.div pre d a b) s (alu2 divS d a b)

/-- `divu` (R121). -/
def execDivu (pre : Pre) (d a b : BitVec 6) (s : State) : Res :=
  issue (.divu pre d a b) s (alu2 divU d a b)

/-- `rem` (R121). -/
def execRem (pre : Pre) (d a b : BitVec 6) (s : State) : Res :=
  issue (.rem pre d a b) s (alu2 remS d a b)

/-- `remu` (R121). -/
def execRemu (pre : Pre) (d a b : BitVec 6) (s : State) : Res :=
  issue (.remu pre d a b) s (alu2 remU d a b)

/-- The value and the poison of `sel` (R122). -/
def selected (p : PBit) (e : BitVec 1) (a b : Reg) : Reg :=
  let r := if sense p e then a else b
  { v := r.v, poison := p.poison || r.poison }

/-- `sel` (R122). -/
def execSel (pre : Pre) (d a b : BitVec 6) (p : BitVec 4) (e : BitVec 1) (s : State) : Res :=
  issue (.sel pre d a b p e) s (fun s => scalarResult d (selected (s.me.rdP p.toNat) e (s.me.rd a) (s.me.rd b)) s)

/-- `bfx` (R123). -/
def execBfx (pre : Pre) (d a pos wm : BitVec 6) (s : State) : Res :=
  issue (.bfx pre d a pos wm) s (alu1 (fun x => BitVec.ofNat 64 (bitField x pos wm)) d a)

/-- `bfx.s` (R123). -/
def execBfxS (pre : Pre) (d a pos wm : BitVec 6) (s : State) : Res :=
  issue (.bfxS pre d a pos wm) s (alu1 (fun x => signedField x pos wm) d a)

/-- `bfi` (R123). -/
def execBfi (pre : Pre) (d a b pos wm : BitVec 6) (s : State) : Res :=
  issue (.bfi pre d a b pos wm) s (alu2 (fun x y => insertField x y pos wm) d a b)

/-- The code address that `ldlit` reads (R120). -/
def litAddr (pc : BitVec 48) (i : BitVec 12) : Int := 8 * ((pc.toNat / 8 : Nat) + i.toInt)

/-- `ldlit` (R120): neither the data mark nor the execute right matters. -/
def execLdlit (pre : Pre) (d : BitVec 6) (i : BitVec 12) (s : State) : Res :=
  issue (.ldlit pre d i) s (fun s =>
    let a := litAddr s.me.pc i
    match s.iLeaf s.myCtx a (fun _ => true) with
    | none => .fatal 0x80
    | some l =>
      let as := addrs (l.1.pa + a.toNat % l.1.size) 8
      let r := s.homeRead as
      let bs := if r.2.1 then r.1 else s.bytesAt l.2 as
      scalarResult d { v := BitVec.ofNat 64 (natLE bs), poison := r.2.1 } r.2.2)

end Sys2Proof.Machine
end

