-- ==== Sys2Proof/Machine/Trap.lean ====
section
/-! DEFINITION. The instructions of the context: `trap`, `brk`, `eret`, `sysrd`, `syswr`, `pcrd`
(spec/16_context.md R344 to R347). -/

namespace Sys2Proof.Machine

/-- `trap` (R344). -/
def execTrap (pre : Pre) (n : BitVec 6) (s : State) : Res :=
  issue (.trap pre n) s (fun _ => .trapNext 0x13 (zx n))

/-- `brk` (R344): with `BRKH` set the strand is HALTED at the `brk`; stage 1 is after that halt, where a step
or a resume performs it as a `nop`. -/
def execBrk (pre : Pre) (n : BitVec 6) (s : State) : Res :=
  issue (.brk pre n) s (fun s' =>
    if s'.me.micro.stage = 1 then .done s'
    else if s'.myCore.dbg.brkh then
      .keep (s'.modMe (fun t => { t with life := .halted, haltedFrom := (if t.life = .halted then t.haltedFrom else t.life),
                                         micro := { stage := 1 }, stepping := false }))
    else .trapNext 0x14 (zx n))

/-- `eret` (R345): PRIV outside the handler. -/
def execEret (pre : Pre) (s : State) : Res :=
  issue (.eret pre) s (fun s =>
    if s.me.inHandler then .finish s (fun s => s.modMe (fun t => t.leave.atBoundary))
    else .trap 0x12 (instrWord (.eret pre)) 0)

/-- The pieces of the moving group's partition that are present on this core (R346 `PIECES`). -/
def piecesPresent (s : State) : Word :=
  match s.myCore.group with
  | none => 0
  | some g => BitVec.ofNat 64 ((List.range 24).foldl (fun n i =>
      match s.myCore.pieceOf g i with
      | some (_, p) => if p.present then n + 2 ^ i else n
      | none => n) 0)

/-- A system register as `sysrd` reads it (R346); none where the read is privileged. -/
def sysValue (s : State) (r : Nat) : Option Word :=
  let t := s.me
  let h := t.inHandler
  match r with
  | 0 => some (if h then t.epc else 0)
  | 1 => some (if h then t.ecause else 0)
  | 2 => some (if h then t.einfo else 0)
  | 3 => some (if h then t.einfo2 else 0)
  | 4 => some ((s.ctxAt s.myCtx).world ++ (0#44 ++ BitVec.ofNat 12 s.myCtx))
  | 5 => some (BitVec.ofNat 64 s.pkg.ns)
  | 6 => some (BitVec.ofNat 64 (s.pkg.ns / 10000))
  | 7 => some (piecesPresent s)
  | 9 => some t.svrsp
  | _ => none

/-- `sysrd` (R346). -/
def execSysrd (pre : Pre) (d r : BitVec 6) (s : State) : Res :=
  issue (.sysrd pre d r) s (fun s =>
    match sysValue s r.toNat with
    | some v => scalarResult d { v := v } s
    | none => .trap 0x12 (instrWord (.sysrd pre d r)) 0)

/-- The request of a tag in a context's list. -/
def Context.request? (c : Context) (tag : BitVec 16) : Option SvRequest := c.requests.find? (fun r => r.tag == tag)

/-- A supervisor request is queued with a fresh tag and reported (R334). -/
def State.postRequest (s : State) (v : Word) : State × BitVec 16 :=
  let n := s.myCtx
  let c := s.ctxAt n
  let tag := c.nextTag
  let g := (s.myCore.group).getD 0
  let rank := match s.myGroup with | some (_, x) => rankIn x.cores s.core | none => 0
  let s := s.modCtx n (fun c => { c with nextTag := tag + 1
                                         requests := c.requests ++ [{ tag := tag, v := v, grp := g, rank := rank, strand := s.strand }] })
  (s.message c.world.toNat 2 n 0 tag.toNat v, tag)

/-- `syswr` (R346): `EPC` and `SVREQ` in the handler, PRIV otherwise. Stage 1 waits for the response. -/
def execSyswr (pre : Pre) (r a : BitVec 6) (s : State) : Res :=
  issue (.syswr pre r a) s (fun s =>
    let t := s.me
    if t.micro.stage = 1 then
      match ((s.ctxAt s.myCtx).request? (t.svtag.getD 0)).bind (fun q => q.response) with
      | none => .hold s .supervisor
      | some v =>
        let s := s.modCtx s.myCtx (fun c => { c with requests := c.requests.filter (fun q => some q.tag != t.svtag) })
        .done (s.modMe (fun t => { t with svrsp := zx v, svtag := none }))
    else if !t.inHandler || !(r == 0 || r == 8) then .trap 0x12 (instrWord (.syswr pre r a)) 0
    else
      let q := t.rd a
      unlessPoison q.poison (
        if r = 0 then .done (s.modMe (fun t => { t with epc := q.v &&& ~~~ 3#64 }))
        else
          let p := s.postRequest q.v
          .hold (p.1.modMe (fun t => { t with svtag := some p.2, micro := { stage := 1, id := p.2.toNat } })) .supervisor))

/-- `pcrd` (R347): a group-scope counter of this core or a context-scope counter. -/
def execPcrd (pre : Pre) (d : BitVec 6) (c : BitVec 1) (i : BitVec 4) (s : State) : Res :=
  issue (.pcrd pre d c i) s (fun s =>
    let v := if 10 ≤ i.toNat then 0
      else if c = 0 then s.myCore.counters.get 0 i.toNat else s.ctxCounter s.myCtx i.toNat
    scalarResult d { v := v } s)

end Sys2Proof.Machine
end

