-- ==== Sys2Proof/Machine/Wait.lean ====
section
/-! DEFINITION. The ends of a strand's waits and the sync rendezvous (spec/05_strand.md R82, R84, R87). -/

namespace Sys2Proof.Machine

/-- Tokens that each ring bit of an instruction takes (spec/13_barrier.md R268). -/
def tokenCount : Instr → Nat
  | .tokpop _ n _ => n.toNat
  | _ => 1

/-- The queue that a waiting `qpop` or `qpush` names, and the item that the `qpush` enters. -/
def State.rachisWait (s : State) : Option (Rachis × Nat) :=
  let t := s.me
  let look := fun (a : BitVec 6) (n : Nat) => match s.myFrond with
    | none => none
    | some (_, f, _) => (f.queue (bitsOf (t.rd a).v 0 3)).map (fun r => (r, n))
  match s.pcInstr with
  | .qpop _ _ a => look a 0
  | .qpush _ b a => look a (t.rd b).v.toNat
  | _ => none

/-- What the moving strand waits for has come about. -/
def State.waitOver (s : State) : Bool :=
  let t := s.me
  match t.wait with
  | .grants needs => s.myCore.covers needs && !s.myCore.yields s.strand needs
  | .barrier j token => match s.myBar j with | some b => b.phase != token | none => true
  | .arrival j => !t.arr.getLsbD j
  | .counter => false
  | .rachis => match s.rachisWait with
    | none => true
    | some (r, n) =>
      if t.micro.stage = 2 then decide (n < r.head + r.depth)
      else s.marked || r.drained || (r.served s.pkg.clocks).isSome
  | .split _ => false
  | .supervisor => (((s.ctxAt s.myCtx).request? (t.svtag.getD 0)).bind (fun q => q.response)).isSome
  | .posted port target =>
    let q := (s.portAt port).seq
    q.st == .idle || q.grp != s.myCore.group || decide ((q.posted - target).toNat < 2 ^ 31)
  | .drain ch ids => !s.drains ch ids

/-- A WAITING strand whose condition holds becomes RUNNING and its instruction issues in that clock (R82). A
`cnt.wait` reads its counter again in CNT_WAIT_REREAD, and a `gsplit` goes on in GSPLIT_RENDEZVOUS. -/
def execStrandWaitSatisfied (c k : Nat) (s : State) : Res :=
  let t := s.strandAt c k
  let there : State := { s with core := c, strand := k }
  let runs := match there.myGroup with
    | none => false
    | some (_, x) => x.contain.isNone && (x.st == .running || x.st == .saving)
  if t.life = .waiting && !t.stops && runs && there.waitOver then
    .next (((s.setStrand c k { t with life := t.active }).modCore c (fun co => co.count 7 1)).soon [.strand c k])
  else .next s

/-! The rendezvous. -/

/-- What a set of sync-marked instructions has taken so far: the core without their tokens, and the entries they
dispatch to the C, M and V queues. -/
structure Bundle where
  core : Core
  c : Nat := 0
  m : Nat := 0
  v : Nat := 0
  /-- format words claimed, and words pushed -/
  claims : Nat := 0
  words : Nat := 0
  /-- memory requests -/
  reqs : Nat := 0

/-- A strand's instruction joins the bundle where it passes checks 1 to 6 (R84). -/
def Bundle.join (b : Bundle) (i : Instr) (t : Strand) : Option Bundle :=
  if !guardOpen i t then some b
  else if (instrSrcs i).any t.owed then none
  else match instrEngine i with
    | .S =>
      let b := if accesses i then { b with reqs := b.reqs + 1 } else b
      let b := match i with
        | .fpush _ a => if (t.rd a).poison || bitsOf (t.rd a).v 15 49 != 0 then b else { b with words := b.words + 1 }
        | _ => b
      (b.core.take .S (instrPre i) (tokenCount i)).bind (fun r => match i with
        | .kwait _ k n _ => (r.1.semTake k.toNat n.toNat).map (fun q => { b with core := q.1 })
        | _ => some { b with core := r.1 })
    | .C => if b.core.cq.length + b.c < Config.copyQueue then some { b with c := b.c + 1 } else none
    | .M =>
      let b := if (tcmd i).isSome then { b with claims := b.claims + 1 } else b
      if b.core.mq.length + b.m < Config.matrixQueue then some { b with m := b.m + 1 } else none
    | .V => if b.core.vq.length + b.v < Config.vectorQueue then some { b with v := b.v + 1 } else none

/-- The strands of a core in order, each at a sync-marked instruction that joins: none of them owes a fault or stops at a
breakpoint first. -/
def State.bundle (s : State) (c : Nat) : List Nat → Bundle → Option Bundle
  | [], b => some b
  | k :: ks, b =>
    let t := s.strandAt c k
    let there : State := { s with core := c, strand := k }
    let i := there.pcInstr
    if t.life != .running || t.inHandler || t.micro.stage != 0 || t.released || !(instrPre i).sy || t.watchHit || there.copyFaultOwed ||
      there.breakpointHere || t.stops || (guardOpen i t && !(if instrEngine i = .S then there.mayIssue i b.reqs else there.mayDispatch i)) then none
    else match b.join i t with
      | none => none
      | some b' => s.bundle c ks b'

/-- The rendezvous of a core's strands completes: all of them issue in this clock, in ascending order (R87); format words
are claimed before words are pushed (spec/08_tile.md R156). A set in which an instruction that accesses memory would be the
younger of two outstanding waits for the older one (log entry 58). -/
def execSyncRendezvous (c : Nat) (s : State) : Res :=
  let ks := (List.range 8).filter (fun k => (s.strandAt c k).life != .done)
  let runs := match (s.groupOf c).bind (fun g => s.groups.find? g) with
    | none => false
    | some x => x.contain.isNone && x.st == .running
  if ks.isEmpty || !runs then .next s
  else match s.bundle c ks { core := s.coreAt c } with
    | none => .next s
    | some b =>
      let claims := fun k => (tcmd ({ s with core := c, strand := k } : State).pcInstr).isSome
      let order := ks.filter claims ++ ks.filter (fun k => !claims k)
      if Config.matrixQueue < (s.coreAt c).fq.length - b.claims + b.words then .next s
      else .next ((ks.foldl (fun s k => s.modStrand c k (fun t => { t with released := true })) s).soon (order.map (fun k => .strand c k)))

end Sys2Proof.Machine
end

