-- ==== Sys2Proof/Machine/Dispatch.lean ====
section
/-! DEFINITION. The dispatch: one arm for every row of the opcode table, each one call of its meaning. -/

namespace Sys2Proof.Machine

def exec (i : Instr) (s : State) : Host.Outcome State Fault Refusal :=
  match i with
  | .bprep pre b o => Sys2Proof.Machine.execBprep pre b o s
  | .bprepi pre b a => Sys2Proof.Machine.execBprepi pre b a s
  | .bprepiMeta pre b a => Sys2Proof.Machine.execBprepiMeta pre b a s
  | .bget pre d b => Sys2Proof.Machine.execBget pre d b s
  | .bgetMeta pre d b => Sys2Proof.Machine.execBgetMeta pre d b s
  | .binv pre b => Sys2Proof.Machine.execBinv pre b s
  | .jmp pre b p e => Sys2Proof.Machine.execJmp pre b p e s
  | .call pre b p e => Sys2Proof.Machine.execCall pre b p e s
  | .lsetupReg pre r e a => Sys2Proof.Machine.execLsetupReg pre r e a s
  | .lsetupImm pre r e imm => Sys2Proof.Machine.execLsetupImm pre r e imm s
  | .lclose pre => Sys2Proof.Machine.execLclose pre s
  | .lbreak pre p e => Sys2Proof.Machine.execLbreak pre p e s
  | .nop pre => Sys2Proof.Machine.execNop pre s
  | .ifence pre => Sys2Proof.Machine.execIfence pre s
  | .sdone pre => Sys2Proof.Machine.execSdone pre s
  | .trap pre n => Sys2Proof.Machine.execTrap pre n s
  | .brk pre n => Sys2Proof.Machine.execBrk pre n s
  | .eret pre => Sys2Proof.Machine.execEret pre s
  | .sysrd pre d r => Sys2Proof.Machine.execSysrd pre d r s
  | .syswr pre r a => Sys2Proof.Machine.execSyswr pre r a s
  | .pcrd pre d c imm => Sys2Proof.Machine.execPcrd pre d c imm s
  | .yield pre d => Sys2Proof.Machine.execYield pre d s
  | .add pre d a b => Sys2Proof.Machine.execAdd pre d a b s
  | .sub pre d a b => Sys2Proof.Machine.execSub pre d a b s
  | .mul pre d a b => Sys2Proof.Machine.execMul pre d a b s
  | .mulh pre d a b => Sys2Proof.Machine.execMulh pre d a b s
  | .mulhu pre d a b => Sys2Proof.Machine.execMulhu pre d a b s
  | .min pre d a b => Sys2Proof.Machine.execMin pre d a b s
  | .max pre d a b => Sys2Proof.Machine.execMax pre d a b s
  | .minu pre d a b => Sys2Proof.Machine.execMinu pre d a b s
  | .maxu pre d a b => Sys2Proof.Machine.execMaxu pre d a b s
  | .and pre d a b => Sys2Proof.Machine.execAnd pre d a b s
  | .or pre d a b => Sys2Proof.Machine.execOr pre d a b s
  | .xor pre d a b => Sys2Proof.Machine.execXor pre d a b s
  | .andn pre d a b => Sys2Proof.Machine.execAndn pre d a b s
  | .orn pre d a b => Sys2Proof.Machine.execOrn pre d a b s
  | .sll pre d a b => Sys2Proof.Machine.execSll pre d a b s
  | .srl pre d a b => Sys2Proof.Machine.execSrl pre d a b s
  | .sra pre d a b => Sys2Proof.Machine.execSra pre d a b s
  | .rotr pre d a b => Sys2Proof.Machine.execRotr pre d a b s
  | .addi pre d a imm => Sys2Proof.Machine.execAddi pre d a imm s
  | .slli pre d a imm => Sys2Proof.Machine.execSlli pre d a imm s
  | .srli pre d a imm => Sys2Proof.Machine.execSrli pre d a imm s
  | .srai pre d a imm => Sys2Proof.Machine.execSrai pre d a imm s
  | .clz pre d a => Sys2Proof.Machine.execClz pre d a s
  | .ctz pre d a => Sys2Proof.Machine.execCtz pre d a s
  | .popc pre d a => Sys2Proof.Machine.execPopc pre d a s
  | .sextB pre d a => Sys2Proof.Machine.execSextB pre d a s
  | .sextH pre d a => Sys2Proof.Machine.execSextH pre d a s
  | .sextW pre d a => Sys2Proof.Machine.execSextW pre d a s
  | .zextB pre d a => Sys2Proof.Machine.execZextB pre d a s
  | .zextH pre d a => Sys2Proof.Machine.execZextH pre d a s
  | .zextW pre d a => Sys2Proof.Machine.execZextW pre d a s
  | .pget pre d => Sys2Proof.Machine.execPget pre d s
  | .pset pre a => Sys2Proof.Machine.execPset pre a s
  | .movi pre d imm => Sys2Proof.Machine.execMovi pre d imm s
  | .movhi pre d imm => Sys2Proof.Machine.execMovhi pre d imm s
  | .cmp pre c p a b => Sys2Proof.Machine.execCmp pre c p a b s
  | .cmpUnsignedTest pre c p a b => Sys2Proof.Machine.execCmpUnsignedTest pre c p a b s
  | .cmpi pre c p a imm => Sys2Proof.Machine.execCmpi pre c p a imm s
  | .cmpiUnsignedTest pre c p a imm => Sys2Proof.Machine.execCmpiUnsignedTest pre c p a imm s
  | .pand pre p a b => Sys2Proof.Machine.execPand pre p a b s
  | .por pre p a b => Sys2Proof.Machine.execPor pre p a b s
  | .pxor pre p a b => Sys2Proof.Machine.execPxor pre p a b s
  | .pandn pre p a b => Sys2Proof.Machine.execPandn pre p a b s
  | .lea pre d b x sc disp => Sys2Proof.Machine.execLea pre d b x sc disp s
  | .div pre d a b => Sys2Proof.Machine.execDiv pre d a b s
  | .divu pre d a b => Sys2Proof.Machine.execDivu pre d a b s
  | .rem pre d a b => Sys2Proof.Machine.execRem pre d a b s
  | .remu pre d a b => Sys2Proof.Machine.execRemu pre d a b s
  | .sel pre d a b p e => Sys2Proof.Machine.execSel pre d a b p e s
  | .bfx pre d a pos wm => Sys2Proof.Machine.execBfx pre d a pos wm s
  | .bfxS pre d a pos wm => Sys2Proof.Machine.execBfxS pre d a pos wm s
  | .bfi pre d a b pos wm => Sys2Proof.Machine.execBfi pre d a b pos wm s
  | .ldlit pre d imm => Sys2Proof.Machine.execLdlit pre d imm s
  | .vadd pre d a b => Sys2Proof.Machine.execVadd pre d a b s
  | .vsub pre d a b => Sys2Proof.Machine.execVsub pre d a b s
  | .vmul pre d a b => Sys2Proof.Machine.execVmul pre d a b s
  | .vfma pre d a b => Sys2Proof.Machine.execVfma pre d a b s
  | .vfms pre d a b => Sys2Proof.Machine.execVfms pre d a b s
  | .vfnma pre d a b => Sys2Proof.Machine.execVfnma pre d a b s
  | .vmin pre d a b => Sys2Proof.Machine.execVmin pre d a b s
  | .vmax pre d a b => Sys2Proof.Machine.execVmax pre d a b s
  | .vand pre d a b => Sys2Proof.Machine.execVand pre d a b s
  | .vor pre d a b => Sys2Proof.Machine.execVor pre d a b s
  | .vxor pre d a b => Sys2Proof.Machine.execVxor pre d a b s
  | .vsll pre d a b => Sys2Proof.Machine.execVsll pre d a b s
  | .vsrl pre d a b => Sys2Proof.Machine.execVsrl pre d a b s
  | .vsra pre d a b => Sys2Proof.Machine.execVsra pre d a b s
  | .vcmp pre c m a b => Sys2Proof.Machine.execVcmp pre c m a b s
  | .vsel pre d a b m => Sys2Proof.Machine.execVsel pre d a b m s
  | .vcvtTo pre d a f => Sys2Proof.Machine.execVcvtTo pre d a f s
  | .vcvtFrom pre d a f => Sys2Proof.Machine.execVcvtFrom pre d a f s
  | .vpack pre d a n => Sys2Proof.Machine.execVpack pre d a n s
  | .vunpack pre d a n => Sys2Proof.Machine.execVunpack pre d a n s
  | .vmov pre d a => Sys2Proof.Machine.execVmov pre d a s
  | .vsplat pre d a => Sys2Proof.Machine.execVsplat pre d a s
  | .vext pre d a b => Sys2Proof.Machine.execVext pre d a b s
  | .vins pre d a b => Sys2Proof.Machine.execVins pre d a b s
  | .vperm pre d a b => Sys2Proof.Machine.execVperm pre d a b s
  | .vtrn pre d a n => Sys2Proof.Machine.execVtrn pre d a n s
  | .vredSum pre d a => Sys2Proof.Machine.execVredSum pre d a s
  | .vredMax pre d a => Sys2Proof.Machine.execVredMax pre d a s
  | .vredMin pre d a => Sys2Proof.Machine.execVredMin pre d a s
  | .vredAnd pre d a => Sys2Proof.Machine.execVredAnd pre d a s
  | .vredOr pre d a => Sys2Proof.Machine.execVredOr pre d a s
  | .vscanSum pre d a => Sys2Proof.Machine.execVscanSum pre d a s
  | .vscanMax pre d a => Sys2Proof.Machine.execVscanMax pre d a s
  | .vscanMin pre d a => Sys2Proof.Machine.execVscanMin pre d a s
  | .vscanAnd pre d a => Sys2Proof.Machine.execVscanAnd pre d a s
  | .vscanOr pre d a => Sys2Proof.Machine.execVscanOr pre d a s
  | .vfnExp2 pre d a => Sys2Proof.Machine.execVfnExp2 pre d a s
  | .vfnLog2 pre d a => Sys2Proof.Machine.execVfnLog2 pre d a s
  | .vfnRcp pre d a => Sys2Proof.Machine.execVfnRcp pre d a s
  | .vfnRsqrt pre d a => Sys2Proof.Machine.execVfnRsqrt pre d a s
  | .vfnSqrt pre d a => Sys2Proof.Machine.execVfnSqrt pre d a s
  | .mand pre d a b => Sys2Proof.Machine.execMand pre d a b s
  | .mor pre d a b => Sys2Proof.Machine.execMor pre d a b s
  | .mnot pre d a => Sys2Proof.Machine.execMnot pre d a s
  | .mpopc pre d a => Sys2Proof.Machine.execMpopc pre d a s
  | .mfirst pre d a => Sys2Proof.Machine.execMfirst pre d a s
  | .vcfg pre d a sel => Sys2Proof.Machine.execVcfg pre d a sel s
  | .vldSOneWord pre d b e => Sys2Proof.Machine.execVldSOneWord pre d b e s
  | .vldSTwoWord pre d b x sc disp => Sys2Proof.Machine.execVldSTwoWord pre d b x sc disp s
  | .vstSOneWord pre d b e => Sys2Proof.Machine.execVstSOneWord pre d b e s
  | .vstSTwoWord pre d b x sc disp => Sys2Proof.Machine.execVstSTwoWord pre d b x sc disp s
  | .vgathS pre d a b => Sys2Proof.Machine.execVgathS pre d a b s
  | .vscatS pre d a b => Sys2Proof.Machine.execVscatS pre d a b s
  | .fpush pre a => Sys2Proof.Machine.execFpush pre a s
  | .tstat pre d => Sys2Proof.Machine.execTstat pre d s
  | .tstatClr pre d a => Sys2Proof.Machine.execTstatClr pre d a s
  | .tcfg pre d a ws wc ss sc => Sys2Proof.Machine.execTcfg pre d a ws wc ss sc s
  | .wload pre d a b ws wc ss sc st => Sys2Proof.Machine.execWload pre d a b ws wc ss sc st s
  | .wswap pre d ws wc ss sc => Sys2Proof.Machine.execWswap pre d ws wc ss sc s
  | .tmma pre d a b ws wc ss sc st => Sys2Proof.Machine.execTmma pre d a b ws wc ss sc st s
  | .tmmaZ pre d a b ws wc ss sc st => Sys2Proof.Machine.execTmmaZ pre d a b ws wc ss sc st s
  | .tzero pre d ws wc ss sc => Sys2Proof.Machine.execTzero pre d ws wc ss sc s
  | .tnorm pre d ws wc ss sc => Sys2Proof.Machine.execTnorm pre d ws wc ss sc s
  | .tdrain pre d a ws wc ss sc st z => Sys2Proof.Machine.execTdrain pre d a ws wc ss sc st z s
  | .ldSOneWord pre d b e => Sys2Proof.Machine.execLdSOneWord pre d b e s
  | .ldSTwoWord pre d b sz x sc disp => Sys2Proof.Machine.execLdSTwoWord pre d b sz x sc disp s
  | .stSOneWord pre d b e => Sys2Proof.Machine.execStSOneWord pre d b e s
  | .stSTwoWord pre d b sz x sc disp => Sys2Proof.Machine.execStSTwoWord pre d b sz x sc disp s
  | .ldHOneWord pre d b r e => Sys2Proof.Machine.execLdHOneWord pre d b r e s
  | .ldHTwoWord pre d b r sz x sc disp => Sys2Proof.Machine.execLdHTwoWord pre d b r sz x sc disp s
  | .stHOneWord pre d b r e => Sys2Proof.Machine.execStHOneWord pre d b r e s
  | .stHTwoWord pre d b r sz x sc disp => Sys2Proof.Machine.execStHTwoWord pre d b r sz x sc disp s
  | .ldPOneWord pre d o c r e => Sys2Proof.Machine.execLdPOneWord pre d o c r e s
  | .ldPTwoWord pre d o c r sz x sc disp => Sys2Proof.Machine.execLdPTwoWord pre d o c r sz x sc disp s
  | .stPOneWord pre d o c r e => Sys2Proof.Machine.execStPOneWord pre d o c r e s
  | .stPTwoWord pre d o c r sz x sc disp => Sys2Proof.Machine.execStPTwoWord pre d o c r sz x sc disp s
  | .ldWOneWord pre d b r e => Sys2Proof.Machine.execLdWOneWord pre d b r e s
  | .ldWTwoWord pre d b r sz x sc disp => Sys2Proof.Machine.execLdWTwoWord pre d b r sz x sc disp s
  | .amoS pre d a b x sc op ret sz disp => Sys2Proof.Machine.execAmoS pre d a b x sc op ret sz disp s
  | .amoH pre d a b x sc op ret ord sz disp => Sys2Proof.Machine.execAmoH pre d a b x sc op ret ord sz disp s
  | .amoP pre d a b x sc op ret ord sz disp => Sys2Proof.Machine.execAmoP pre d a b x sc op ret ord sz disp s
  | .casH pre d a b n x ord sz disp => Sys2Proof.Machine.execCasH pre d a b n x ord sz disp s
  | .casP pre d a b n x ord sz disp => Sys2Proof.Machine.execCasP pre d a b n x ord sz disp s
  | .probeH pre d b k x sc disp => Sys2Proof.Machine.execProbeH pre d b k x sc disp s
  | .probeP pre d c k x sc disp => Sys2Proof.Machine.execProbeP pre d c k x sc disp s
  | .pfP pre d c r x sc disp => Sys2Proof.Machine.execPfP pre d c r x sc disp s
  | .capld pre d a imm => Sys2Proof.Machine.execCapld pre d a imm s
  | .capderive pre d a xo xl rt => Sys2Proof.Machine.execCapderive pre d a xo xl rt s
  | .capinfo pre d a sel => Sys2Proof.Machine.execCapinfo pre d a sel s
  | .commit pre => Sys2Proof.Machine.execCommit pre s
  | .xfence pre => Sys2Proof.Machine.execXfence pre s
  | .qfence pre q => Sys2Proof.Machine.execQfence pre q s
  | .sfence pre => Sys2Proof.Machine.execSfence pre s
  | .stCpaOneWord pre d b e => Sys2Proof.Machine.execStCpaOneWord pre d b e s
  | .stCpaTwoWord pre d b x sc disp => Sys2Proof.Machine.execStCpaTwoWord pre d b x sc disp s
  | .cdrain pre c => Sys2Proof.Machine.execCdrain pre c s
  | .ckick pre c a => Sys2Proof.Machine.execCkick pre c a s
  | .clink pre c a => Sys2Proof.Machine.execClink pre c a s
  | .cresume pre c a => Sys2Proof.Machine.execCresume pre c a s
  | .cstat pre d a => Sys2Proof.Machine.execCstat pre d a s
  | .bar pre j => Sys2Proof.Machine.execBar pre j s
  | .barArr pre d j => Sys2Proof.Machine.execBarArr pre d j s
  | .barWait pre a j => Sys2Proof.Machine.execBarWait pre a j s
  | .barExp pre a j => Sys2Proof.Machine.execBarExp pre a j s
  | .tokpush pre n e => Sys2Proof.Machine.execTokpush pre n e s
  | .tokpop pre n e => Sys2Proof.Machine.execTokpop pre n e s
  | .ksig pre k n e => Sys2Proof.Machine.execKsig pre k n e s
  | .kwait pre k n e => Sys2Proof.Machine.execKwait pre k n e s
  | .cntWait pre b a => Sys2Proof.Machine.execCntWait pre b a s
  | .cntAdd pre b a => Sys2Proof.Machine.execCntAdd pre b a s
  | .park pre k a => Sys2Proof.Machine.execPark pre k a s
  | .fset pre b a => Sys2Proof.Machine.execFset pre b a s
  | .gid pre d sel => Sys2Proof.Machine.execGid pre d sel s
  | .gsize pre d sel => Sys2Proof.Machine.execGsize pre d sel s
  | .gsplit pre a => Sys2Proof.Machine.execGsplit pre a s
  | .gyield pre d => Sys2Proof.Machine.execGyield pre d s
  | .gexit pre => Sys2Proof.Machine.execGexit pre s
  | .qpop pre d a => Sys2Proof.Machine.execQpop pre d a s
  | .qpush pre b a => Sys2Proof.Machine.execQpush pre b a s
  | .qtry pre d a => Sys2Proof.Machine.execQtry pre d a s
  | .qclose pre b a => Sys2Proof.Machine.execQclose pre b a s
  | .pid pre d sel => Sys2Proof.Machine.execPid pre d sel s
  | .enq pre p a => Sys2Proof.Machine.execEnq pre p a s
  | .rlcRun pre a => Sys2Proof.Machine.execRlcRun pre a s
  | .rlcNext pre n k => Sys2Proof.Machine.execRlcNext pre n k s
  | .rlcTest pre d a => Sys2Proof.Machine.execRlcTest pre d a s
  | .rlcStat pre d sel => Sys2Proof.Machine.execRlcStat pre d sel s
  | .rlcEnd pre => Sys2Proof.Machine.execRlcEnd pre s
  | .lnkStart pre d a => Sys2Proof.Machine.execLnkStart pre d a s
  | .lnkStep pre n a => Sys2Proof.Machine.execLnkStep pre n a s
  | .lnkWait pre a => Sys2Proof.Machine.execLnkWait pre a s
  | .lnkStat pre d a => Sys2Proof.Machine.execLnkStat pre d a s
  | .sqNop => Sys2Proof.Machine.execSqNop s
  | .sqCfg gi f v => Sys2Proof.Machine.execSqCfg gi f v s
  | .sqLoop k n => Sys2Proof.Machine.execSqLoop k n s
  | .sqEndl k m => Sys2Proof.Machine.execSqEndl k m s
  | .sqGet gl gr bl br n => Sys2Proof.Machine.execSqGet gl gr bl br n s
  | .sqPut gl gr bl br n => Sys2Proof.Machine.execSqPut gl gr bl br n s
  | .sqPutsig gl gr bl br o dec n => Sys2Proof.Machine.execSqPutsig gl gr bl br o dec n s
  | .sqWait n => Sys2Proof.Machine.execSqWait n s
  | .sqPost n => Sys2Proof.Machine.execSqPost n s
  | .sqFence => Sys2Proof.Machine.execSqFence s
  | .sqEv v => Sys2Proof.Machine.execSqEv v s
  | .sqHalt => Sys2Proof.Machine.execSqHalt s
  | .cntWaitReread c k => Sys2Proof.Machine.execCntWaitReread c k s
  | .gsplitRendezvous grp => Sys2Proof.Machine.execGsplitRendezvous grp s
  | .sequencerWaitEnd port => Sys2Proof.Machine.execSequencerWaitEnd port s
  | .sequencerWordFetch port => Sys2Proof.Machine.execSequencerWordFetch port s
  | .strandWaitSatisfied c k => Sys2Proof.Machine.execStrandWaitSatisfied c k s
  | .syncRendezvous c => Sys2Proof.Machine.execSyncRendezvous c s
  | .frondGroupRestart grp => Sys2Proof.Machine.execFrondGroupRestart grp s
  | .launchEnd launch => Sys2Proof.Machine.execLaunchEnd launch s
  | .btrPrefetchDone c k b => Sys2Proof.Machine.execBtrPrefetchDone c k b s
  | .copyFaultTaken c k => Sys2Proof.Machine.execCopyFaultTaken c k s
  | .instructionBreakpoint c k => Sys2Proof.Machine.execInstructionBreakpoint c k s
  | .watchpoint c k => Sys2Proof.Machine.execWatchpoint c k s
  | .strandStopTimeout c k => Sys2Proof.Machine.execStrandStopTimeout c k s
  | .vectorEntryStart c first second => Sys2Proof.Machine.execVectorEntryStart c first second s
  | .vectorEntryComplete c k => Sys2Proof.Machine.execVectorEntryComplete c k s
  | .matrixCommandStart c => Sys2Proof.Machine.execMatrixCommandStart c s
  | .matrixCommandComplete c n => Sys2Proof.Machine.execMatrixCommandComplete c n s
  | .matrixEntryRetire c => Sys2Proof.Machine.execMatrixEntryRetire c s
  | .copyQueueHandover c => Sys2Proof.Machine.execCopyQueueHandover c s
  | .transferStart c ch => Sys2Proof.Machine.execTransferStart c ch s
  | .transferElementLand c ch n elem => Sys2Proof.Machine.execTransferElementLand c ch n elem s
  | .transferSignal c ch => Sys2Proof.Machine.execTransferSignal c ch s
  | .chainEntryFetch c ch => Sys2Proof.Machine.execChainEntryFetch c ch s
  | .chainEntryReady c ch => Sys2Proof.Machine.execChainEntryReady c ch s
  | .boundaryComplete grp n => Sys2Proof.Machine.execBoundaryComplete grp n s
  | .taskRetire grp => Sys2Proof.Machine.execTaskRetire grp s
  | .groupPlace launch cores => Sys2Proof.Machine.execGroupPlace launch cores s
  | .groupLoaded grp => Sys2Proof.Machine.execGroupLoaded grp s
  | .preemptionRequest grp rows => Sys2Proof.Machine.execPreemptionRequest grp rows s
  | .groupSaved grp => Sys2Proof.Machine.execGroupSaved grp s
  | .groupResume grp cores => Sys2Proof.Machine.execGroupResume grp cores s
  | .groupRetire grp => Sys2Proof.Machine.execGroupRetire grp s
  | .tileScan c item => Sys2Proof.Machine.execTileScan c item s
  | .pieceClaim c piece => Sys2Proof.Machine.execPieceClaim c piece s
  | .pieceReadback grp rank => Sys2Proof.Machine.execPieceReadback grp rank s
  | .frondRebalance launch => Sys2Proof.Machine.execFrondRebalance launch s
  | .feedItemEnter launch => Sys2Proof.Machine.execFeedItemEnter launch s
  | .powerGood => Sys2Proof.Machine.execPowerGood s
  | .identityDerived seed => Sys2Proof.Machine.execIdentityDerived seed s
  | .pufFail => Sys2Proof.Machine.execPufFail s
  | .configurationLoaded => Sys2Proof.Machine.execConfigurationLoaded s
  | .configurationFail => Sys2Proof.Machine.execConfigurationFail s
  | .sessionTimeout => Sys2Proof.Machine.execSessionTimeout s
  | .pkgCtlDrain via deadline => Sys2Proof.Machine.execPkgCtlDrain via deadline s
  | .pkgCtlResume via => Sys2Proof.Machine.execPkgCtlResume via s
  | .pkgCtlReset via => Sys2Proof.Machine.execPkgCtlReset via s
  | .pkgPwrWrite via v => Sys2Proof.Machine.execPkgPwrWrite via v s
  | .drainDeadline => Sys2Proof.Machine.execDrainDeadline s
  | .fatalPackageError => Sys2Proof.Machine.execFatalPackageError s
  | .qlaunchWrite via q off bytes => Sys2Proof.Machine.execQlaunchWrite via q off bytes s
  | .qtailWrite via q v => Sys2Proof.Machine.execQtailWrite via q v s
  | .qctlEnable via q => Sys2Proof.Machine.execQctlEnable via q s
  | .qctlStop via q => Sys2Proof.Machine.execQctlStop via q s
  | .qctlDisable via q => Sys2Proof.Machine.execQctlDisable via q s
  | .qctlResync via q => Sys2Proof.Machine.execQctlResync via q s
  | .qctlRekeyed via q => Sys2Proof.Machine.execQctlRekeyed via q s
  | .qdescWrite via q word v => Sys2Proof.Machine.execQdescWrite via q word v s
  | .sporeConsume q => Sys2Proof.Machine.execSporeConsume q s
  | .sporeRelease q => Sys2Proof.Machine.execSporeRelease q s
  | .ctxctlCreate via ctx => Sys2Proof.Machine.execCtxctlCreate via ctx s
  | .ctxctlCodeload via ctx => Sys2Proof.Machine.execCtxctlCodeload via ctx s
  | .codeloadComplete ctx => Sys2Proof.Machine.execCodeloadComplete ctx s
  | .ctxctlInval via ctx => Sys2Proof.Machine.execCtxctlInval via ctx s
  | .invalComplete ctx => Sys2Proof.Machine.execInvalComplete ctx s
  | .ctxctlEnd via ctx => Sys2Proof.Machine.execCtxctlEnd via ctx s
  | .ctxctlBind via ctx world => Sys2Proof.Machine.execCtxctlBind via ctx world s
  | .ctxreqRead via ctx => Sys2Proof.Machine.execCtxreqRead via ctx s
  | .ctxrspWrite via ctx v => Sys2Proof.Machine.execCtxrspWrite via ctx v s
  | .keywWrite via ctx key => Sys2Proof.Machine.execKeywWrite via ctx key s
  | .keyqnWrite via ctx v => Sys2Proof.Machine.execKeyqnWrite via ctx v s
  | .dctlHalt via c k brkh => Sys2Proof.Machine.execDctlHalt via c k brkh s
  | .dctlResume via c k brkh => Sys2Proof.Machine.execDctlResume via c k brkh s
  | .dctlStep via c k brkh => Sys2Proof.Machine.execDctlStep via c k brkh s
  | .dstateWrite via c off v => Sys2Proof.Machine.execDstateWrite via c off v s
  | .atctlWrite via v => Sys2Proof.Machine.execAtctlWrite via v s
  | .attestationDone => Sys2Proof.Machine.execAttestationDone s
  | .flashUpdate recovery image => Sys2Proof.Machine.execFlashUpdate recovery image s
  | .registerWrite via off v => Sys2Proof.Machine.execRegisterWrite via off v s
  | .ucieDown die => Sys2Proof.Machine.execUcieDown die s
  | .ucieUp die => Sys2Proof.Machine.execUcieUp die s
  | .configReadbackPass bad copyGood => Sys2Proof.Machine.execConfigReadbackPass bad copyGood s
  | .hbmHourlyCount stack count => Sys2Proof.Machine.execHbmHourlyCount stack count s
  | .vgHourlyMeasure die margin => Sys2Proof.Machine.execVgHourlyMeasure die margin s
  | .hbmScrub stack line correctable => Sys2Proof.Machine.execHbmScrub stack line correctable s
  | .laserBiasSample port lane bias => Sys2Proof.Machine.execLaserBiasSample port lane bias s
  | .laserRetire port lanes => Sys2Proof.Machine.execLaserRetire port lanes s
  | .laserRetClear via port lane => Sys2Proof.Machine.execLaserRetClear via port lane s
  | .ptpMessage msg => Sys2Proof.Machine.execPtpMessage msg s
  | .syncMissed => Sys2Proof.Machine.execSyncMissed s
  | .session token => Sys2Proof.Machine.execSession token s
  | .readData tag status expiry bytes poison => Sys2Proof.Machine.execReadData tag status expiry bytes poison s
  | .writeAck tag status => Sys2Proof.Machine.execWriteAck tag status s
  | .atomicResult tag status old => Sys2Proof.Machine.execAtomicResult tag status old s
  | .renewResponse tag status expiry => Sys2Proof.Machine.execRenewResponse tag status expiry s
  | .revoke obj page => Sys2Proof.Machine.execRevoke obj page s
  | .revokeDrained obj page => Sys2Proof.Machine.execRevokeDrained obj page s
  | .leaseExpiry obj page => Sys2Proof.Machine.execLeaseExpiry obj page s
  | .leaseRenewal obj page => Sys2Proof.Machine.execLeaseRenewal obj page s
  | .frameReclaim obj page => Sys2Proof.Machine.execFrameReclaim obj page s
  | .prefetchWalk q => Sys2Proof.Machine.execPrefetchWalk q s
  | .put port tag off world bytes => Sys2Proof.Machine.execPut port tag off world bytes s
  | .putsig port tag off world bytes counter dec => Sys2Proof.Machine.execPutsig port tag off world bytes counter dec s
  | .putAck tag status => Sys2Proof.Machine.execPutAck tag status s
  | .remoteTimeout tag => Sys2Proof.Machine.execRemoteTimeout tag s
  | .retryBackoff tag port => Sys2Proof.Machine.execRetryBackoff tag port s
  | .pctlEnable via port trate => Sys2Proof.Machine.execPctlEnable via port trate s
  | .pctlDisable via port => Sys2Proof.Machine.execPctlDisable via port s
  | .pctlRetrain via port trate => Sys2Proof.Machine.execPctlRetrain via port trate s
  | .pctlBypass via port => Sys2Proof.Machine.execPctlBypass via port s
  | .pctlUnbypass via port => Sys2Proof.Machine.execPctlUnbypass via port s
  | .offer port msg => Sys2Proof.Machine.execOffer port msg s
  | .accept port msg => Sys2Proof.Machine.execAccept port msg s
  | .ready port msg => Sys2Proof.Machine.execReady port msg s
  | .retrainReq port msg => Sys2Proof.Machine.execRetrainReq port msg s
  | .restripe port msg => Sys2Proof.Machine.execRestripe port msg s
  | .trainTimeout port => Sys2Proof.Machine.execTrainTimeout port s
  | .lossOfLight port lanes => Sys2Proof.Machine.execLossOfLight port lanes s
  | .dataFlit port bytes => Sys2Proof.Machine.execDataFlit port bytes s
  | .idleFlit port bytes => Sys2Proof.Machine.execIdleFlit port bytes s
  | .nak port bytes => Sys2Proof.Machine.execNak port bytes s
  | .ackTimer port => Sys2Proof.Machine.execAckTimer port s
  | .replayTimeout port => Sys2Proof.Machine.execReplayTimeout port s
  | .powerLoss => Sys2Proof.Machine.execPowerLoss s
  | .illegalEncoding => Sys2Proof.Machine.execIllegalEncoding s
  | .fetchFault => Sys2Proof.Machine.execFetchFault s
  | .codewordLockGained port lane => Sys2Proof.Machine.execCodewordLockGained port lane s
  | .delayReqInterval => Sys2Proof.Machine.execDelayReqInterval s
  | .announceReceiptTimeout master => Sys2Proof.Machine.execAnnounceReceiptTimeout master s
  | .lasingMinute port lane => Sys2Proof.Machine.execLasingMinute port lane s

end Sys2Proof.Machine
end

