-- ==== Sys2Proof/Machine/Clock.lean ====
section
/-! DEFINITION. The end of a clock: what the updates of one clock come to together. Barriers are tested
(spec/13_barrier.md R261), semaphore increments are added (R266), groups that `park`, `gyield`, `gexit` or a
pre-emption request take off their cores stop (spec/12_group.md R252, R254, R259; spec/05_strand.md R82, R109), fatal
errors and containments take effect (spec/16_context.md R327, spec/10_phase.md R217), fronds rebalance
(spec/14_kernel.md R288), the package reaches QUIESCED (spec/01_package.md R22), and the clock's journal records are
written in their order (spec/15_queue.md R317). -/

namespace Sys2Proof.Machine

/-- Every strand of the group stops at its instruction boundary, without a drain (R82): a strand between two
instructions or WAITING stops at once. -/
def Strand.asked (t : Strand) : Strand :=
  let t := { t with stopSoon := true }
  match t.life with
  | .done => { t with stopSoon := false }
  | .waiting => if t.outs = 0 then t.stopMarked else t
  | .halted => if t.rests then t.stopMarked else t
  | .saved => { t with stopSoon := false }
  | .free => { t with stopSoon := false }
  | _ => if t.between then t.stopMarked else t

/-- The group is descheduled by `park` or `gyield`: its strands stop and its engines are gated (R252, R259). -/
def State.deschedule (s : State) (g : Nat) : State :=
  match s.groups.find? g with
  | none => s
  | some x =>
    let s := s.modGroup g (fun y => { y with st := .saving, yielding := true, leave := none })
    x.cores.foldl (fun s c => (s.gateFreely c).modCore c (fun k => k.mapStrands Strand.asked)) s

/-- A strand that a `gexit` of its group reaches (R259): DONE, but for one inside an instruction it has issued, which
takes effect first. -/
def Strand.exits (t : Strand) : Strand :=
  if t.outs != 0 || t.micro.stage != 0 && (t.life == .running || t.life == .handler) then { t with ending := true } else t.ended

/-- The strands of a core whose group exits: one that full FIFOs alone hold is DONE, too. -/
def Core.exits (c : Core) : Core :=
  let held := (c.strands.filter (fun e => c.fifoHeld e.1)).map (fun e => e.1)
  { c with strands := (List.range 8).foldl (fun t k => t.set {} k (if held.contains k then (t.get {} k).ended else (t.get {} k).exits)) c.strands
           out := c.out.filter (fun e => !held.contains e.k) }

/-- The strands of a group that exits stop; with all of them DONE the group goes to EXITING (R252, R259): owed faults are
discarded. -/
def State.exitGroup (s : State) (g : Nat) : State :=
  match s.groups.find? g with
  | none => s
  | some x =>
    let s := x.cores.foldl (fun s c => s.modCore c Core.exits) s
    if x.cores.all (fun c => (s.coreAt c).allDone) then
      let s := x.cores.foldl (fun s c => s.modCore c (fun k =>
        let k := k.ungate
        { k with channels := k.channels.map (fun (e : Nat × Channel) => (e.1, { e.2 with fpend := false })) })) s
      { s with waitTable := s.waitTable.filter (fun w => w.grp != g) }.modGroup g
        (fun y => { y with st := .exiting, preemptAt := none, yielding := false, leave := none, parking := none })
    else s

/-- The strands of a group under pre-emption that stand at a stop point are SAVED (spec/05_strand.md R109), with the halt mark
where a `brk` has halted one since (R82). -/
def State.stopPreempted (s : State) (x : Group) : State :=
  x.cores.foldl (fun s c => s.modCore c (fun k => k.mapStrands (fun t =>
    if t.preemptAt.isSome && (t.between && (t.life == .running || t.life == .handler) || t.rests) then
      (if t.life = .halted then t.stopMarked else t.atBoundary)
    else t))) s

/-- The strands of a group that are to stop at the next instruction boundary in any case, and that full FIFOs alone hold, stop:
with the engines gated nothing makes room. What is held retires when the group goes on (log entry 57). -/
def State.stopHeld (s : State) (x : Group) : State :=
  x.cores.foldl (fun s c => s.modCore c (fun k =>
    { k with strands := k.strands.map (fun e =>
        (e.1, if e.2.stopSoon && !e.2.ending && k.fifoHeld e.1 then e.2.stopMarked else e.2)) })) s

/-- What the end of a clock does to a group (R252, R254): an exit before a park or a yield. A group whose future was
filled while it was being saved has been PARKED and is SAVED. -/
def State.groupClock (s : State) (g : Nat) : State :=
  match s.groups.find? g with
  | none => s
  | some x =>
    if x.contain.isSome then s
    else if x.leave = some .exits && (x.st == .running || x.st == .saving) then s.exitGroup g
    else if x.st = .running then
      match x.leave with
      | some .exits => s
      | some _ => s.deschedule g
      | none => if x.preemptAt.isSome then (s.stopPreempted x).stopHeld x else s
    else if x.st = .saving then s.stopHeld x
    else if x.st = .parked && (match x.parking with | some p => p.filled | none => false) then
      s.modGroup g (fun y => { y with st := .saved })
    else s

/-- A semaphore whose increments of the clock take it past 65,535 is fatal (spec/13_barrier.md R266). -/
def Core.overflows (c : Core) : Bool := c.sem.any (fun e => decide (65535 < e.2.count + lotsCount e.2.inc))
def State.semTests (s : State) : State :=
  (s.cores.filter (fun e => e.2.overflows)).foldl (fun s e => s.fatal (s.coreCtx e.1) 0x82) s

/-- The fatal errors of the clock take effect (spec/16_context.md R326, R327). -/
def State.fatals (s : State) : State :=
  s.contexts.foldl (fun s e => match e.2.dying with | some c => s.fatalNow e.1 c | none => s) s

/-- A containment in a frond stops the frond's other groups too, which end with it (spec/14_kernel.md R287). -/
def State.sweep (s : State) (g : Nat) (x : Group) (cause : BitVec 8) : State :=
  if x.pinna.isNone then s
  else (s.liveGroups x.launch).foldl (fun s h => if h = g then s
    else s.modGroup h (fun y => if y.contain.isSome then y else { y with contain := some cause, swept := true })) s

/-- Another group of the frond has a boundary in progress, whose writes stay committed (R217, spec/14_kernel.md R287). -/
def State.siblingsPublish (s : State) (g : Nat) (x : Group) : Bool :=
  x.pinna.isSome && (s.liveGroups x.launch).any (fun h => h != g && (match s.groups.find? h with
    | some y => !y.fenced && !y.ver.bounds.isEmpty
    | none => false))

/-- The containment of a group takes effect once no boundary of it is in progress. A FENCED one waits for none: what the
pool has not applied is lost, and frames that received it are DROPPED (spec/10_phase.md R217, spec/09_page.md R186). -/
def State.contained (s : State) (g : Nat) : State :=
  match s.groups.find? g with
  | none => s
  | some x =>
    match x.contain with
    | none => s
    | some c =>
      let s := (s.sweep g x c).stopSeqs g c
      if x.swept || (!x.fenced && !x.ver.bounds.isEmpty) || s.siblingsPublish g x then s
      else
        let s := if x.fenced then x.ver.bounds.foldl (fun s b => b.punits.foldl (fun s u => s.frameReject u.bytes) s) s else s
        (s.containNow g c).endLaunch x.launch
def State.containments (s : State) : State := (s.groups.map (fun e => e.1)).foldl State.contained s

/-- The fronds whose rebalancing step is due take it. -/
def State.rebalances (s : State) : State := (s.launches.map (fun e => e.1)).foldl State.rebalance s

/-- The drain deadline of the clock, and the end of the drain (spec/01_package.md R22). -/
def State.drained (s : State) : State :=
  let s := if s.pkg.deadlineNow && s.pkg.st == .draining then s.deadline else s
  { s with pkg := { s.pkg with deadlineNow := false } }.drainTest

/-- A context with no group to place has a deficit of 0 (spec/15_queue.md R312), once none of its groups is on cores either:
a placed one keeps its deficit (spec/22_programs_scheduling.md R415; log entry 64). -/
def State.deficits (s : State) : State :=
  (s.contexts.filter (fun e => e.2.deficit != 0)).foldl (fun s e =>
    if s.waiting.any (fun w => w.ctx == e.1) || s.groups.any (fun x => x.2.ctx == e.1 && x.2.st.resident) then s else s.modCtx e.1 (fun c => { c with deficit := 0 })) s

/-- A BUSY channel with no transfer left and no chain entry ready is IDLE (spec/11_copy.md R242). -/
def State.channelsRest (s : State) : State :=
  s.cores.foldl (fun s e => (e.2.channels.filter (fun k => k.2.st == .busy)).foldl (fun s k => s.chanRest e.1 k.1) s) s

/-- The groups whose saving is due are saved (R327). -/
def State.saves (s : State) : State := (s.groups.map (fun e => e.1)).foldl State.saveGroup s

/-- The end of the present clock. -/
def State.clockEnd (s : State) : State :=
  let s := s.cores.foldl (fun s e => s.passOver e.1) s
  let s := s.boundsEnd.barTests.semTests
  let s := (s.groups.map (fun e => e.1)).foldl State.groupClock s
  s.fatals.containments.saves.rebalances.drained.channelsRest.deficits.journalFlush

/-- `n` clocks pass: the present one ends first. A frame that begins before the last of them has its rebalancing steps
in its own clock, in which nothing else happens. -/
def State.advance (s : State) (n : Nat) : State :=
  if n = 0 then s
  else
    let s := s.clockEnd
    if n = 1 then s.elapse 1 else ((s.elapse (n - 1)).rebalances).elapse 1

end Sys2Proof.Machine
end

