-- ==== Sys2Proof/Machine/Order.lean ====
section
/-! DEFINITION. The order in which the movers of one clock come where the spec gives one. A mover claims a rank at
each seat that it comes to; one that comes after a higher rank of the same clock moves one clock later (log entry 8). -/

namespace Sys2Proof.Machine

/-- Takes from a FIFO come before pushes into it (spec/05_strand.md R89), and at a semaphore the strands come before the
heads of the C, M and V queues (spec/13_barrier.md R266, R423). -/
def Engine.semRank : Engine → Nat | .S => 0 | .C => 8 | .M => 9 | .V => 10

/-- The seats at which an engine's entry takes its tokens and its count. -/
def takeSeats (c : Nat) (i : Instr) : List (Seat × Nat) :=
  let p := instrPre i
  let e := instrEngine i
  let w := waitCount i
  (if p.wp then [(.fifo c e.wp, 0)] else []) ++ (if p.wn then [(.fifo c e.wn, 0)] else []) ++
  (if w.2 = 0 then [] else [(.sem c w.1, e.semRank)])

/-- The seats at which an engine's entry pushes its tokens. -/
def pushSeats (c : Nat) (i : Instr) : List (Seat × Nat) :=
  let p := instrPre i
  let e := instrEngine i
  (if p.sp then [(.fifo c e.sp, 8)] else []) ++ (if p.sn then [(.fifo c e.sn, 8)] else [])

/-- The number of an engine's queue; entries are made before its engine works on the queue. -/
def Engine.queue : Engine → Nat | .S => 0 | .C => 1 | .M => 2 | .V => 3

/-- What the engines' events claim, the feed and the rebalancing step of a frond (spec/14_kernel.md R285, R288), and the answer to a
session request. -/
def State.engineClaims (s : State) : Instr → List (Seat × Nat)
  | .vectorEntryStart c a b =>
    (.entry c Engine.V.queue, 1) :: ((s.coreAt c).vq.filter (fun e => e.id == a || some e.id == b)).flatMap (fun e => takeSeats c e.instr)
  | .vectorEntryComplete c k =>
    (.entry c Engine.V.queue, 1) :: (match (s.coreAt c).vq.find? (fun e => e.owner == k) with
      | some e => pushSeats c e.instr | none => [])
  | .matrixCommandStart c =>
    (.entry c Engine.M.queue, 1) :: (match (s.coreAt c).mq.find? (fun e => e.st == .queued) with
      | some e => takeSeats c e.instr | none => [])
  | .matrixCommandComplete c _ => [(.entry c Engine.M.queue, 1), (.status c, 1)]
  | .matrixEntryRetire c =>
    (.entry c Engine.M.queue, 1) :: (match (s.coreAt c).mq with | e :: _ => pushSeats c e.instr | [] => [])
  | .copyQueueHandover c =>
    (.entry c Engine.C.queue, 1) :: (match (s.coreAt c).cq with
      | e :: _ => (if e.taken then [] else takeSeats c e.instr) ++ pushSeats c e.instr
      | [] => [])
  | .feedItemEnter l => match s.frondOf l with
    | some f => [(.rachis l f.feedQueue, 1)]
    | none => []
  | .frondRebalance l => match s.frondOf l with
    | some f => (List.range f.queues.length).map (fun q => (.rachis l q, 3))
    | none => []
  | .session _ => (s.pool.remotes.filter (fun e => e.2.kind == .session)).map (fun e => (.remote e.1, 0))
  | _ => []

/-- What a register write of the windows claims: as the command that it brings (spec/19_host.md R384). -/
def writeClaims (via : Via) (off : Nat) (v : Word) : List (Seat × Nat) :=
  let q := (off - 0x100000) / 256
  if off = 0x08 then
    (if via = .host then (match bitsOf v 0 2 with | 1 => [(.drain, 0)] | 3 => [(.package, 1)] | _ => []) else [])
  else if 0x100000 ≤ off ∧ off < 0x140000 then
    if off % 256 ≤ 0x80 then [(.queue q, 1)]
    else if off % 256 = 0x90 ∧ (bitsOf v 0 4 = 2 ∨ bitsOf v 0 4 = 3) then [(.queue q, 0)]
    else []
  else if 0x400000 ≤ off ∧ off < 0x600000 ∧ off % 512 = 0x80 then
    (match bitsOf v 0 4 with | 2 => [(.context ((off - 0x400000) / 512), 1)] | 4 => [(.context ((off - 0x400000) / 512), 0)] | _ => [])
  else []

/-- The tag of the response that a flit completes. -/
def answeredTag (bytes : List Byte) : List Nat :=
  match receiveFlit bytes with
  | .good h _ => if h.kind = 1 ∧ h.last ∧ h.opc.getLsbD 7 then [h.tag] else []
  | _ => []

/-- What host operations and the command complex claim (spec/15_queue.md R319, spec/16_context.md R327, spec/01_package.md
R22), and a response and the end of its request's time (spec/18_link.md R368). -/
def eventClaims : Instr → List (Seat × Nat)
  | .qctlStop _ q => [(.queue q, 0)]
  | .qctlDisable _ q => [(.queue q, 0)]
  | .qlaunchWrite _ q _ _ => [(.queue q, 1)]
  | .qtailWrite _ q _ => [(.queue q, 1)]
  | .sporeConsume q => [(.queue q, 1)]
  | .sporeRelease q => [(.queue q, 1), (.drain, 1)]
  | .pkgCtlDrain via _ => if via = .host then [(.drain, 0)] else []
  | .ctxctlEnd _ n => [(.context n, 0)]
  | .ctxctlCodeload _ n => [(.context n, 1)]
  | .pkgCtlReset via => if via = .host then [(.package, 1)] else []
  | .powerLoss => [(.package, 1)]
  | .registerWrite via off v => writeClaims via off v
  | .readData tag _ _ _ _ => [(.remote tag, 0)]
  | .writeAck tag _ => [(.remote tag, 0)]
  | .atomicResult tag _ _ => [(.remote tag, 0)]
  | .renewResponse tag _ _ => [(.remote tag, 0)]
  | .putAck tag _ => [(.remote tag, 0)]
  | .dataFlit _ bytes => (answeredTag bytes).map (fun t => (.remote t, 0))
  | .remoteTimeout tag => [(.remote tag, 1)]
  | .retryBackoff tag _ => [(.remote tag, 1)]
  | _ => []

/-- The rachis queue that the moving strand's operand names, with a rank: takes, entries, closes, the
rebalancing step (spec/14_kernel.md R285, R288). -/
def State.rachisSeat (s : State) (a : BitVec 6) (rank : Nat) : List (Seat × Nat) :=
  match s.myFrond with
  | none => []
  | some (l, _, _) => [(.rachis l (bitsOf (s.me.rd a).v 0 3), rank)]

/-- What the effect of a strand's instruction claims: the format queue (spec/08_tile.md R156), the status file (R166), the
refinement controller (spec/17_refinement.md R360), a rachis queue, the group that parks (spec/13_barrier.md R273), and the
queue of an `enq`. -/
def State.effectClaims (s : State) (i : Instr) : List (Seat × Nat) :=
  let c := s.core
  let k := s.strand
  match i with
  | .fpush _ _ => [(.words c, 8 + k)]
  | .tstat _ _ => [(.status c, 0)]
  | .tstatClr _ _ _ => [(.status c, 0)]
  | .rlcRun _ _ => [(.rlc c, k)]
  | .rlcNext _ _ _ => [(.rlc c, k)]
  | .rlcTest _ _ _ => [(.rlc c, k)]
  | .rlcStat _ _ _ => [(.rlc c, k)]
  | .rlcEnd _ => [(.rlc c, k)]
  | .qpop _ _ a => s.rachisSeat a 0
  | .qtry _ _ a => s.rachisSeat a 0
  | .qpush _ _ a => s.rachisSeat a 1
  | .qclose _ _ a => s.rachisSeat a 2
  | .park _ _ _ => match s.myGroup with
    | none => []
    | some (g, x) => [(.group g, rankIn x.cores c * 8 + k)]
  | .enq _ _ a => [(.queue (bitsOf (s.me.rd a).v 8 10), 1)]
  | i => if (tcmd i).isSome then [(.words c, k)] else []

/-- What a strand's issue claims: inside a rendezvous the strands come in ascending order (spec/05_strand.md R87), else in
the rotating order of each FIFO or semaphore (R89, spec/13_barrier.md R266). Engine queues order their entries
themselves. -/
def State.issueClaims (s : State) (i : Instr) : List (Seat × Nat) :=
  let c := s.core
  let k := s.strand
  let rank := fun key => if s.me.released then k else (s.myCore.rot key).rank k
  let needs := sNeeds i (tokenCount i)
  let sems := needs.filter (fun e => decide (8 ≤ e.1))
  let ring : List (Seat × Nat) := (if sems.isEmpty then needs else sems).map (fun e =>
    if e.1 < 8 then (.fifo c e.1, rank e.1) else (.sem c (e.1 - 8), rank e.1))
  (.strand c k, 0) :: (if instrEngine i = .S then ring else [(.entry c (instrEngine i).queue, 0)]) ++ s.effectClaims i

/-- What the moving strand claims with an instruction: a wait that ends, a trap and a rendezvous that is not complete
claim nothing. -/
def State.strandClaims (s : State) (i : Instr) : List (Seat × Nat) :=
  match i with
  | .strandWaitSatisfied _ _ => []
  | .copyFaultTaken _ _ => []
  | .instructionBreakpoint _ _ => []
  | .watchpoint _ _ => []
  | i =>
    if syncHeld i s.me then []
    else
      (if s.me.micro.stage = 0 then s.issueClaims i else if s.me.micro.stage = 9 then [] else s.effectClaims i) ++
      (sPushes i).map (fun f => (.fifo s.core f, 8 + (s.myCore.rot (32 + f)).rank s.strand))

/-- What a rendezvous claims: what its strands do (spec/05_strand.md R87). -/
def State.syncClaims (s : State) : Instr → List (Seat × Nat)
  | .syncRendezvous c => (List.range 8).flatMap (fun k =>
      if (s.strandAt c k).life = .running then
        let s := { s.modStrand c k (fun t => { t with released := true }) with core := c, strand := k }
        s.strandClaims s.pcInstr
      else [])
  | _ => []

/-- What a mover claims in the present clock. -/
def State.claims (s : State) (m : Mover) : List (Seat × Nat) :=
  match s.turnInstr m with
  | none => match m with
    | .ahead _ _ => if s.me.micro.stage = 0 then s.issueClaims s.pcInstr else []
    | .behind c id => match (s.coreAt c).out.find? (fun e => e.id == id) with
      | some e => (sPushes e.instr).map (fun f => (.fifo c f, 8 + ((s.coreAt c).rot (32 + f)).rank e.k))
      | none => []
    | .unit c id _ => if (s.coreAt c).vq.any (fun e => e.id == id && !e.opened) then s.engineClaims (.vectorEntryStart c id none) else []
    | _ => []
  | some i => match m with
    | .strand _ _ => s.strandClaims i
    | _ => s.engineClaims i ++ eventClaims i ++ s.syncClaims i

/-- How far the present clock has come at a seat. -/
def State.reached (s : State) (x : Seat) : Option Nat := (s.order.find? (fun e => e.1 == x)).map (fun e => e.2)

/-- A claim comes too late in its clock. A strand issues once in a clock (R91). -/
def State.tooLate (s : State) (e : Seat × Nat) : Bool :=
  match s.reached e.1, e.1 with
  | none, _ => false
  | some _, .strand _ _ => true
  | some r, _ => decide (e.2 < r)

/-- A lead that takes an item in a clock in which its frond rebalances sees the mark (spec/14_kernel.md R297). -/
def State.beforeMark (s : State) (m : Mover) : Bool :=
  match s.turnInstr m, s.myFrond with
  | some (.qpop _ _ _), some (_, f, _) => f.due (s.pkg.ns / 10000)
  | some (.qtry _ _ _), some (_, f, _) => f.due (s.pkg.ns / 10000)
  | _, _ => false

/-- The strand whose turn it is issues in a rendezvous that has completed. -/
def State.freed (s : State) : Mover → Bool
  | .strand _ _ => s.me.released && s.me.micro.stage == 0
  | _ => false

/-- The mover moves one clock later: something that comes after it has happened already in the present clock; a
reset comes last (spec/01_package.md R22), and a rendezvous is the only issue of its strands in its clock, in which all of them
issue (spec/05_strand.md R87). -/
def State.slips (s : State) (m : Mover) : Bool :=
  (s.reached .package).isSome || !s.freed m && ((s.claims m).any s.tooLate || s.beforeMark m) ||
  (match m with
   | .event (.syncRendezvous c) => s.order.any (fun e => match e.1 with | .strand c' _ => c' == c | _ => false)
   | _ => false)

/-- The claims of a mover are noted. -/
def State.noteClaims (s : State) (m : Mover) : State :=
  let seat := fun (l : List (Seat × Nat)) (e : Seat × Nat) => match l.find? (fun x => x.1 == e.1) with
    | none => e :: l
    | some r => (e.1, max r.2 e.2) :: l.filter (fun x => x.1 != e.1)
  { s with order := (s.claims m).foldl seat s.order }

/-- A reset comes last in its clock, after all that the clock's end brings (spec/01_package.md R22). -/
def State.beforeReset (s : State) (m : Mover) : State :=
  if (s.claims m).any (fun e => e.1 == .package) then s.clockEnd.focus m else s

/-- The state in which a turn's mover moves: its clocks have passed, and one more where it comes too late in its clock. -/
def State.turnFor (s : State) (t : Turn × List Turn) : State :=
  let s := (({ s with schedule := t.2 } : State).advance t.1.clocks).focus t.1.mover
  ((if s.slips t.1.mover then (s.advance 1).focus t.1.mover else s).beforeReset t.1.mover).noteClaims t.1.mover

end Sys2Proof.Machine
end

