-- ==== Sys2Proof/Machine/Overlap.lean ====
section
/-! DEFINITION. S instructions that later ones of their strand overtake (spec/05_strand.md R86): an instruction leaves the strand
before it is performed, in a copy of the strand that keeps what it reads; it is performed
there after the older ones that it must not overtake (spec/09_page.md R180), and retires after all older ones. -/

namespace Sys2Proof.Machine

/-- What a step comes to, where it goes on. -/
def nextOf : Res → Option State
  | .next s => some s
  | _ => none

/-- The moving strand leaves instruction `i` behind, performed or not, and goes on at `pc`. -/
def State.leaveBehind (s : State) (i : Instr) (snap : Strand) (done : Bool) (pc : BitVec 48) : State :=
  let n := s.fresh
  let t := s.me
  let t := if done then t else match owedDest i with | some d => t.result d { pend := some n.1 } | none => t
  let t := ({ t with outs := t.outs + 1 } : Strand).retire pc
  let e : Out := { id := n.1, k := s.strand, instr := i, snap := { snap with behind := true }, done := done }
  (n.2.setMe t).modCore s.core (fun c => { c with out := c.out ++ [e] })

/-- Instruction `i`, which later ones may leave behind, issues at the moving strand, in whose copy it will not trap, and the
strand goes on. -/
def State.issueAhead (s : State) (i : Instr) : State :=
  let t := s.me
  if !guardOpen i t || syncHeld i t || (instrSrcs i).any t.owed || !leavable i || accesses i && !s.requestRoom s.core then s
  else match s.myCore.grant s.strand i 1 with
    | none => s
    | some (c, m) =>
      let s1 := (s.setCore s.core c).modMe (fun t => t.learn m)
      let snap := { s1.me with behind := true }
      match nextOf (exec i (s1.setMe snap)) with
      | none => s
      | some s2 =>
        if s2.me.micro.stage = 0 || s2.me.hidden != t.hidden then s
        else (s.issuedIn s1).leaveBehind i snap false (t.pc + instrSize i)

/-- The moving strand goes on to its next instruction although the present one has not retired (R86): one that is performed and
waits to retire, one that is held for room, or one that waits inside. -/
def State.goAhead (s : State) : State :=
  let t := s.me
  match s.strandInstr with
  | none => s
  | some i =>
    if t.life == .halted || t.life == .waiting || t.stops then s
    else if t.micro.stage = 9 then s.leaveBehind i t true (t.micro.v.extractLsb' 0 48)
    else if t.micro.stage = 0 then s.issueAhead i
    else if !leavable i then s
    else if t.micro.stage = 8 then s.leaveBehind i { t with micro := {} } false (t.pc + instrSize i)
    else s.leaveBehind i t false (t.pc + instrSize i)

/-- Replace an outstanding instruction, or drop it. -/
def Core.setOut (c : Core) (id : Nat) (e : Option Out) : Core :=
  { c with out := c.out.flatMap (fun x => if x.id = id then e.toList else [x]) }

/-- What an instruction has learned precedes every later one of its strand, those outstanding too (spec/10_phase.md R213,
R214). -/
def Core.learnBehind (c : Core) (id k : Nat) (m : Mark) : Core :=
  { c with out := c.out.takeWhile (fun x => x.id != id) ++ (c.out.dropWhile (fun x => x.id != id)).map (fun x =>
      if x.k = k ∧ x.id ≠ id then { x with snap := x.snap.learn m } else x) }

/-- Strand `t` once an overtaken instruction of it has been performed in `snap`: the value owed is delivered, and what the
access has learned is known. -/
def Strand.performed (t : Strand) (e : Out) (snap : Strand) (done : Bool) : Strand :=
  let t := { t.learn snap.mark with watchHit := t.watchHit || snap.watchHit }
  if !done then t
  else match owedDest e.instr with | some _ => t.deliver e.id (snap.lFile.get {} 0) | none => t

/-- Outstanding instruction `e` of the moving strand `t`, its oldest and performed, retires (R86, R88): in `s` the strand is the
copy in which it has been performed. -/
def State.retireBehind (s : State) (t : Strand) (e : Out) : State :=
  ((pushed e.instr s).setMe ({ t with outs := t.outs - 1 } : Strand).settleStop).modCore s.core (fun co => co.setOut e.id none)

/-- An instruction whose effect takes place only as it retires: it pushes, or accesses no memory. -/
def Out.atRetirement (e : Out) : Bool := !(sPushes e.instr).isEmpty || !accesses e.instr && e.snap.micro.stage == 0

/-- An outstanding instruction of a core is performed, or goes on, once no older one of its strand stands before it; a
performed one retires in its strand's order (R86, R88). -/
def State.performBehind (s : State) (c id : Nat) : State :=
  match (s.coreAt c).out.find? (fun e => e.id == id) with
  | none => s
  | some e =>
    let s : State := { s with core := c, strand := e.k, seqTurn := false }
    let t := s.me
    let older := ((s.coreAt c).out.takeWhile (fun x => x.id != id)).filter (fun x => x.k == e.k)
    let room := (s.coreAt c).pushRoom e.k e.instr
    if e.done then
      if !older.isEmpty then s
      else if room then (s.setMe e.snap).retireBehind t e
      else s.modCore c (fun co => co.refusedPush e.instr)
    else if !(if e.atRetirement then older.isEmpty
        else e.snap.micro.stage != 0 || (older.filter (fun x => !x.done)).all (fun x => overtakes (x.snap, x.instr) (e.snap, e.instr))) then s
    else match nextOf (exec e.instr (s.setMe e.snap)) with
      | none => s
      | some s2 =>
        let snap := s2.me
        let done := snap.micro.stage == 9
        let t' := t.performed e snap done
        if done && e.atRetirement then
          if room then (s2.modCore c (fun co => co.learnBehind id e.k snap.mark)).retireBehind t' e
          else s.modCore c (fun co => (co.refusedPush e.instr).setOut id
            (some { e with snap := { e.snap with micro := { e.snap.micro with held := true } } }))
        else ((s2.setMe t').modCore c (fun co => co.setOut id (some { e with snap := snap, done := done }))).modCore c
          (fun co => co.learnBehind id e.k snap.mark)

/-- The group of core `c` runs its strands. -/
def State.strandsRun (s : State) (c : Nat) : Bool :=
  match (s.groupOf c).bind (fun g => s.groups.find? g) with
  | none => false
  | some x => x.contain.isNone && (x.st == .running || x.st == .saving) && s.pkg.st != .failed

/-- What a turn does where no instruction, event or host operation is performed at a strand's `PC`. -/
def State.others (s : State) : Mover → State
  | .ahead c _ => if s.strandsRun c then s.goAhead else s
  | .behind c id => if s.strandsRun c then s.performBehind c id else s
  | .unit c id u => if s.pkg.st = .failed then s else (s.vectorUnit c id u).matrixUnit c id u
  | .land c ch n e x u => if s.pkg.st = .failed then s else s.landUnit c ch n e x u
  | m => s.outside m

end Sys2Proof.Machine
end

