-- ==== Sys2Proof/Machine/Step.lean ====
section
/-! DEFINITION. One step of the package: the next turn of the schedule. And the placing of one
instruction where the next step fetches it. -/

namespace Sys2Proof.Machine

/-- The state in which the next turn's mover moves: the turn is taken from the schedule and its clocks have passed. -/
def State.turn (s : State) : State := s.turnFor s.nextTurn

/-- One step. -/
def step (s : State) : Host.Outcome State Fault Refusal :=
  match s.turn.turnInstr s.nextTurn.1.mover with
  | some i => exec i s.turn
  | none => .next (s.turn.others s.nextTurn.1.mover)

/-- `s` with one instruction stored where the next step fetches it. -/
def State.withFetchWord (s : State) (nbits w : Nat) : State := s.placeWord nbits w

end Sys2Proof.Machine
end

