-- ==== Sys2Proof/Safety.lean ====
section
/-! DEFINITION. What counts as a safe step, and the terms in which claims speak of an instruction that issues and
retires (spec/05_strand.md R84 to R90). -/

namespace Sys2Proof.Machine

/-- The step answers a next state: no rule of the spec stops the package. -/
def SafeAt (s : State) : Prop := ∃ t, step s = .next t

/-- The memories of the package, and what it has written of the host's, are in their canonical form. -/
def State.canonical (s : State) : Bool := s.hbm.wf && s.sealed.wf && s.weights.wf && Tbl.canonical 0 s.host

/-- Instruction `i` of the moving strand passes checks 3 to 7 of R84, its ring bits taking `n` tokens each; no older S
instruction of the strand is outstanding where `i` is one (R86), and the core has a request free for an access
(spec/01_package.md R14). -/
def State.issues (s : State) (i : Instr) (n : Nat) : Bool :=
  decide (s.me.micro.stage = 0) && !s.me.behind && guardOpen i s.me && !(instrSrcs i).any s.me.owed && !syncHeld i s.me &&
  (if instrEngine i = .S then s.me.outs == 0 && s.mayIssue i && (s.myCore.grant s.strand i n).isSome else s.mayDispatch i)

/-- The state in which its effect is performed: an S instruction has taken its ring tokens (R88). -/
def State.granted (s : State) (i : Instr) (n : Nat) : State :=
  if instrEngine i = .S then
    match s.myCore.grant s.strand i n with
    | some (c, m) => (s.setCore s.core c).modMe (fun t => t.learn m)
    | none => s
  else s

/-- The moving strand stands inside its instruction, which has yet to be performed. -/
def State.inside (s : State) : Bool := decide (0 < s.me.micro.stage ∧ s.me.micro.stage < 8)

/-- Instruction `i` issues, or has issued and stands inside its wait (R82). -/
def State.runs (s : State) (i : Instr) : Bool := s.inside || s.issues i 1

/-- The state in which its effect is performed or goes on: it takes its tokens once, when it issues. -/
def State.entered (s : State) (i : Instr) : State := if s.me.micro.stage = 0 then s.granted i 1 else s

/-- Nothing holds the retirement of `i` in `s'`: the FIFOs that it pushes have room and no strand comes before it there
(R88, R89), and its strand has no older instruction outstanding (R86); only an S instruction retires at the strand. -/
def State.hasRoom (s : State) (i : Instr) (s' : State) : Bool :=
  instrEngine i != .S || (!(s.issuedIn s').me.behind && (s.issuedIn s').me.outs == 0 &&
    (s.issuedIn s').myCore.pushRoom (s.issuedIn s').strand i)

/-- The state after `i`, which issued in `s` and whose effect led to `s'`, has retired with the strand at `pc`. An
instruction of another engine only leaves the strand: its engine retires it (R86). -/
def State.after (s : State) (i : Instr) (s' : State) (pc : BitVec 48) : State :=
  if instrEngine i = .S then Machine.retired i (s.issuedIn s') pc else (s.issuedIn s').modMe (fun t => t.retire pc)

/-- The same, at the instruction that follows. -/
def State.afterNext (s : State) (i : Instr) (s' : State) : State := s.after i s' (s.me.pc + instrSize i)

end Sys2Proof.Machine
end

