-- ==== Sys2Proof/Certificates/Slice0/Obligations.lean ====
section
/-! DEFINITION. The statements for the provers. The terms `issues`, `granted`, `hasRoom`, `after` and `afterNext` are
those of Safety.lean: an instruction that passes the checks of R84, the state in which its effect is performed, the
room that its token pushes need, and the state after it has retired. -/

namespace Sys2Proof.Claims

open Sys2Proof.Machine

/-- A result computed from two registers: poisoned where either is (R112). -/
def two (t : Strand) (d a b : BitVec 6) (f : Word → Word → Word) : Option (BitVec 6 × Reg) :=
  some (d, { v := f (t.rd a).v (t.rd b).v, poison := (t.rd a).poison || (t.rd b).poison })

/-- A result computed from one register. -/
def one (t : Strand) (d a : BitVec 6) (f : Word → Word) : Option (BitVec 6 × Reg) :=
  some (d, { v := f (t.rd a).v, poison := (t.rd a).poison })

/-- The destination and the result of the scalar instructions of R115 to R119, R121 to R124 and R127, and of `bget`
(R98). -/
def scalarValue (i : Instr) (t : Strand) : Option (BitVec 6 × Reg) :=
  match i with
  | .add _ d a b => two t d a b (fun x y => x + y)
  | .sub _ d a b => two t d a b (fun x y => x - y)
  | .mul _ d a b => two t d a b (fun x y => x * y)
  | .mulh _ d a b => two t d a b (fun x y => BitVec.ofInt 64 (x.toInt * y.toInt / 2 ^ 64))
  | .mulhu _ d a b => two t d a b (fun x y => BitVec.ofNat 64 (x.toNat * y.toNat / 2 ^ 64))
  | .min _ d a b => two t d a b (fun x y => if x.toInt < y.toInt then x else y)
  | .max _ d a b => two t d a b (fun x y => if x.toInt < y.toInt then y else x)
  | .minu _ d a b => two t d a b (fun x y => if x.toNat < y.toNat then x else y)
  | .maxu _ d a b => two t d a b (fun x y => if x.toNat < y.toNat then y else x)
  | .and _ d a b => two t d a b (fun x y => x &&& y)
  | .or _ d a b => two t d a b (fun x y => x ||| y)
  | .xor _ d a b => two t d a b (fun x y => x ^^^ y)
  | .andn _ d a b => two t d a b (fun x y => x &&& ~~~ y)
  | .orn _ d a b => two t d a b (fun x y => x ||| ~~~ y)
  | .sll _ d a b => two t d a b (fun x y => x <<< (y.toNat % 64))
  | .srl _ d a b => two t d a b (fun x y => x >>> (y.toNat % 64))
  | .sra _ d a b => two t d a b (fun x y => x.sshiftRight (y.toNat % 64))
  | .rotr _ d a b => two t d a b (fun x y => x.rotateRight (y.toNat % 64))
  | .addi _ d a k => one t d a (fun x => x + k.signExtend 64)
  | .slli _ d a k => one t d a (fun x => x <<< k.toNat)
  | .srli _ d a k => one t d a (fun x => x >>> k.toNat)
  | .srai _ d a k => one t d a (fun x => x.sshiftRight k.toNat)
  | .clz _ d a => one t d a (fun x => BitVec.ofNat 64 ((List.range 64).takeWhile (fun k => !x.getLsbD (63 - k))).length)
  | .ctz _ d a => one t d a (fun x => BitVec.ofNat 64 ((List.range 64).takeWhile (fun k => !x.getLsbD k)).length)
  | .popc _ d a => one t d a (fun x => BitVec.ofNat 64 ((List.range 64).filter (fun k => x.getLsbD k)).length)
  | .sextB _ d a => one t d a (fun x => (x.extractLsb' 0 8).signExtend 64)
  | .sextH _ d a => one t d a (fun x => (x.extractLsb' 0 16).signExtend 64)
  | .sextW _ d a => one t d a (fun x => (x.extractLsb' 0 32).signExtend 64)
  | .zextB _ d a => one t d a (fun x => (x.extractLsb' 0 8).setWidth 64)
  | .zextH _ d a => one t d a (fun x => (x.extractLsb' 0 16).setWidth 64)
  | .zextW _ d a => one t d a (fun x => (x.extractLsb' 0 32).setWidth 64)
  | .pget _ d => some (d, { v := BitVec.ofNat 64 ((List.range 16).foldl (fun n k => n + (t.rdP k).v.toNat * 2 ^ k) 0)
                            poison := (List.range 16).any (fun k => (t.rdP k).poison) })
  | .movi _ d k => some (d, { v := k.signExtend 64 })
  | .movhi _ d k => one t d d (fun x => (x <<< 12) + k.setWidth 64)
  | .lea _ d b x sc k => two t d b x (fun p q => p + (q <<< sc.toNat) + k.signExtend 64)
  | .div _ d a b => two t d a b (fun x y => if y = 0 then BitVec.allOnes 64 else BitVec.ofInt 64 (x.toInt.tdiv y.toInt))
  | .divu _ d a b => two t d a b (fun x y => if y = 0 then BitVec.allOnes 64 else BitVec.ofNat 64 (x.toNat / y.toNat))
  | .rem _ d a b => two t d a b (fun x y => if y = 0 then x else BitVec.ofInt 64 (x.toInt.tmod y.toInt))
  | .remu _ d a b => two t d a b (fun x y => if y = 0 then x else BitVec.ofNat 64 (x.toNat % y.toNat))
  | .sel _ d a b p e =>
    let q := t.rdP p.toNat
    let r := if (if e = 0 then q.v else !q.v) then t.rd a else t.rd b
    some (d, { v := r.v, poison := q.poison || r.poison })
  | .bfx _ d a pos wm => one t d a (fun x => BitVec.ofNat 64 (x.toNat / 2 ^ pos.toNat % 2 ^ (wm.toNat + 1)))
  | .bfxS _ d a pos wm => one t d a (fun x =>
      let n := x.toNat / 2 ^ pos.toNat % 2 ^ (wm.toNat + 1)
      if 2 ^ wm.toNat ≤ n then BitVec.ofInt 64 ((n : Int) - 2 ^ (wm.toNat + 1)) else BitVec.ofNat 64 n)
  | .bfi _ d a b pos wm => two t d a b (fun x y =>
      let m := BitVec.ofNat 64 ((2 ^ (wm.toNat + 1) - 1) * 2 ^ pos.toNat)
      (x &&& ~~~ m) ||| ((y <<< pos.toNat) &&& m))
  | .bget _ d b => some (d, { v := if (t.btr b.toNat).st = .empty then 0 else (t.btr b.toNat).target.setWidth 64 })
  | .bgetMeta _ d b =>
    let r := t.btr b.toNat
    let code : BitVec 8 := match r.st with | .empty => 0 | .preparing => 1 | .ready => 2 | .faulted => 3
    some (d, { v := r.cgen ++ (r.fgen ++ ((if r.st = .faulted then r.cause else 0) ++ code)) })
  | _ => none

/-- The destination and the result of the predicate instructions of R125 and R126. -/
def predicateValue (i : Instr) (t : Strand) : Option (BitVec 4 × PBit) :=
  let cmp := fun (p : BitVec 4) (a b : Reg) (r : Bool) => some (p, ({ v := r, poison := a.poison || b.poison } : PBit))
  let signed := fun (c : BitVec 2) (p : BitVec 4) (a b : Reg) =>
    cmp p a b (match c.toNat with
      | 0 => a.v == b.v | 1 => a.v != b.v | 2 => decide (a.v.toInt < b.v.toInt) | _ => decide (a.v.toInt ≤ b.v.toInt))
  let unsigned := fun (c : BitVec 2) (p : BitVec 4) (a b : Reg) =>
    cmp p a b (match c.toNat with
      | 0 => decide (a.v.toNat < b.v.toNat) | 1 => decide (a.v.toNat ≤ b.v.toNat)
      | 2 => (a.v &&& b.v) == 0 | _ => (a.v &&& b.v) != 0)
  let logic := fun (p : BitVec 4) (a b : Nat) (f : Bool → Bool → Bool) =>
    some (p, ({ v := f (t.rdP a).v (t.rdP b).v, poison := (t.rdP a).poison || (t.rdP b).poison } : PBit))
  match i with
  | .cmp _ c p a b => signed c p (t.rd a) (t.rd b)
  | .cmpUnsignedTest _ c p a b => unsigned c p (t.rd a) (t.rd b)
  | .cmpi _ c p a k => signed c p (t.rd a) { v := k.signExtend 64 }
  | .cmpiUnsignedTest _ c p a k => unsigned c p (t.rd a) { v := k.setWidth 64 }
  | .pand _ p a b => logic p a.toNat b.toNat (fun x y => x && y)
  | .por _ p a b => logic p a.toNat b.toNat (fun x y => x || y)
  | .pxor _ p a b => logic p a.toNat b.toNat (fun x y => x != y)
  | .pandn _ p a b => logic p a.toNat b.toNat (fun x y => x && !y)
  | _ => none

/-- What a branch-target instruction leaves in its register (R96, R97, R99), the strand being `t` and its context's
code generation `cgen`; none where a source is poisoned. -/
def btrValue (i : Instr) (t : Strand) (cgen : BitVec 32) : Option (Nat × Btr) :=
  let prepared := fun (a : BitVec 48) => ({ target := a, st := .preparing, cgen := cgen, fgen := t.fgen } : Btr)
  let clean := fun (a : BitVec 6) (x : Nat × Btr) => if (t.rd a).poison then none else some x
  match i with
  | .bprep _ b o =>
    let a : Int := t.pc.toNat + 4 * o.toInt
    some (b.toNat, if a < 0 ∨ 2 ^ 48 ≤ a then { t.btr b.toNat with st := .faulted, cause := 0x03 }
      else prepared (BitVec.ofInt 48 a))
  | .bprepi _ b a =>
    let v := (t.rd a).v
    clean a (b.toNat,
      if v.extractLsb' 48 16 ≠ 0 then { t.btr b.toNat with st := .faulted, cause := 0x03, target := 0 }
      else if v.extractLsb' 0 2 ≠ 0 then { t.btr b.toNat with st := .faulted, cause := 0x01, target := v.extractLsb' 0 48 }
      else prepared (v.extractLsb' 0 48))
  | .bprepiMeta _ b a =>
    let v := (t.rd a).v
    let r := t.btr b.toNat
    let c := v.extractLsb' 8 8
    clean a (b.toNat, match (v.extractLsb' 0 2).toNat with
      | 0 => { r with st := .empty, cause := 0 }
      | 3 => { r with st := .faulted, cause := if c = 0x03 ∨ c = 0x04 ∨ c = 0x01 then c else 0x01 }
      | _ => { r with st := .preparing, cause := 0, cgen := v.extractLsb' 32 32, fgen := v.extractLsb' 16 16 })
  | .binv _ b => some (b.toNat, {})
  | _ => none

/-- The register, the predicate, the sense and the link of a transfer (R100). -/
def transferOf : Instr → Option (BitVec 3 × BitVec 4 × BitVec 1 × Bool)
  | .jmp _ b p e => some (b, p, e, false)
  | .call _ b p e => some (b, p, e, true)
  | _ => none

/-- The predicate of a `jmp`, `call`, `lbreak` or `sel` holds in the stated sense. -/
def holds (t : Strand) (p : BitVec 4) (e : BitVec 1) : Bool := if e = 0 then (t.rdP p.toNat).v else !(t.rdP p.toNat).v

/-- What a loop instruction leaves in the strand, and the address it goes on at (R106 to R108). `asked` is the
PreemptRequest of R107. -/
def loopAfter (i : Instr) (t : Strand) : Option (Strand × BitVec 48) :=
  let next := t.pc + 4
  let opened := fun (rot : BitVec 1) (depth : BitVec 2) (n : Word) =>
    let e : LoopEntry := { remain := n, rot := rot == 1, depth := depth, start := next.extractLsb' 2 46 }
    let sg : BitVec 4 := if n = 0 then 0 else 1
    match t.loops, t.inHandler with
    | [], false => some ({ t with loops := [e], rb := 0, sg := sg }, next)
    | [top], false => some ({ t with loops := [{ e with outer := t.sg }, { top with nest := true }], sg := sg }, next)
    | _, _ => none
  match i with
  | .lsetupReg _ r d a => if (t.rd a).poison then none else opened r d (t.rd a).v
  | .lsetupImm _ r d k => opened r d (k.setWidth 64)
  | .lclose _ =>
    match t.loops with
    | [] => none
    | e :: rest =>
      let words : Int := ((t.pc.toNat / 4 : Nat) : Int) - e.start.toNat + 1
      if e.nest = false ∧ 64 < words then none
      else
        let remain := if t.sg.getLsbD 0 then e.remain - 1 else e.remain
        let asked := t.preemptAt.isSome
        let feed := decide (remain ≠ 0) && !asked && !e.brk
        let sg := ((t.sg <<< 1) &&& BitVec.ofNat 4 (2 ^ (e.depth.toNat + 1) - 2)) ||| (if feed then 1 else 0)
        let rb := if e.rot then t.rb + 1 else t.rb
        let start : BitVec 48 := e.start ++ 0#2
        some (
          if sg ≠ 0 then ({ t with rb := rb, sg := sg, loops := { e with remain := remain } :: rest }, start)
          else if asked ∧ remain ≠ 0 ∧ e.brk = false then
            ({ t with rb := rb, sg := sg, loops := { e with remain := remain, susp := true } :: rest }, start)
          else ({ t with rb := rb, loops := rest, sg := if rest = [] then 0xF else e.outer }, next))
  | .lbreak _ p e =>
    if (t.rdP p.toNat).poison then none
    else match t.loops with
      | [] => none
      | top :: rest => some (if holds t p e then { t with loops := { top with brk := true } :: rest } else t, next)
  | _ => none

/-- What a system, group or counter read writes (R258, R346, R347); none where it traps PRIV. -/
def systemValue (i : Instr) (s : State) : Option (BitVec 6 × Word) :=
  let t := s.me
  let mine := fun (f : Group → Word) => match s.myGroup with | none => (0 : Word) | some (_, x) => f x
  let rank := fun (x : Group) => rankIn x.cores s.core
  let sub := fun (x : Group) => x.subOf (rank x)
  let launch := fun (f : Launch → Word) (x : Group) => match s.launches.find? x.launch with | none => (0 : Word) | some l => f l
  match i with
  | .sysrd _ d r =>
    (match r.toNat with
     | 0 => some (if t.inHandler then t.epc else 0)
     | 1 => some (if t.inHandler then t.ecause else 0)
     | 2 => some (if t.inHandler then t.einfo else 0)
     | 3 => some (if t.inHandler then t.einfo2 else 0)
     | 4 => some ((s.ctxAt s.myCtx).world ++ (0#44 ++ BitVec.ofNat 12 s.myCtx))
     | 5 => some (BitVec.ofNat 64 s.pkg.ns)
     | 6 => some (BitVec.ofNat 64 (s.pkg.ns / 10000))
     | 7 => some (piecesPresent s)
     | 9 => some t.svrsp
     | _ => none).map (fun v => (d, v))
  | .pcrd _ d c k => some (d, if 10 ≤ k.toNat then 0
      else if c = 0 then s.myCore.counters.get 0 k.toNat else s.ctxCounter s.myCtx k.toNat)
  | .gid _ d k => some (d, mine (fun x => match k.toNat with
      | 0 => BitVec.ofNat 64 (rank x)
      | 1 => BitVec.ofNat 64 s.strand
      | 2 => x.taskValue
      | 3 => BitVec.ofNat 64 (sub x)
      | _ => BitVec.ofNat 64 (rank x - x.subLo (sub x))))
  | .gsize _ d k => some (d, mine (fun x => match k.toNat with
      | 0 => BitVec.ofNat 64 x.size
      | 1 => launch (fun l => match l.frond with | some f => BitVec.ofNat 64 f.nitems | none => BitVec.ofNat 64 l.ntasks) x
      | 2 => BitVec.ofNat 64 x.nsub
      | _ => BitVec.ofNat 64 (x.subHi (sub x) - x.subLo (sub x))))
  | _ => none

/-- What a vector instruction reads at issue. -/
structure VectorRead where
  /-- the scalar destination it will owe -/
  owes : Option (BitVec 6) := none
  s1 : Reg := {}
  s2 : Reg := {}
  s3 : Reg := {}
  addr : Int := 0
  deriving DecidableEq, Repr

/-- What a vector instruction reads at issue: the scalar destination it will owe, where it has one, its scalar operands, and
the exact address of its access; none where it does not dispatch (R134, R137 to R153, R198). -/
def vectorReads (i : Instr) (t : Strand) : Option VectorRead :=
  let bc := fun (f : BitVec 6) => if 48 ≤ f.toNat ∧ f.toNat < 60 then t.rd f else ({} : Reg)
  let two := fun (a b : BitVec 6) => some ({ s1 := bc a, s2 := bc b } : VectorRead)
  let access := fun (a : Int) (poison : Bool) (data : Reg) =>
    if poison then none else some ({ s2 := data, addr := a } : VectorRead)
  let short := fun (b : BitVec 6) (e : BitVec 4) => access ((t.rd b).v.toNat + 256 * e.toInt) (t.rd b).poison
  let long := fun (b x : BitVec 6) (sc : BitVec 2) (disp : BitVec 20) =>
    access ((t.rd b).v.toNat + (t.rd x).v.toNat * 2 ^ sc.toNat + disp.toInt) ((t.rd b).poison || (t.rd x).poison)
  match i with
  | .vadd _ _ a b => two a b
  | .vsub _ _ a b => two a b
  | .vmul _ _ a b => two a b
  | .vfma _ _ a b => two a b
  | .vfms _ _ a b => two a b
  | .vfnma _ _ a b => two a b
  | .vmin _ _ a b => two a b
  | .vmax _ _ a b => two a b
  | .vand _ _ a b => two a b
  | .vor _ _ a b => two a b
  | .vxor _ _ a b => two a b
  | .vsll _ _ a b => two a b
  | .vsrl _ _ a b => two a b
  | .vsra _ _ a b => two a b
  | .vcmp _ _ _ a b => two a b
  | .vsel _ _ a b _ => two a b
  | .vperm _ _ a b => two a b
  | .vcvtTo _ _ a _ => two a 60
  | .vcvtFrom _ _ a _ => two a 60
  | .vmov _ _ a => two a 60
  | .vredSum _ _ a => two a 60
  | .vredMax _ _ a => two a 60
  | .vredMin _ _ a => two a 60
  | .vredAnd _ _ a => two a 60
  | .vredOr _ _ a => two a 60
  | .vscanSum _ _ a => two a 60
  | .vscanMax _ _ a => two a 60
  | .vscanMin _ _ a => two a 60
  | .vscanAnd _ _ a => two a 60
  | .vscanOr _ _ a => two a 60
  | .vfnExp2 _ _ a => two a 60
  | .vfnLog2 _ _ a => two a 60
  | .vfnRcp _ _ a => two a 60
  | .vfnRsqrt _ _ a => two a 60
  | .vfnSqrt _ _ a => two a 60
  | .vpack _ _ _ _ => two 60 60
  | .vunpack _ _ _ _ => two 60 60
  | .vtrn _ _ _ _ => two 60 60
  | .mand _ _ _ _ => two 60 60
  | .mor _ _ _ _ => two 60 60
  | .mnot _ _ _ => two 60 60
  | .vsplat _ _ a => some { s1 := t.rd a }
  | .vins _ _ a b => some { s1 := t.rd a, s2 := t.rd b }
  | .vext _ d a b => some { owes := some d, s1 := bc a, s2 := t.rd b }
  | .mpopc _ d _ => some { owes := some d }
  | .mfirst _ d _ => some { owes := some d }
  | .vcfg _ d a sel =>
    let r := t.rd a
    let et := r.v.toNat % 16
    if r.poison || (sel.getLsbD 0 && (decide (8 < et) || et == 3)) then none else some { owes := some d, s1 := r }
  | .vldSOneWord _ _ b e => short b e {}
  | .vldSTwoWord _ _ b x sc disp => long b x sc disp {}
  | .vstSOneWord _ d b e => short b e (bc d)
  | .vstSTwoWord _ d b x sc disp => long b x sc disp (bc d)
  | .vgathS _ _ a b => if (t.rd b).poison then none else some { s1 := t.rd b, s2 := bc a }
  | .vscatS _ d a b => if (t.rd b).poison then none else some { s1 := t.rd b, s2 := bc a, s3 := bc d }
  | _ => none

/-- Element `k` of `w` bits of a vector register (R128). -/
def elem (w k : Nat) (v : BitVec 2048) : Nat := v.toNat / 2 ^ (w * k) % 2 ^ w

/-- The destination, the new value of element `k` and the sources' poison of the instructions that work element by
element (R137, R144, R149), for an entry with its strand and settings `x`. -/
def vectorElement (e : VEntry) (x : VCtx) : Option (BitVec 6 × (Nat → Nat) × Bool) :=
  let w := x.cfg.w
  let src := fun (a : BitVec 6) (r : Reg) => x.t.vsrc x.rb x.cfg a r
  let two := fun (d a b : BitVec 6) (f : Nat → Nat → Nat) =>
    some (d, fun (k : Nat) => f (elem w k (src a e.s1).v) (elem w k (src b e.s2).v), (src a e.s1).poison || (src b e.s2).poison)
  let arith := fun (op : VOp) (d a b : BitVec 6) => two d a b (fun p q => vArith op x.cfg p q 0)
  let fused := fun (op : VOp) (d a b : BitVec 6) =>
    some (d, fun (k : Nat) => vArith op x.cfg (elem w k (src a e.s1).v) (elem w k (src b e.s2).v) (elem w k (x.t.vold x.rb d).v),
      (src a e.s1).poison || (src b e.s2).poison || (x.t.vold x.rb d).poison)
  let fn := fun (n : Nat) (d a : BitVec 6) =>
    some (d, fun (k : Nat) => (match fmtOf x.cfg.et with
      | some f => vfnBits n f x.cfg.mode x.cfg.sat (f.value (elem w k (src a e.s1).v))
      | none => 0), (src a e.s1).poison)
  match e.instr with
  | .vadd _ d a b => arith .add d a b
  | .vsub _ d a b => arith .sub d a b
  | .vmul _ d a b => arith .mul d a b
  | .vmin _ d a b => arith .min d a b
  | .vmax _ d a b => arith .max d a b
  | .vfma _ d a b => fused .fma d a b
  | .vfms _ d a b => fused .fms d a b
  | .vfnma _ d a b => fused .fnma d a b
  | .vand _ d a b => two d a b (fun p q => p &&& q)
  | .vor _ d a b => two d a b (fun p q => p ||| q)
  | .vxor _ d a b => two d a b (fun p q => p ^^^ q)
  | .vsll _ d a b => two d a b (fun p q => p * 2 ^ (q % w))
  | .vsrl _ d a b => two d a b (fun p q => p / 2 ^ (q % w))
  | .vsra _ d a b => two d a b (fun p q => ((BitVec.ofNat w p).sshiftRight (q % w)).toNat)
  | .vmov _ d a => some (d, fun (k : Nat) => elem w k (src a e.s1).v, (src a e.s1).poison)
  | .vsplat _ d _ => some (d, fun (_ : Nat) => formElem x.cfg e.s1.v, e.s1.poison)
  | .vfnExp2 _ d a => fn 0 d a
  | .vfnLog2 _ d a => fn 1 d a
  | .vfnRcp _ d a => fn 2 d a
  | .vfnRsqrt _ d a => fn 3 d a
  | .vfnSqrt _ d a => fn 4 d a
  | _ => none

/-- The tree of R148 over 2^h lanes from lane `lo` on, which pairs neighbours at every level. -/
def tree (op : Nat) (c : VCfg) (lane : Nat → Option Nat) : Nat → Nat → Option Nat
  | 0, lo => lane lo
  | h + 1, lo => vComb op c (tree op c lane h lo) (tree op c lane h (lo + 2 ^ h))

/-- Lane `k` of a reduction's source: absent where it is not active. -/
def lane (x : VCtx) (v : BitVec 2048) (k : Nat) : Option Nat := if x.am.bit k then some (elem x.cfg.w k v) else none

/-- The destination, the new value of element `k` and the poison of the instructions that write every element, whatever the
active mask (R140, R145, R146, R148), for an entry with its strand and settings `x`. -/
def vectorWhole (e : VEntry) (x : VCtx) : Option (BitVec 6 × (Nat → Nat) × Bool) :=
  let w := x.cfg.w
  let n := x.cfg.n
  let src := fun (a : BitVec 6) (r : Reg) => x.t.vsrc x.rb x.cfg a r
  let red := fun (op : Nat) (d a : BitVec 6) =>
    let r := src a e.s1
    some (d, fun (_ : Nat) => (tree op x.cfg (lane x r.v) (Nat.log2 n) 0).getD (if op = 3 then 2 ^ w - 1 else 0),
      r.poison || x.am.poison)
  match e.instr with
  | .vsel _ d a b m =>
    let k' := x.t.rdM m.toNat
    some (d, fun (k : Nat) => if k'.bit k then elem w k (src a e.s1).v else elem w k (src b e.s2).v,
      k'.poison || ((src a e.s1).poison && (List.range n).any (fun k => k'.bit k)) ||
        ((src b e.s2).poison && (List.range n).any (fun k => !k'.bit k)))
  | .vins _ d _ _ =>
    let old := x.t.vold x.rb d
    some (d, fun (k : Nat) => if k = e.s2.v.toNat % n then formElem x.cfg e.s1.v else elem w k old.v,
      old.poison || e.s1.poison || e.s2.poison)
  | .vperm _ d a b =>
    some (d, fun (k : Nat) => (let i := elem w k (src b e.s2).v; if i < n then elem w i (src a e.s1).v else 0),
      (src a e.s1).poison || (src b e.s2).poison)
  | .vredSum _ d a => red 0 d a
  | .vredMax _ d a => red 1 d a
  | .vredMin _ d a => red 2 d a
  | .vredAnd _ d a => red 3 d a
  | .vredOr _ d a => red 4 d a
  | _ => none

/-- The operation, the destination and the source of a scan (R148). -/
def vectorScan : Instr → Option (Nat × BitVec 6 × BitVec 6)
  | .vscanSum _ d a => some (0, d, a)
  | .vscanMax _ d a => some (1, d, a)
  | .vscanMin _ d a => some (2, d, a)
  | .vscanAnd _ d a => some (3, d, a)
  | .vscanOr _ d a => some (4, d, a)
  | _ => none

/-- The destination, the source, and the source's and the result's format of a conversion (R141). -/
def vectorConvert (i : Instr) (et : Nat) : Option (BitVec 6 × BitVec 6 × Nat × Nat) :=
  match i with
  | .vcvtTo _ d a f => some (d, a, et, f.toNat)
  | .vcvtFrom _ d a f => some (d, a, f.toNat, et)
  | _ => none

/-- The scalar result of `vext`, `mpopc` and `mfirst` (R145, R150). -/
def vectorScalar (e : VEntry) (x : VCtx) : Option Reg :=
  match e.instr with
  | .vext _ _ a _ =>
    let r := x.t.vsrc x.rb x.cfg a e.s1
    let v := elem x.cfg.w (e.s2.v.toNat % x.cfg.n) r.v
    some { v := if (fmtOf x.cfg.et).isSome then BitVec.ofNat 64 v else BitVec.ofInt 64 (BitVec.ofNat x.cfg.w v).toInt
           poison := r.poison || e.s2.poison }
  | .mpopc _ _ a =>
    let m := x.t.rdM a.toNat
    some { v := BitVec.ofNat 64 ((List.range x.cfg.n).filter (fun k => m.v.getLsbD k)).length, poison := m.poison }
  | .mfirst _ _ a =>
    let m := x.t.rdM a.toNat
    some { v := BitVec.ofNat 64 ((List.range x.cfg.n).takeWhile (fun k => !m.v.getLsbD k)).length, poison := m.poison }
  | _ => none

/-- The destination and the result of `mand`, `mor` and `mnot` (R150). -/
def maskResult (i : Instr) (t : Strand) : Option (Nat × MReg) :=
  let two := fun (d a : BitVec 6) (b : Nat) (f : BitVec 256 → BitVec 256 → BitVec 256) =>
    some (d.toNat, ({ v := f (t.rdM a.toNat).v (t.rdM b).v, poison := (t.rdM a.toNat).poison || (t.rdM b).poison } : MReg))
  match i with
  | .mand _ d a b => two d a b.toNat (fun p q => p &&& q)
  | .mor _ d a b => two d a b.toNat (fun p q => p ||| q)
  | .mnot _ d a => some (d.toNat, { v := ~~~ (t.rdM a.toNat).v, poison := (t.rdM a.toNat).poison })
  | _ => none

/-- A 256-byte access of the scratchpad: whether it stores, and its vector register (R152). -/
def vectorAccess : Instr → Option (Bool × BitVec 6)
  | .vldSOneWord _ d _ _ => some (false, d)
  | .vldSTwoWord _ d _ _ _ _ => some (false, d)
  | .vstSOneWord _ d _ _ => some (true, d)
  | .vstSTwoWord _ d _ _ _ _ => some (true, d)
  | _ => none

/-- The operands in fields a and b of a tile command (R156). -/
def tileOperands : Instr → Option (BitVec 6 × BitVec 6)
  | .tcfg _ _ a _ _ _ _ => some (a, 60)
  | .wload _ _ a b _ _ _ _ _ => some (a, b)
  | .wswap _ _ _ _ _ _ => some (60, 60)
  | .tmma _ _ a b _ _ _ _ _ => some (a, b)
  | .tmmaZ _ _ a b _ _ _ _ _ => some (a, b)
  | .tzero _ _ _ _ _ _ => some (60, 60)
  | .tnorm _ _ _ _ _ _ => some (60, 60)
  | .tdrain _ _ a _ _ _ _ _ _ => some (a, 60)
  | _ => none

/-- A memory access: whether it stores, the register it loads or stores, its exact address (R9), the address's poison, and
its bytes. -/
structure Access where
  store : Bool
  reg : BitVec 6
  addr : Int
  poison : Bool
  bytes : Nat
  deriving DecidableEq, Repr

/-- The address of a one-word form, and of a form with an extension word (R32, R35). -/
def shortAddr (t : Strand) (b : BitVec 6) (e : BitVec 4) : Int := (t.rd b).v.toNat + 8 * e.toInt
def longAddr (t : Strand) (b x : BitVec 6) (sc : BitVec 2) (disp : BitVec 20) : Int :=
  (t.rd b).v.toNat + (t.rd x).v.toNat * 2 ^ sc.toNat + disp.toInt
/-- The offset of a two-word P form. -/
def longOff (t : Strand) (x : BitVec 6) (sc : BitVec 2) (disp : BitVec 20) : Int :=
  (t.rd x).v.toNat * 2 ^ sc.toNat + disp.toInt
def shortAccess (store : Bool) (d b : BitVec 6) (e : BitVec 4) (t : Strand) : Option Access :=
  some { store := store, reg := d, addr := shortAddr t b e, poison := (t.rd b).poison, bytes := 8 }
def longAccess (store : Bool) (d b : BitVec 6) (sz : BitVec 2) (x : BitVec 6) (sc : BitVec 2) (disp : BitVec 20)
    (t : Strand) : Option Access :=
  some { store := store, reg := d, addr := longAddr t b x sc disp, poison := (t.rd b).poison || (t.rd x).poison,
         bytes := 2 ^ sz.toNat }

/-- The loads and stores of the scratchpad, of H space and of the weight window (R202). -/
def accessS (i : Instr) (t : Strand) : Option Access :=
  match i with
  | .ldSOneWord _ d b e => shortAccess false d b e t
  | .ldSTwoWord _ d b sz x sc disp => longAccess false d b sz x sc disp t
  | .stSOneWord _ d b e => shortAccess true d b e t
  | .stSTwoWord _ d b sz x sc disp => longAccess true d b sz x sc disp t
  | _ => none
def accessH (i : Instr) (t : Strand) : Option Access :=
  match i with
  | .ldHOneWord _ d b _ e => shortAccess false d b e t
  | .ldHTwoWord _ d b _ sz x sc disp => longAccess false d b sz x sc disp t
  | .stHOneWord _ d b _ e => shortAccess true d b e t
  | .stHTwoWord _ d b _ sz x sc disp => longAccess true d b sz x sc disp t
  | _ => none
def accessW (i : Instr) (t : Strand) : Option Access :=
  match i with
  | .ldWOneWord _ d b _ e => shortAccess false d b e t
  | .ldWTwoWord _ d b _ sz x sc disp => longAccess false d b sz x sc disp t
  | _ => none

/-- The loads and stores of P space: the access, whose address is the offset in the window of the capability register
named, its order field and its reuse hint (R34, R202). -/
def accessP (i : Instr) (t : Strand) : Option (Access × BitVec 4 × BitVec 2 × BitVec 2) :=
  let short := fun (store : Bool) (d : BitVec 6) (e : BitVec 4) =>
    ({ store := store, reg := d, addr := 8 * e.toInt, poison := false, bytes := 8 } : Access)
  let long := fun (store : Bool) (d : BitVec 6) (sz : BitVec 2) (x : BitVec 6) (sc : BitVec 2) (disp : BitVec 20) =>
    ({ store := store, reg := d, addr := longOff t x sc disp, poison := (t.rd x).poison, bytes := 2 ^ sz.toNat } : Access)
  match i with
  | .ldPOneWord _ d o c r e => some (short false d e, c, o, r)
  | .ldPTwoWord _ d o c r sz x sc disp => some (long false d sz x sc disp, c, o, r)
  | .stPOneWord _ d o c r e => some (short true d e, c, o, r)
  | .stPTwoWord _ d o c r sz x sc disp => some (long true d sz x sc disp, c, o, r)
  | _ => none

/-- What a load leaves: its result, and for an acquire the strand's refresh point (R202, R211). -/
def afterLoad (s : State) (d : BitVec 6) (acquire : Bool) (bytes : List Byte) (poison : Bool) : State :=
  (if acquire then s.beginPhase else s).modMe (fun t => t.result d { v := BitVec.ofNat 64 (natLE bytes), poison := poison })

/-- An atomic at its home: address, bytes, poison of its data, the value it stores for an old one, the register that
takes the old value where it does, and its order field (R204, R205). -/
structure Atomic where
  addr : Int
  addrPoison : Bool
  bytes : Nat
  poison : Bool
  update : Word → Option Word
  ret : Option (BitVec 6)
  ord : BitVec 2

def atomicAddr (t : Strand) (a x : BitVec 6) (sc : BitVec 2) (disp : BitVec 13) (n : Nat) : Int :=
  (t.rd a).v.toNat + (t.rd x).v.toNat * 2 ^ sc.toNat + disp.toInt * n

def atomicH (i : Instr) (t : Strand) : Option Atomic :=
  match i with
  | .amoH _ d a b x sc op ret ord sz disp =>
    let n := if sz = 0 then 4 else 8
    some { addr := atomicAddr t a x sc disp n, addrPoison := (t.rd a).poison || (t.rd x).poison, bytes := n,
           poison := (t.rd b).poison, update := fun old => some (amoResult op n old (t.rd b).v),
           ret := if ret = 1 then some d else none, ord := ord }
  | .casH _ d a b m x ord sz disp =>
    let n := if sz = 0 then 4 else 8
    some { addr := atomicAddr t a x 0 disp n, addrPoison := (t.rd a).poison || (t.rd x).poison, bytes := n,
           poison := (t.rd b).poison || (t.rd m).poison,
           update := fun old => if old.toNat % 2 ^ (8 * n) = (t.rd b).v.toNat % 2 ^ (8 * n) then some (t.rd m).v else none,
           ret := some d, ord := ord }
  | _ => none

/-- The pool's operation of a P atomic: capability register, offset, its poison, bytes, data poison, operation, operand,
compare value, whether it compares, result register and order (R204, R205). -/
structure PoolAtomic where
  cap : BitVec 4
  off : Int
  offPoison : Bool
  bytes : Nat
  poison : Bool
  op : BitVec 3
  x : Word
  cmp : Word
  cas : Bool
  ret : Option (BitVec 6)
  ord : BitVec 2
  deriving DecidableEq, Repr

def atomicP (i : Instr) (t : Strand) : Option PoolAtomic :=
  match i with
  | .amoP _ d a b x sc op ret ord sz disp =>
    let n := if sz = 0 then 4 else 8
    some { cap := a.extractLsb' 0 4, off := atomicAddr t 60 x sc disp n, offPoison := (t.rd x).poison, bytes := n,
           poison := (t.rd b).poison, op := op, x := (t.rd b).v, cmp := 0, cas := false,
           ret := if ret = 1 then some d else none, ord := ord }
  | .casP _ d a b m x ord sz disp =>
    let n := if sz = 0 then 4 else 8
    some { cap := a.extractLsb' 0 4, off := atomicAddr t 60 x 0 disp n, offPoison := (t.rd x).poison, bytes := n,
           poison := (t.rd b).poison || (t.rd m).poison, op := 6, x := (t.rd m).v, cmp := (t.rd b).v, cas := true,
           ret := some d, ord := ord }
  | _ => none

/-- The old value in its register, where there is one. -/
def returned (s : State) (ret : Option (BitVec 6)) (old : Word) : State :=
  match ret with | some d => s.modMe (fun t => t.result d { v := old }) | none => s

/-- The data register and the aperture address of a `st.cpa`, with the address's poison (R238). -/
def apertureStore (i : Instr) (t : Strand) : Option (BitVec 6 × Int × Bool) :=
  match i with
  | .stCpaOneWord _ d b e => some (d, shortAddr t b e, (t.rd b).poison)
  | .stCpaTwoWord _ d b x sc disp => some (d, longAddr t b x sc disp, (t.rd b).poison || (t.rd x).poison)
  | _ => none

end Sys2Proof.Claims

open Sys2Proof Sys2Proof.Machine Sys2Proof.Claims

/-- Every scalar instruction of R115 to R119, R121 to R124 and R127, and `bget`, that issues writes its result to its
destination and to l0 and retires. -/
def Sys2Proof.Claims.ScalarInstructionWritesItsResult : Prop :=
  ∀ (i : Instr) (s : State) (d : BitVec 6) (r : Reg), scalarValue i s.me = some (d, r) → s.issues i 1 = true →
    s.hasRoom i ((s.granted i 1).modMe (fun t => t.result d r)) = true →
    exec i s = .next (s.afterNext i ((s.granted i 1).modMe (fun t => t.result d r)))

/-- Every compare and predicate instruction that issues writes its predicate and retires; p0 keeps reading 1. -/
def Sys2Proof.Claims.PredicateInstructionWritesItsPredicate : Prop :=
  ∀ (i : Instr) (s : State) (p : BitVec 4) (b : PBit), predicateValue i s.me = some (p, b) → s.issues i 1 = true →
    s.hasRoom i ((s.granted i 1).modMe (fun t => if p = 0 then t else { t with p := t.p.set {} p.toNat b })) = true →
    exec i s = .next (s.afterNext i
      ((s.granted i 1).modMe (fun t => if p = 0 then t else { t with p := t.p.set {} p.toNat b })))

/-- The branch-target instructions that issue write their register and retire; a target that cannot be prepared is
recorded in it and traps nothing. That `binv` leaves the generations 0, and that a restored EMPTY or FAULTED register
keeps them, are the model's choices (log entry 55). -/
def Sys2Proof.Claims.BranchTargetInstructionWritesItsRegister : Prop :=
  ∀ (i : Instr) (s : State) (n : Nat) (r : Btr), btrValue i (s.granted i 1).me (s.ctxAt s.myCtx).cgen = some (n, r) →
    s.issues i 1 = true →
    s.hasRoom i ((s.granted i 1).modMe (fun t => { t with b := t.b.set {} n r })) = true →
    exec i s = .next (s.afterNext i ((s.granted i 1).modMe (fun t => { t with b := t.b.set {} n r })))

/-- `pset` that issues writes p1 to p15 from its source's bits and passes its poison to each; p0 keeps reading 1, and
`pset` takes no last-result position (R127). -/
def Sys2Proof.Claims.PsetWritesEveryPredicate : Prop :=
  ∀ (pre : Pre) (a : BitVec 6) (s : State), s.issues (.pset pre a) 1 = true →
    s.hasRoom (.pset pre a) (s.granted (.pset pre a) 1) = true →
    ∃ u, exec (.pset pre a) s = .next (s.afterNext (.pset pre a) u) ∧ u.me.rdP 0 = { v := true } ∧
      (∀ k, 1 ≤ k → k < 16 → u.me.rdP k = { v := (s.me.rd a).v.getLsbD k, poison := (s.me.rd a).poison }) ∧
      ∀ f : BitVec 6, u.me.rd f = s.me.rd f

/-- Every scalar, predicate and branch-target instruction that issues writes its result and retires. The generations that `binv`
and `bprepi.meta` of EMPTY or FAULTED leave in a register are the model's choice (log entry 55, DESIGN CHOICE). -/
def Obligations.RegisterInstructionsWriteTheirResults : Prop :=
  Claims.ScalarInstructionWritesItsResult ∧ Claims.PredicateInstructionWritesItsPredicate ∧ Claims.PsetWritesEveryPredicate ∧
  Claims.BranchTargetInstructionWritesItsRegister

/-- A `jmp` or `call` whose predicate does not hold only advances; one whose predicate holds, outside loops and through a
READY register of the current generations, goes on at that register's target, and `call` prepares b7 with the address
after itself. So does one through a READY register of earlier generations whose target passes the checks again, which then
has the current generations. -/
def Sys2Proof.Claims.TransferGoesToItsTarget : Prop :=
  ∀ (i : Instr) (s : State) (b : BitVec 3) (p : BitVec 4) (e : BitVec 1) (link : Bool),
    transferOf i = some (b, p, e, link) → s.issues i 1 = true → (s.me.rdP p.toNat).poison = false →
    let g := s.granted i 1
    let r := s.me.btr b.toNat
    let back : Btr := { target := s.me.pc + 4, st := .preparing, cgen := (s.ctxAt s.myCtx).cgen, fgen := s.me.fgen }
    let linked := if link then g.modMe (fun t => { t with b := t.b.set {} 7 back }) else g
    (holds s.me p e = false → s.hasRoom i g = true → exec i s = .next (s.afterNext i g)) ∧
    (holds s.me p e = true → s.me.loops = [] → r.st = .ready → r.cgen = (s.ctxAt s.myCtx).cgen → r.fgen = s.me.fgen →
      s.hasRoom i linked = true → exec i s = .next (s.after i linked r.target)) ∧
    (let again := g.modMe (fun t => { t with b := t.b.set {} b.toNat { r with cgen := (s.ctxAt s.myCtx).cgen, fgen := s.me.fgen } })
     let linked := if link then again.modMe (fun t => { t with b := t.b.set {} 7 back }) else again
     holds s.me p e = true → s.me.loops = [] → r.st = .ready → (r.cgen ≠ (s.ctxAt s.myCtx).cgen ∨ r.fgen ≠ s.me.fgen) →
      g.targetFault s.myCtx r.target.toNat = none → s.hasRoom i linked = true → exec i s = .next (s.after i linked r.target))

/-- `EINFO` of a transfer's trap (R331): the fetch address for FETCH_UNMAPPED and FETCH_DATA, the transfer's own word for
ILLEGAL (log entry 52). -/
def Sys2Proof.Claims.transferInfo (i : Instr) (cause : BitVec 8) (target : BitVec 48) : Word :=
  if cause = 0x03 ∨ cause = 0x04 then target.setWidth 64 else if cause = 0x01 then instrWord i else 0

/-- Each precise trap that a taken transfer finds, in the order of R100: an open loop, an EMPTY register, a FAULTED
register's own cause, a register of an earlier generation whose target no longer passes the checks, which becomes
FAULTED; nothing of the transfer is performed. Through a PREPARING register it waits. -/
def Sys2Proof.Claims.TakenTransferTraps : Prop :=
  ∀ (i : Instr) (s : State) (b : BitVec 3) (p : BitVec 4) (e : BitVec 1) (link : Bool),
    transferOf i = some (b, p, e, link) → s.issues i 1 = true → (s.me.rdP p.toNat).poison = false →
    holds s.me p e = true →
    (s.me.loops ≠ [] → exec i s = .next (s.takeTrap 0x05 0 0)) ∧
    (s.me.loops = [] → (s.me.btr b.toNat).st = .empty → exec i s = .next (s.takeTrap 0x02 0 0)) ∧
    (let r := s.me.btr b.toNat
     (s.me.loops = [] → r.st = .faulted → exec i s = .next (s.takeTrap r.cause (transferInfo i r.cause r.target) 0)) ∧
     (s.me.loops = [] → r.st = .preparing → exec i s = .next s) ∧
     (∀ c, s.me.loops = [] → r.st = .ready → (r.cgen ≠ (s.ctxAt s.myCtx).cgen ∨ r.fgen ≠ s.me.fgen) →
       (s.granted i 1).targetFault s.myCtx r.target.toNat = some c →
       exec i s = .next ((s.modMe (fun t => { t with b := t.b.set {} b.toNat { r with st := .faulted, cause := c } })).takeTrap
         c (transferInfo i c r.target) 0)))

/-- `binv` (R99): its word, with every fixed bit checked; its register becomes EMPTY with `TARGET` 0, a prefetch for it
that completes afterwards changes nothing, and a taken transfer through an EMPTY register traps UNPREPARED. -/
def Obligations.BinvEmptiesItsRegister : Prop :=
  (∀ (pre : Pre) (n : BitVec 3), pre.ok = true → decodeWords (firstWord pre 4#7 (n ++ 0#15)) none = .ok (.binv pre n)) ∧
  (∀ (w : BitVec 32), w.extractLsb' 18 7 = 4 → w.extractLsb' 0 15 ≠ 0 → ∃ r, decodeWords w none = .bad r) ∧
  (∀ (pre : Pre) (n : BitVec 3) (s : State), s.issues (.binv pre n) 1 = true →
    s.hasRoom (.binv pre n) (s.granted (.binv pre n) 1) = true →
    ∃ u, exec (.binv pre n) s = .next u ∧ (u.me.btr n.toNat).st = .empty ∧ (u.me.btr n.toNat).target = 0 ∧
      (∀ m : Nat, m ≠ n.toNat → u.me.btr m = s.me.btr m) ∧ u.me.pc = s.me.pc + 4 ∧
      exec (.btrPrefetchDone s.core s.strand n.toNat) u = .next u) ∧
  (∀ (i : Instr) (s : State) (n : BitVec 3) (p : BitVec 4) (e : BitVec 1) (link : Bool),
    Claims.transferOf i = some (n, p, e, link) → s.issues i 1 = true → (s.me.rdP p.toNat).poison = false →
    Claims.holds s.me p e = true → s.me.loops = [] → (s.me.btr n.toNat).st = .empty → exec i s = .next (s.takeTrap 0x02 0 0))

/-- What `jmp` and `call` do: taken, not taken, or trapped in the order of R100. What `EINFO` receives at a
transfer's trap is the reading of log entry 52. -/
def Obligations.TransfersGoOrTrap : Prop :=
  Claims.TransferGoesToItsTarget ∧ Claims.TakenTransferTraps

/-- The loop instructions that issue leave the loop stack, the stage window and the rotation base that R106 to R108
give, and go on where they say. -/
def Sys2Proof.Claims.LoopInstructionKeepsTheLoopStack : Prop :=
  ∀ (i : Instr) (s : State) (t : Strand) (pc : BitVec 48), loopAfter i (s.granted i 1).me = some (t, pc) →
    s.issues i 1 = true → s.hasRoom i ((s.granted i 1).setMe t) = true →
    exec i s = .next (s.after i ((s.granted i 1).setMe t) pc)

/-- What a loop instruction cannot do (R106 to R108, R111, R332): a third loop, a loop in the handler, an `lclose` or
`lbreak` without a loop, an `lclose` whose inner body is above 64 words and an `sdone` in a loop trap LOOP_FORM, and
nothing is performed. -/
def Sys2Proof.Claims.LoopFormsTrap : Prop :=
  ∀ (pre : Pre) (r : BitVec 1) (e : BitVec 2) (a : BitVec 6) (n : BitVec 12) (p : BitVec 4) (q : BitVec 1) (s : State),
    let traps := fun (i : Instr) => s.issues i 1 = true → exec i s = .next (s.takeTrap 0x05 0 0)
    (2 ≤ s.me.loops.length ∨ s.me.hidden ≠ none → traps (.lsetupImm pre r e n) ∧
      ((s.me.rd a).poison = false → traps (.lsetupReg pre r e a))) ∧
    (s.me.loops = [] → traps (.lclose pre) ∧ ((s.me.rdP p.toNat).poison = false → traps (.lbreak pre p q))) ∧
    (∀ top rest, s.me.loops = top :: rest → top.nest = false → (64 : Int) < (s.me.pc.toNat / 4 : Nat) - (top.start.toNat : Int) + 1 →
      traps (.lclose pre)) ∧
    (s.me.loops ≠ [] → traps (.sdone pre))

/-- The loop instructions: what they leave, and what traps LOOP_FORM. -/
def Obligations.LoopInstructionsKeepTheLoopStack : Prop :=
  Claims.LoopInstructionKeepsTheLoopStack ∧ Claims.LoopFormsTrap

/-- `nop` does nothing but retire, `ifence` raises the strand's fetch generation, and `sdone` outside loops makes the
strand DONE, also in HANDLER and in a debug step (the model's choice, log entry 55). -/
def Sys2Proof.Claims.NopIfenceSdone : Prop :=
  ∀ (pre : Pre) (s : State),
    (s.issues (.nop pre) 1 = true → s.hasRoom (.nop pre) (s.granted (.nop pre) 1) = true →
      exec (.nop pre) s = .next (s.afterNext (.nop pre) (s.granted (.nop pre) 1))) ∧
    (let g := (s.granted (.ifence pre) 1).modMe (fun t => { t with fgen := t.fgen + 1 })
     s.issues (.ifence pre) 1 = true → s.hasRoom (.ifence pre) g = true →
      exec (.ifence pre) s = .next (s.afterNext (.ifence pre) g)) ∧
    (let g := s.granted (.sdone pre) 1
     s.issues (.sdone pre) 1 = true → s.hasRoom (.sdone pre) g = true → s.me.loops = [] →
      exec (.sdone pre) s = .next ((s.afterNext (.sdone pre) g).strandDone s.core s.strand))

/-- `trap` enters the handler with cause TRAP and its number in EINFO; `brk` with cause BRK, or HALTS the strand where
the core's BRKH is set. EPC is the address of the next instruction. -/
def Sys2Proof.Claims.TrapAndBreakpointInstructions : Prop :=
  ∀ (pre : Pre) (n : BitVec 6) (s : State),
    (s.issues (.trap pre n) 1 = true →
      exec (.trap pre n) s = .next (s.takeTrapAt 0x13 (s.me.pc + 4) (n.setWidth 64) 0)) ∧
    (s.issues (.brk pre n) 1 = true → s.myCore.dbg.brkh = false →
      exec (.brk pre n) s = .next (s.takeTrapAt 0x14 (s.me.pc + 4) (n.setWidth 64) 0)) ∧
    (s.issues (.brk pre n) 1 = true → s.myCore.dbg.brkh = true →
      ∃ t, exec (.brk pre n) s = .next t ∧ t.me.life = .halted ∧ t.me.pc = s.me.pc)

/-- `sysrd`, `pcrd`, `gid` and `gsize` that issue write the value of their register, counter or selector, never
poisoned. Which clocks and retirements a counter has counted is the reading of log entry 47. -/
def Obligations.SystemReadsWriteTheirValue : Prop :=
  ∀ (i : Instr) (s : State) (d : BitVec 6) (v : Word), systemValue i (s.granted i 1) = some (d, v) → s.issues i 1 = true →
    s.hasRoom i ((s.granted i 1).modMe (fun t => t.result d { v := v })) = true →
    exec i s = .next (s.afterNext i ((s.granted i 1).modMe (fun t => t.result d { v := v })))

/-- `eret` in the handler gives the strand its own loop context and files again and goes on at EPC, or waits in the wait
half of the `bar` there where its mark is kept; outside the handler it traps PRIV. -/
def Sys2Proof.Claims.EretLeavesTheHandler : Prop :=
  ∀ (pre : Pre) (s : State), s.issues (.eret pre) 1 = true →
    let g := s.granted (.eret pre) 1
    let back := fun (h : Hidden) (t : Strand) => ({ t with hidden := none, loops := h.loops, sg := h.sg, rb := h.rb, micro := {}, released := false, stepping := false, pc := t.epc.extractLsb' 2 46 ++ 0#2 } : Strand)
    (∀ h, s.me.hidden = some h → s.me.waitHalf = none → s.hasRoom (.eret pre) g = true →
      exec (.eret pre) s = .next ((pushed (.eret pre) (s.issuedIn g)).modMe (fun t => ((back h t).live .running).atBoundary))) ∧
    (∀ h j tok, s.me.hidden = some h → s.me.waitHalf = some (j, tok) → s.hasRoom (.eret pre) g = true →
      exec (.eret pre) s = .next ((pushed (.eret pre) (s.issuedIn g)).modMe (fun t =>
        (({ back h t with waitHalf := none, micro := { stage := 1, id := tok.toNat } } : Strand).waits (.barrier j tok)).atBoundary))) ∧
    (s.me.hidden = none → exec (.eret pre) s = .next (s.takeTrap 0x12 (instrWord (.eret pre)) 0))

/-- `syswr`: in the handler a write of EPC drops its two low bits; a write of SVREQ queues a request under a fresh tag
and waits, and completes with the response in SVRSP; everything else traps PRIV. -/
def Sys2Proof.Claims.SyswrWritesEpcOrAsksTheSupervisor : Prop :=
  ∀ (pre : Pre) (r a : BitVec 6) (s : State),
    let i : Instr := .syswr pre r a
    let g := s.granted i 1
    (s.issues i 1 = true → s.me.inHandler = true → r = 0 → (s.me.rd a).poison = false →
      let s' := g.modMe (fun t => { t with epc := (s.me.rd a).v &&& ~~~ 3#64 })
      s.hasRoom i s' = true → exec i s = .next (s.afterNext i s')) ∧
    (s.issues i 1 = true → s.me.inHandler = true → r = 8 → (s.me.rd a).poison = false →
      let p := g.postRequest (s.me.rd a).v
      exec i s = .next ((s.issuedIn (p.1.modMe (fun t =>
        { t with svtag := some p.2, micro := { stage := 1, id := p.2.toNat } }))).modMe (fun t => (t.issues i).waits .supervisor))) ∧
    (∀ tag q v, s.me.micro.stage = 1 → s.me.svtag = some tag → (s.ctxAt s.myCtx).request? tag = some q →
      q.response = some v →
      let s' := (s.modCtx s.myCtx (fun c => { c with requests := c.requests.filter (fun x => x.tag != tag) })).modMe
        (fun t => { t with svrsp := v.setWidth 64, svtag := none })
      s.hasRoom i s' = true → exec i s = .next (s.afterNext i s')) ∧
    (s.issues i 1 = true → (s.me.inHandler = false ∨ (r ≠ 0 ∧ r ≠ 8)) → exec i s = .next (s.takeTrap 0x12 (instrWord i) 0))

/-- `nop`, `ifence`, `sdone`, `trap` and `brk`, and the handler's `eret` and `syswr`. -/
def Obligations.StrandAndHandlerInstructions : Prop :=
  Claims.NopIfenceSdone ∧ Claims.TrapAndBreakpointInstructions ∧ Claims.EretLeavesTheHandler ∧ Claims.SyswrWritesEpcOrAsksTheSupervisor

/-- `gyield` and `yield` write 0 and only retire where no group waits for this die's cores as R259 says; where one does
they write 1 and the group leaves its cores at the end of the clock, unless a `park` or `gexit` of that clock has it leave
otherwise (R254), `yield` with its context's deficit at 0. -/
def Sys2Proof.Claims.YieldDeschedulesForWaitingWork : Prop :=
  ∀ (pre : Pre) (d : BitVec 6) (s : State) (grp : Nat) (x : Group), s.myGroup = some (grp, x) → x.st = .running →
    let go := fun (i : Instr) (want : Nat → Nat → Bool) (before : State → State) =>
      let g := s.granted i 1
      let r := fun (v : Word) => g.modMe (fun t => t.result d { v := v })
      s.issues i 1 = true →
      (g.waitsFor grp want = false → s.hasRoom i (r 0) = true → exec i s = .next (s.afterNext i (r 0))) ∧
      (g.waitsFor grp want = true →
        let s' := ((before g).modGroup grp (fun y => { y with leave := some (y.leave.getD .yields) })).modMe (fun t => t.result d { v := 1 })
        s.hasRoom i s' = true → exec i s = .next (s.afterNext i s'))
    go (.gyield pre d) (fun _ p => decide (p ≤ x.prio)) (fun t => t) ∧
    go (.yield pre d) (fun c _ => c != x.ctx) (fun t => t.modCtx x.ctx (fun k => { k with deficit := 0 }))

/-- `gexit` retires, and its group exits at the end of the clock: there every strand that stands between two instructions
or waits, with none of its own outstanding, is DONE, and with all of them DONE the group is EXITING, with no fault owed to a
channel. -/
def Sys2Proof.Claims.GexitEndsEveryStrand : Prop :=
  (∀ (pre : Pre) (s : State) (grp : Nat) (x : Group), s.issues (.gexit pre) 1 = true → s.myGroup = some (grp, x) →
    let s' := (s.granted (.gexit pre) 1).modGroup grp (fun y => { y with leave := some .exits })
    s.hasRoom (.gexit pre) s' = true → exec (.gexit pre) s = .next (s.afterNext (.gexit pre) s')) ∧
  (∀ (s : State) (grp : Nat) (x : Group), s.groups.find? grp = some x → x.contain = none → x.st = .running →
    x.leave = some .exits →
    (∀ c ∈ x.cores, ∀ k < 8, (s.strandAt c k).outs = 0 ∧
      ((s.strandAt c k).micro.stage = 0 ∨ ((s.strandAt c k).life ≠ .running ∧ (s.strandAt c k).life ≠ .handler))) →
    let t := s.groupClock grp
    (∃ y, t.groups.find? grp = some y ∧ y.st = .exiting) ∧
    (∀ c ∈ x.cores, ∀ k < 8, (t.strandAt c k).life = .done ∧ (t.strandAt c k).loops = []) ∧
    (∀ c ∈ x.cores, ∀ e ∈ (t.coreAt c).channels, e.2.fpend = false))

/-- A group that a `park`, a `gyield` or a `yield` of the clock has leave its cores is SAVING at the clock's end (R252, R254):
its engines are gated, its DONE strands stay DONE, and every other one that stands between two instructions, waits or is
HALTED, with none of its own outstanding, is SAVED. -/
def Sys2Proof.Claims.GroupLeavesAtTheEndOfTheClock : Prop :=
  ∀ (s : State) (grp : Nat) (x : Group), s.groups.find? grp = some x → x.contain = none → x.st = .running →
    (x.leave = some .parks ∨ x.leave = some .yields) →
    let t := s.groupClock grp
    (∃ y, t.groups.find? grp = some y ∧ y.st = .saving ∧ y.leave = none) ∧
    ∀ c ∈ x.cores, (t.coreAt c).gated = true ∧ ∀ k < 8,
      let u := s.strandAt c k
      (u.life = .done → (t.strandAt c k).life = .done) ∧
      (u.outs = 0 → (u.life = .waiting ∨ ((u.life = .halted ∨ u.life = .running ∨ u.life = .handler) ∧ u.micro.stage = 0)) →
        (t.strandAt c k).life = .saved)

/-- `gsplit` with a value that is no split of the group traps GROUP_BAD at this strand; with one that is, the strand, which
has taken its tokens, waits in the rendezvous, and after it has completed the instruction retires, or traps where it failed. -/
def Sys2Proof.Claims.GsplitMeetsItsGroup : Prop :=
  ∀ (pre : Pre) (a : BitVec 6) (s : State) (grp : Nat) (x : Group), s.myGroup = some (grp, x) →
    let i : Instr := .gsplit pre a
    let v := (s.me.rd a).v
    let b := fun k => v.toNat / 2 ^ (4 * k) % 16
    let n := v.toNat % 4
    let ok := v.toNat < 2 ^ 16 ∧ v.toNat / 4 % 4 = 0 ∧ (if 1 ≤ n then 0 < b 1 ∧ b 1 < x.size else b 1 = 0) ∧
      (if 2 ≤ n then b 1 < b 2 ∧ b 2 < x.size else b 2 = 0) ∧ (if 3 ≤ n then b 2 < b 3 ∧ b 3 < x.size else b 3 = 0)
    (s.issues i 1 = true → (s.me.rd a).poison = false → ok → exec i s = .next
      ((s.issuedIn ((s.granted i 1).modMe (fun t => { t with micro := { stage := 3 } }))).modMe (fun t => (t.issues i).waits (.split v)))) ∧
    (s.issues i 1 = true → (s.me.rd a).poison = false → ¬ ok → exec i s = .next (s.takeTrap 0x0E 0 0)) ∧
    (s.me.micro.stage = 1 → s.hasRoom i s = true → exec i s = .next (s.afterNext i s)) ∧
    (s.me.micro.stage = 2 → s.me.outs = 0 → exec i s = .next (s.takeTrap 0x0E 0 0))

/-- The rendezvous of `gsplit` (R256): with every strand that is not DONE at a `gsplit`, unequal values or a strand that
has arrived at a barrier, DONE since or not, fail it for all; else it waits for the barriers' bytes and then splits the
group, barrier j of the n sub-groups starting a phase with the strands of sub-group j that are not DONE. -/
def Sys2Proof.Claims.SplitRendezvousIsAllOrNone : Prop :=
  ∀ (s : State) (grp : Nat) (x : Group) (v : Word), s.groups.find? grp = some x → x.st = .running →
    let ps := s.participants x
    let at' := fun (p : Nat × Nat) => (s.strandAt p.1 p.2).atSplit
    let resumed := fun (u : State) (stage : Nat) => (ps.foldl (fun u p => u.modStrand p.1 p.2 (fun t =>
      { t with life := t.active, micro := { t.micro with stage := stage } })) u).soon (ps.map (fun p => .strand p.1 p.2))
    (∃ p ∈ ps, at' p = some v) → (∀ p ∈ ps, (at' p).isSome = true) →
    let arrived := ∃ c ∈ x.cores, ∃ k < 8, (s.strandAt c k).arr ≠ 0
    ((∃ p ∈ ps, at' p ≠ some v) ∨ arrived → exec (.gsplitRendezvous grp) s = .next (resumed s 2)) ∧
    ((∀ p ∈ ps, at' p = some v) → ¬ arrived → (∀ j < 4, (x.bar j).bytes = 0) →
      let y : Group := { x with nsub := bitsOf v 0 2 + 1, b1 := bitsOf v 4 4, b2 := bitsOf v 8 4, b3 := bitsOf v 12 4 }
      exec (.gsplitRendezvous grp) s =
        .next (resumed (s.modGroup grp (fun _ => { y with barriers := s.splitBars y })) 1)) ∧
    ((∃ j < 4, (x.bar j).bytes ≠ 0) → (∀ p ∈ ps, at' p = some v) → ¬ arrived →
      exec (.gsplitRendezvous grp) s = .next s)

/-- `gyield`, `yield`, `gexit`, `gsplit` and its rendezvous, and how a group leaves its cores. That a rendezvous puts the
turns of its strands next in the schedule is the model's choice (log entry 8), and so is an exit before a park or a yield
of the same clock (log entry 61). -/
def Obligations.GroupInstructions : Prop :=
  Claims.YieldDeschedulesForWaitingWork ∧ Claims.GexitEndsEveryStrand ∧ Claims.GroupLeavesAtTheEndOfTheClock ∧
  Claims.GsplitMeetsItsGroup ∧ Claims.SplitRendezvousIsAllOrNone

/-- A vector instruction that issues enters the vector queue behind the entries of earlier clocks, and as the last where its
clock has brought no other, with the rotation base, the scalars and the exact address (R9; log entry 21) that it reads at
issue; a scalar result that it owes stays pending. -/
def Obligations.VectorInstructionEntersItsQueue : Prop :=
  ∀ (i : Instr) (s : State) (r : VectorRead), vectorReads i s.me = some r → s.issues i 1 = true →
    let n := s.nextId
    let e : VEntry := { id := n, owner := s.strand, instr := i, rb := s.me.rb, s1 := r.s1, s2 := r.s2, s3 := r.s3, addr := r.addr, mark := s.me.mark }
    let q := ({ s with nextId := n + 1 } : State).noteEntry 26 (fun c rank k =>
      { c with vq := seatEntry (fun x => rank x.owner) k c.vq e })
    exec i s = .next (s.afterNext i (match r.owes with
      | none => q
      | some f => q.modMe (fun t => t.result f { pend := some n }))) ∧
    ((s.myCore.rot 26).served = [] → q.myCore.vq = s.myCore.vq ++ [e])

/-- The element-by-element vector instructions: when its entry starts, element k of the destination and of z0 is the
operation on element k of the sources where the active mask has bit k, and the old element where it has not. -/
def Sys2Proof.Claims.VectorElementsAreIndependent : Prop :=
  ∀ (s : State) (c : Nat) (e : VEntry) (d : BitVec 6) (f : Nat → Nat) (po : Bool),
    let x := VCtx.of s c e
    let old := x.t.vold x.rb d
    vectorElement e x = some (d, f, po) →
    ∃ r : VReg, vperform s c e = .ok (s.setStrand c e.owner (x.t.vresult x.rb d r)) none ∧
      r.poison = (po || x.am.poison || ((List.range x.cfg.n).any (fun k => !x.am.bit k) && old.poison)) ∧
      ∀ k < x.cfg.n, elem x.cfg.w k r.v = if x.am.bit k then f k % 2 ^ x.cfg.w else elem x.cfg.w k old.v

/-- `vsel`, `vins`, `vperm` and the reductions write every element; a reduction combines its active lanes by the fixed tree
of R148. -/
def Sys2Proof.Claims.VectorWholeResults : Prop :=
  ∀ (s : State) (c : Nat) (e : VEntry) (d : BitVec 6) (f : Nat → Nat) (po : Bool),
    let x := VCtx.of s c e
    legalEt x.cfg.et = true → vectorWhole e x = some (d, f, po) →
    ∃ r : VReg, vperform s c e = .ok (s.setStrand c e.owner (x.t.vresult x.rb d r)) none ∧ r.poison = po ∧
      ∀ k < x.cfg.n, elem x.cfg.w k r.v = f k % 2 ^ x.cfg.w

/-- A scan gives each active lane the left-to-right combination of the active lanes up to it, and leaves the others. -/
def Sys2Proof.Claims.VectorScans : Prop :=
  ∀ (s : State) (c : Nat) (e : VEntry) (op : Nat) (d a : BitVec 6),
    let x := VCtx.of s c e
    let src := x.t.vsrc x.rb x.cfg a e.s1
    let old := x.t.vold x.rb d
    let run := fun (k : Nat) => (List.range (k + 1)).foldl (fun r j => vComb op x.cfg r (lane x src.v j)) none
    vectorScan e.instr = some (op, d, a) →
    ∃ r : VReg, vperform s c e = .ok (s.setStrand c e.owner (x.t.vresult x.rb d r)) none ∧
      r.poison = (src.poison || x.am.poison || ((List.range x.cfg.n).any (fun k => !x.am.bit k) && old.poison)) ∧
      ∀ k < x.cfg.n, elem x.cfg.w k r.v = if x.am.bit k then (run k).getD 0 % 2 ^ x.cfg.w else elem x.cfg.w k old.v

/-- `vcmp` sets the mask's bit of each active element for which the condition holds, and no other bit. -/
def Sys2Proof.Claims.VectorCompare : Prop :=
  ∀ (s : State) (c : Nat) (e : VEntry) (pre : Pre) (cond : BitVec 2) (m : BitVec 3) (a b : BitVec 6), e.instr = .vcmp pre cond m a b →
    let x := VCtx.of s c e
    let p := x.t.vsrc x.rb x.cfg a e.s1
    let q := x.t.vsrc x.rb x.cfg b e.s2
    let of := fun (eq lt le : Bool) => match cond.toNat with | 0 => eq | 1 => !eq | 2 => lt | _ => le
    let is := fun (k : Nat) => match fmtOf x.cfg.et with
      | none =>
        let u := (BitVec.ofNat x.cfg.w (elem x.cfg.w k p.v)).toInt
        let v := (BitVec.ofNat x.cfg.w (elem x.cfg.w k q.v)).toInt
        of (decide (u = v)) (decide (u < v)) (decide (u ≤ v))
      | some f =>
        let u := f.value (elem x.cfg.w k p.v)
        let v := f.value (elem x.cfg.w k q.v)
        if u.isNan || v.isNan then of false false false
        else of (!u.lt false v && !v.lt false u) (u.lt false v) (!v.lt false u)
    ∃ r : MReg, vperform s c e = .ok (s.setStrand c e.owner (x.t.wrM m.toNat r)) none ∧
      r.poison = (p.poison || q.poison || x.am.poison) ∧
      ∀ k < 256, r.bit k = (decide (k < x.cfg.n) && x.am.bit k && is k)

/-- Element j of the group that a conversion writes is element j of the group it reads, converted by R64; a BLK4 image is
read and written by its blocks (R65, R69, R142). -/
def Sys2Proof.Claims.VectorConversion : Prop :=
  ∀ (s : State) (c : Nat) (e : VEntry) (d a : BitVec 6) (sf df : Nat),
    let x := VCtx.of s c e
    vectorConvert e.instr x.cfg.et = some (d, a, sf, df) → (legalEt sf = true ∨ sf = 9) → (legalEt df = true ∨ df = 9) →
    legalEt x.cfg.et = true →
    let g := max (perReg sf) (perReg df)
    let src := fun (k : Nat) => x.t.vsrc x.rb x.cfg (if a.toNat < 32 then BitVec.ofNat 6 ((a.toNat + k) % 32) else a) e.s1
    let byte := fun (v : BitVec 2048) (k : Nat) => elem 8 k v
    let value := fun (j : Nat) => elemNum sf (elem (codeWidth sf) (j % perReg sf) (src (j / perReg sf)).v)
    ∃ rs : List (BitVec 2048), rs.length = g / perReg df ∧
      vperform s c e = .ok (s.setStrand c e.owner (x.t.vgroup x.rb d (rs.map (fun v => { v := v, poison := (List.range (g / perReg sf)).any (fun k => (src k).poison) })))) none ∧
      (sf ≠ 9 → df ≠ 9 → ∀ j < g, elem (codeWidth df) (j % perReg df) (rs.getD (j / perReg df) 0) =
        vConvert sf df x.cfg.mode x.cfg.sat (elem (codeWidth sf) (j % perReg sf) (src (j / perReg sf)).v) % 2 ^ codeWidth df) ∧
      (sf = 9 → ∀ j < g, elem (codeWidth df) (j % perReg df) (rs.getD (j / perReg df) 0) =
        elemOf df x.cfg.mode x.cfg.sat (blkValue (byte (src 0).v (128 + j / 32)) (elem 4 j (src 0).v)) % 2 ^ codeWidth df) ∧
      (df = 9 → ∀ b < 8,
        let blk := blkOf x.cfg.bt x.cfg.mode x.cfg.sat ((List.range 32).map (fun i => value (32 * b + i)))
        (∀ i < 32, elem 4 (32 * b + i) (rs.getD 0 0) = blk.1.getD i 0 % 2 ^ 4) ∧ byte (rs.getD 0 0) (128 + b) = blk.2 % 2 ^ 8) ∧
      (df = 9 → ∀ k, 136 ≤ k → k < 256 → byte (rs.getD 0 0) k = 0)

/-- `vpack` splits the even and the odd units of its source pair, `vunpack` interleaves its source registers, and `vtrn`
transposes its square blocks; they move bits only. -/
def Sys2Proof.Claims.VectorLaneMoves : Prop :=
  ∀ (s : State) (c : Nat) (e : VEntry) (pre : Pre) (d a : BitVec 6) (n : BitVec 2),
    let x := VCtx.of s c e
    let reg := fun (k : Nat) => x.t.vold x.rb (a + BitVec.ofNat 6 k)
    let u := 8 * 2 ^ n.toNat
    let m := 2048 / u
    let pair := fun (r0 r1 : BitVec 2048) (j : Nat) => if j < m then elem u j r0 else elem u (j - m) r1
    let two := fun (r0 r1 : BitVec 2048) => vperform s c e = .ok (s.setStrand c e.owner (x.t.vgroup x.rb d
      ([r0, r1].map (fun v => { v := v, poison := (reg 0).poison || (reg 1).poison })))) none
    (e.instr = .vpack pre d a n → ∃ r0 r1, two r0 r1 ∧ ∀ i < m,
      elem u i r0 = pair (reg 0).v (reg 1).v (2 * i) ∧ elem u i r1 = pair (reg 0).v (reg 1).v (2 * i + 1)) ∧
    (e.instr = .vunpack pre d a n → ∃ r0 r1, two r0 r1 ∧ ∀ i < m,
      pair r0 r1 (2 * i) = elem u i (reg 0).v ∧ pair r0 r1 (2 * i + 1) = elem u i (reg 1).v) ∧
    (let u := if n = 0 then 16 else if n = 1 then 32 else 8
     let l := 1024 / u
     let unit := fun (r : Nat → BitVec 2048) (row col : Nat) => elem u (row % 2 * l + col) (r (row / 2))
     e.instr = .vtrn pre d a n → ∃ rs : List (BitVec 2048), rs.length = 8 ∧
      vperform s c e = .ok (s.setStrand c e.owner (x.t.vgroup x.rb d (rs.map (fun v => { v := v, poison := (List.range 8).any (fun k => (reg k).poison) })))) none ∧
      ∀ q < l / 16, ∀ row < 16, ∀ col < 16,
        unit (fun k => rs.getD k 0) row (16 * q + col) = unit (fun k => (reg k).v) col (16 * q + row))

/-- `vext`, `mpopc` and `mfirst` owe their scalar result, the mask operations write their mask, and `vcfg` writes the selected
fields of `VT` and owes its old value. -/
def Sys2Proof.Claims.VectorScalarsAndMasks : Prop :=
  ∀ (s : State) (c : Nat) (e : VEntry),
    let x := VCtx.of s c e
    (∀ r, vectorScalar e x = some r → vperform s c e = .ok s (some r)) ∧
    (∀ m r, maskResult e.instr x.t = some (m, r) → vperform s c e = .ok (s.setStrand c e.owner (x.t.wrM m r)) none) ∧
    (∀ pre d a sel, e.instr = .vcfg pre d a sel →
      ∃ vt : BitVec 16, vperform s c e = .ok (s.setStrand c e.owner { x.t with vt := vt }) (some { v := x.t.vt.setWidth 64 }) ∧
        ∀ k < 16, vt.getLsbD k =
          (let f := if k < 4 then 0 else if k < 6 then 1 else if k < 7 then 2 else if k < 10 then 3 else 4
           if k < 12 ∧ sel.getLsbD f = true then e.s1.v.getLsbD k else x.t.vt.getLsbD k))

/-- `vld.s` loads and `vst.s` stores the bytes of the active elements of its 256; `vgath.s` loads and `vscat.s` stores each
active element at its own address, where bytes overlap the highest element's. An address outside the partition is fatal, and a
piece not read back yet holds the entry. -/
def Sys2Proof.Claims.VectorAccesses : Prop :=
  ∀ (s : State) (c : Nat) (e : VEntry),
    let x := VCtx.of s c e
    let nb := x.cfg.w / 8
    let loc := s.sLoc c (s.coreGrp c) e.addr 256
    let loaded := fun (d : BitVec 6) (s' : State) (po : Bool) (f : Nat → Nat) =>
      let old := x.t.vold x.rb d
      ∃ r : VReg, vperform s c e = .ok (s'.setStrand c e.owner (x.t.vresult x.rb d r)) none ∧
        r.poison = (po || x.am.poison || ((List.range x.cfg.n).any (fun k => !x.am.bit k) && old.poison)) ∧
        ∀ k < x.cfg.n, elem x.cfg.w k r.v = if x.am.bit k then f k else elem x.cfg.w k old.v
    legalEt x.cfg.et = true →
    (∀ store r, vectorAccess e.instr = some (store, r) →
      (loc = .outside → vperform s c e = .fatal) ∧ (loc = .absent → vperform s c e = .absent) ∧
      (∀ as, loc = .ok as → store = false →
        let rd := s.sRead c as
        loaded r rd.2.2 rd.2.1 (fun k => natLE ((rd.1.drop (k * nb)).take nb))) ∧
      (∀ as, loc = .ok as → store = true →
        let v := x.t.vsrc x.rb x.cfg r e.s2
        let is := (List.range 256).filter (fun k => x.am.bit (k / nb))
        vperform s c e = .ok (s.sWrite c (is.map (fun k => as.getD k 0))
          (is.map (fun k => BitVec.ofNat 8 (elem 8 k v.v))) v.poison) none)) ∧
    (let active := (List.range x.cfg.n).filter (fun k => x.am.bit k)
     let places := fun (a : BitVec 6) =>
       s.sLocs c (active.map (fun k => e.s1.v.toNat + elem x.cfg.w k (x.t.vsrc x.rb x.cfg a e.s2).v * nb)) nb
     (∀ pre d a b, (e.instr = .vgathS pre d a b ∨ e.instr = .vscatS pre d a b) →
       (places a = .outside → vperform s c e = .fatal) ∧ (places a = .absent → vperform s c e = .absent)) ∧
     (∀ pre d a b as, e.instr = .vgathS pre d a b → places a = .ok as →
       let rd := s.sRead c as
       loaded d rd.2.2 (rd.2.1 || (x.t.vsrc x.rb x.cfg a e.s2).poison)
         (fun k => natLE ((rd.1.drop ((active.filter (fun j => decide (j < k))).length * nb)).take nb))) ∧
     (∀ pre d a b as, e.instr = .vscatS pre d a b → places a = .ok as →
       let v := x.t.vsrc x.rb x.cfg d e.s3
       let bs := place as (active.flatMap (fun k => bytesLE nb (elem x.cfg.w k v.v)))
       ∃ ws : Tbl Byte, (∀ a, Tbl.find? ws a = (bs.reverse.find? (fun p => p.1 == a)).map (fun p => p.2)) ∧
         vperform s c e = .ok (s.sWrite c (ws.map (fun p => p.1)) (ws.map (fun p => p.2)) v.poison) none))

/-- What every vector entry leaves when it starts. Poison under a mask is the reading of log entry 22, and that a lone NaN
passes a reduction or a scan with its bits that of log entry 51. -/
def Obligations.VectorResults : Prop :=
  Claims.VectorElementsAreIndependent ∧ Claims.VectorWholeResults ∧ Claims.VectorScans ∧ Claims.VectorCompare ∧
  Claims.VectorConversion ∧ Claims.VectorLaneMoves ∧ Claims.VectorScalarsAndMasks ∧ Claims.VectorAccesses

/-- The vector pipes start the entry that R91 puts next: it takes its tokens and its semaphore count and occupies its unit
(R135), unless its access has begun before (R220), is counted and performed, where a unit of the scratchpad that it has
accessed already is as it was then, and stays in the queue as started; a second start of the clock follows by the same
rule. -/
def Sys2Proof.Claims.VectorEntriesStartInOrder : Prop :=
  ∀ (s : State) (c id : Nat) (e : VEntry) (m : Mark) (u : Option Nat) (co : Core) (s' : State) (r : Option Reg),
    s.nextEntry c = some id → (s.coreAt c).vq.find? (fun x => x.id == id) = some e →
    (e.opened = false → s.startTake c .V e.instr = some (co, m) ∧ (s.coreAt c).freeUnit s.pkg.clocks (vunit e.instr) = some u) →
    let e0 := if e.opened then e else { e with mark := e.mark.join m }
    let s0 := if e.opened then s else
      s.setCore c ((co.occupy s.pkg.clocks u ((VCtx.of s c { e with mark := e.mark.join m }).occupies { e with mark := e.mark.join m })).count 3 1)
    vperform (s0.asSeen c id) c e0 = .ok s' r →
    ∃ w : Bool,
      let s1 := (s0.afterSeen c id s').modCore c (fun co =>
        { co with vq := VEntry.replace co.vq { e0 with started := true, result := r, watch := w } })
      exec (.vectorEntryStart c id none) s = .next s1 ∧
      ∀ q, exec (.vectorEntryStart c id (some q)) s = .next (if s1.nextEntry c = some q then (startEntry c q s1).2 else s1)

/-- A strand's oldest vector entry, once started and with room for its tokens, retires: it leaves the queue, pushes its
tokens, makes its signal, is counted, and delivers the scalar result it owes. -/
def Sys2Proof.Claims.VectorEntryRetires : Prop :=
  ∀ (s : State) (c k : Nat) (e : VEntry), (s.coreAt c).vq.find? (fun x => x.owner == k) = some e → e.started = true →
    let n := match e.instr with | .tokpush _ n _ => n.toNat | _ => 1
    let sg := match e.instr with | .ksig _ k n _ => (k.toNat, n.toNat) | _ => (0, 0)
    (s.coreAt c).room .V (instrPre e.instr) n = true →
    let co := (s.coreAt c).semAdd sg.1 sg.2 e.mark
    let co := (({ co with vq := co.vq.filter (fun x => x.id != e.id) } : Core).push .V (instrPre e.instr) n e.mark).count 1 1
    let t := co.strandAt k
    let t := match e.result with | some r => t.deliver e.id r | none => t
    exec (.vectorEntryComplete c k) s = .next (s.setCore c (co.setStrand k { t with watchHit := t.watchHit || e.watch }))

/-- An entry that starts next, or whose access has begun, may access one aligned 8-byte unit of the scratchpad ahead of the
others (R136, R220): that unit takes what the entry would leave in it now, and no other byte of the core's scratchpad
changes. -/
def Sys2Proof.Claims.VectorAccessesUnitByUnit : Prop :=
  ∀ (s : State) (c id unit : Nat) (e : VEntry), (s.coreAt c).vq.find? (fun x => x.id == id) = some e → e.opened = true →
    e.started = false → vunit e.instr = .port → s.nextEntry c = some id → unit < 49152 →
    (∀ p ∈ (s.coreAt c).peeks, p.id = id → p.unit ≠ unit) → (s.coreAt c).spad.latent.get false (unit / 8) = false →
    let s0 := s.modCore c (fun co => { co with vq := VEntry.replace co.vq { e with opened := true } })
    let whole := (startEntry c id s0).2
    let t := s.vectorUnit c id unit
    (∀ a, a / 8 = unit → (t.coreAt c).spad.bytes.get 0 a = (whole.coreAt c).spad.bytes.get 0 a) ∧
    (∀ a, a / 8 ≠ unit → (t.coreAt c).spad.bytes.get 0 a = (s.coreAt c).spad.bytes.get 0 a)

/-- At the end of a clock in which the vector engine has started an entry, each eligible one it has passed over is counted once,
and one that is not eligible starts again from 0 (R91, as log entry 14 reads it). -/
def Sys2Proof.Claims.VectorEntriesPassedOverAreCounted : Prop :=
  ∀ (s : State) (c : Nat),
    (0 < (s.coreAt c).vstarts → ((s.passOver c).coreAt c).vq =
      (s.coreAt c).vq.map (fun e => { e with passed := if s.eligible c e then e.passed + 1 else 0 })) ∧
    ((s.coreAt c).vstarts = 0 → s.passOver c = s)

/-- The start, the accesses and the retirement of a vector entry. That the turn of the start performs the entry's whole effect,
but for what it has accessed before, is the model's choice (log entry 45); which clocks count towards the sixteen of R91 is log
entry 14. -/
def Obligations.VectorEntriesStartAndRetire : Prop :=
  Claims.VectorEntriesStartInOrder ∧ Claims.VectorEntriesPassedOverAreCounted ∧ Claims.VectorAccessesUnitByUnit ∧ Claims.VectorEntryRetires

/-- `fpush` of a word with bits [63:15] clear puts it at the tail of the format queue, and traps FORMAT_BAD otherwise;
`tstat` reads the status bytes of the four tiles, and `tstat.clr` clears the bits named as it reads them. -/
def Sys2Proof.Claims.FormatQueueAndTileStatus : Prop :=
  ∀ (pre : Pre) (d a : BitVec 6) (s : State),
    let v := (s.me.rd a).v
    let byte := fun (co : Core) (k : Nat) =>
      (if (co.tile k).foreign s.grp then co.awayTiles.get {} k else co.tile k).status
    let status := fun (co : Core) => (byte co 3 ++ byte co 2 ++ byte co 1 ++ byte co 0).setWidth 64
    (let i : Instr := .fpush pre a
     let s' := (s.granted i 1).modCore s.core (fun c => { c with fq := c.fq ++ [v.setWidth 32] })
     s.issues i 1 = true → (s.me.rd a).poison = false →
      (v.toNat < 2 ^ 15 → s.myCore.fq.length < Config.matrixQueue → s.hasRoom i s' = true →
        exec i s = .next (s.afterNext i s')) ∧
      (v.toNat < 2 ^ 15 → Config.matrixQueue ≤ s.myCore.fq.length → exec i s = .next s) ∧
      (2 ^ 15 ≤ v.toNat → exec i s = .next (s.takeTrap 0x07 v 0))) ∧
    (let i : Instr := .tstat pre d
     let s' := (s.granted i 1).modMe (fun t => t.result d { v := status s.myCore })
     s.issues i 1 = true → s.hasRoom i s' = true → exec i s = .next (s.afterNext i s')) ∧
    (let i : Instr := .tstatClr pre d a
     let clear := fun (k : Nat) (t : Tile) => { t with status := t.status &&& ~~~ (v.extractLsb' (8 * k) 8) }
     let cleared := fun (co : Core) (k : Nat) => if (co.tile k).foreign s.grp
       then { co with awayTiles := co.awayTiles.set {} k (clear k (co.awayTiles.get {} k)) }
       else co.setTile k (clear k (co.tile k))
     let s' := ((s.granted i 1).modCore s.core (fun co => [0, 1, 2, 3].foldl cleared co)).modMe
       (fun t => t.result d { v := status s.myCore })
     s.issues i 1 = true → (s.me.rd a).poison = false → s.hasRoom i s' = true → exec i s = .next (s.afterNext i s'))

/-- A tile command that issues claims the oldest word of the format queue; with an empty queue, a word whose fields it
cannot use or an operand out of its form it traps, once every earlier S instruction of its strand has retired (R86), and else it
enters the matrix queue behind the entries of earlier clocks, as the last where its clock has brought no other. -/
def Sys2Proof.Claims.TileCommandClaimsItsWord : Prop :=
  ∀ (i : Instr) (a b : BitVec 6) (s : State), tileOperands i = some (a, b) → s.issues i 1 = true →
    (s.me.rd a).poison = false →
    (s.me.outs = 0 → s.myCore.fq = [] → exec i s = .next (s.takeTrap 0x06 0 0)) ∧
    (∀ w rest, s.myCore.fq = w :: rest → ((s.me.rd b).poison && scaleFmt i w == some 9) = false →
      (s.me.outs = 0 → wordOk i w = false → exec i s = .next (s.takeTrap 0x07 (w.setWidth 64) 0)) ∧
      (s.me.outs = 0 → wordOk i w = true → tileArgOk i (s.me.rd a).v = false → exec i s = .next (s.takeTrap 0x08 (s.me.rd a).v 0)) ∧
      (wordOk i w = true → tileArgOk i (s.me.rd a).v = true →
        let e : MEntry := { id := s.nextId, owner := s.strand, instr := i, word := w, a := (s.me.rd a).v, b := (s.me.rd b).v,
                            mark := s.me.mark }
        let q := ({ s.modCore s.core (fun c => { c with fq := rest }) with nextId := s.nextId + 1 } : State).noteEntry 25 (fun c rank k =>
          { c with mq := seatEntry (fun x => rank x.owner) k c.mq e })
        exec i s = .next (s.afterNext i q) ∧ ((s.myCore.rot 25).served = [] → q.myCore.mq = s.myCore.mq ++ [e])))


/-- The format queue, the tile status and the tile commands at issue. -/
def Obligations.TileCommandsEnterTheirQueue : Prop :=
  Claims.FormatQueueAndTileStatus ∧ Claims.TileCommandClaimsItsWord

/-- The oldest QUEUED matrix entry starts once no entry is stopped, no older command to its tile that it must follow is
unfinished, nobody else holds its tile and banks, and its tokens and count are there: `tcfg` sets the tile's shape,
`wswap` exchanges the banks and both complete at once, the others run from row 0 with the shape they find, a
multiplication of at least one row over a LIVE tile. -/
def Obligations.MatrixCommandStarts : Prop :=
  ∀ (s : State) (c : Nat) (e : MEntry) (cmd : TCmd) (co1 co2 : Core) (m1 m2 : Mark),
    let co := s.coreAt c
    let g := s.coreGrp c
    co.mq.find? (fun x => x.st == .queued) = some e → s.engineRuns c = true → (∀ o ∈ co.mq, o.st ≠ .stopped) →
    tcmd e.instr = some cmd →
    (∀ o ∈ co.mq.takeWhile (fun o => o.id != e.id), ∀ oc, tcmd o.instr = some oc → oc.t = cmd.t →
      o.st ≠ .complete → cmd.kind.needs oc.kind = false) →
    unclaimed co g cmd = true → co.take .M (instrPre e.instr) 1 = some (co1, m1) →
    (cmd.wcnt = 0 ∨ s.semFirst c .M cmd.wsem = false) → co1.semTake cmd.wsem cmd.wcnt = some (co2, m2) →
    let e' := { e with shape := (co2.tile cmd.t).shape, mark := e.mark.join (m1.join m2) }
    let u := s.setCore c co2
    (s.tileRanges c cmd e' = .outside → exec (.matrixCommandStart c) s = .next (s.fatal (s.coreCtx c) 0x80)) ∧
    ∀ as, s.tileRanges c cmd e' = .ok as →
    (cmd.kind = .cfg → exec (.matrixCommandStart c) s = .next (completeEntry c e' cmd.ssem cmd.scnt
      (u.modCore c (fun k => k.setTile cmd.t { k.tile cmd.t with shape := e.a, owner := some g })))) ∧
    (cmd.kind = .swap → exec (.matrixCommandStart c) s = .next (completeEntry c e' cmd.ssem cmd.scnt
      (u.modCore c (fun k => k.setBank cmd.t { active := (k.bank cmd.t).shadow, shadow := (k.bank cmd.t).active })))) ∧
    (cmd.kind ≠ .cfg → cmd.kind ≠ .swap →
      let live := (cmd.kind = .mma ∨ cmd.kind = .mmaz) ∧ 0 < cmd.rows e'.shape
      exec (.matrixCommandStart c) s = .next (u.modCore c (fun k =>
        (k.setTile cmd.t (if live then { k.tile cmd.t with st := .live, owner := some g } else k.tile cmd.t)).setMEntry
          { e' with st := .running, row := 0 })))

/-- A RUNNING tile command with no older running command to its tile, and no older running one on the scratchpad where
it accesses it, does what is left of it, where a unit of the scratchpad that it has accessed already is as it was then
(R220), and is COMPLETE, its semaphore signalled; but while another group's contents stand in its tile or banks, it claims them
and they are scanned out first (R163, R164). -/
def Sys2Proof.Claims.MatrixCommandCompletes : Prop :=
  ∀ (s : State) (c n : Nat) (e : MEntry) (cmd : TCmd), (s.coreAt c).mq.find? (fun x => x.id == n) = some e →
    tcmd e.instr = some cmd → e.st = .running → (s.coreAt c).gated = false →
    (∀ o ∈ (s.coreAt c).mq.takeWhile (fun o => o.id != n), ∀ oc, tcmd o.instr = some oc → o.st = .running →
      oc.t ≠ cmd.t ∧ (cmd.kind.accesses && oc.kind.accesses) = false) →
    s.tileRanges c cmd e ≠ .absent →
    (unclaimed (s.coreAt c) (s.coreGrp c) cmd = false →
      exec (.matrixCommandComplete c n) s = .next (s.setCore c (claimFor (s.coreAt c) (s.coreGrp c) cmd))) ∧
    (unclaimed (s.coreAt c) (s.coreGrp c) cmd = true → exec (.matrixCommandComplete c n) s = .next (completeEntry c { e with row := cmd.rows e.shape } cmd.ssem cmd.scnt
      (lastPart c cmd e (s.afterSeen c n (doRows c cmd e e.row (cmd.rows e.shape) (firstPart c cmd e (s.asSeen c n)))))))

/-- The oldest matrix entry, once COMPLETE and with room for its tokens, retires: it leaves the queue, pushes its tokens,
makes its signal and is counted. -/
def Sys2Proof.Claims.MatrixEntryRetires : Prop :=
  ∀ (s : State) (c : Nat) (e : MEntry) (rest : List MEntry), (s.coreAt c).mq = e :: rest → e.st = .complete →
    let n := match e.instr with | .tokpush _ n _ => n.toNat | _ => 1
    let sg := match e.instr with | .ksig _ k n _ => (k.toNat, n.toNat) | _ => (0, 0)
    (s.coreAt c).room .M (instrPre e.instr) n = true →
    exec (.matrixEntryRetire c) s = .next (s.setCore c
      ((({ (s.coreAt c).semAdd sg.1 sg.2 e.mark with mq := rest } : Core).push .M (instrPre e.instr) n e.mark).count 1 1))

/-- The completion and the retirement of a matrix entry. The order in which running commands complete is the reading
of log entry 23. -/
def Obligations.MatrixCommandsCompleteAndRetire : Prop :=
  Claims.MatrixCommandCompletes ∧ Claims.MatrixEntryRetires

/-- Scratchpad loads and stores (R202): an aligned access inside the partition loads its bytes, lowest first, or stores
the register's low bytes, whose lines take the data's poison; one to a piece not read back yet waits (R340); a misaligned
one traps MISALIGNED with its address, and one outside the partition is the fatal error TRANSLATION. -/
def Sys2Proof.Claims.ScratchpadAccess : Prop :=
  ∀ (i : Instr) (s : State) (m : Access), accessS i s.me = some m → s.issues i 1 = true → m.poison = false →
    let g := s.granted i 1
    let a := m.addr
    (a % m.bytes ≠ 0 → exec i s = .next (s.takeTrap 0x09 (BitVec.ofInt 64 a) 0)) ∧
    (a % m.bytes = 0 → s.sLoc s.core s.grp a m.bytes = .outside → exec i s = .next (s.fatalMine 0x80)) ∧
    (a % m.bytes = 0 → s.sLoc s.core s.grp a m.bytes = .absent → exec i s = .next s) ∧
    (∀ as, a % m.bytes = 0 → s.sLoc s.core s.grp a m.bytes = .ok as →
      let r := g.sRead s.core as
      let s' := if m.store
        then (g.sWrite s.core as (bytesLE m.bytes (s.me.rd m.reg).v.toNat) (s.me.rd m.reg).poison).watch a.toNat m.bytes false true
        else afterLoad (r.2.2.watch a.toNat m.bytes true false) m.reg false r.1 r.2.1
      s.hasRoom i s' = true → exec i s = .next (s.afterNext i s'))

/-- `amo.s` (R204) in one step reads the old value, writes the updated one, whose line takes the data's poison, and
returns the old value where asked; a poisoned old value contains the task. -/
def Sys2Proof.Claims.ScratchpadAtomic : Prop :=
  ∀ (pre : Pre) (d a b x : BitVec 6) (sc : BitVec 2) (op : BitVec 3) (ret sz : BitVec 1) (disp : BitVec 13) (s : State)
    (as : List Nat),
    let i : Instr := .amoS pre d a b x sc op ret sz disp
    let n := if sz = 0 then 4 else 8
    let addr := atomicAddr s.me a x sc disp n
    s.issues i 1 = true → (s.me.rd a).poison = false → (s.me.rd x).poison = false → addr % n = 0 →
    s.sLoc s.core s.grp addr n = .ok as →
    let r := (s.granted i 1).sRead s.core as
    let old := BitVec.ofNat 64 (natLE r.1)
    let s' := returned ((r.2.2.sWrite s.core as (bytesLE n (amoResult op n old (s.me.rd b).v).toNat) (s.me.rd b).poison).watch
      addr.toNat n true true) (if ret = 1 then some d else none) old
    (r.2.1 = false → s.hasRoom i s' = true → exec i s = .next (s.afterNext i s')) ∧
    (r.2.1 = true → exec i s = .next (r.2.2.containMine 0x40))

/-- The update of an atomic of `n` bytes (R204): sum, signed minimum and maximum, and, or, xor and exchange, in the low
`n` bytes. -/
def Sys2Proof.Claims.AtomicUpdates : Prop :=
  ∀ (old x : Word) (n : Nat), n = 4 ∨ n = 8 →
    let low := fun (w : Word) => bytesLE n w.toNat
    let sv := fun (w : Word) => if n = 4 then (w.extractLsb' 0 32).toInt else w.toInt
    low (amoResult 0 n old x) = low (old + x) ∧
    low (amoResult 1 n old x) = low (if sv old < sv x then old else x) ∧
    low (amoResult 2 n old x) = low (if sv old < sv x then x else old) ∧
    low (amoResult 3 n old x) = low (old &&& x) ∧
    low (amoResult 4 n old x) = low (old ||| x) ∧
    low (amoResult 5 n old x) = low (old ^^^ x) ∧
    low (amoResult 6 n old x) = low x

/-- Loads, stores and atomics of the scratchpad, and what an atomic of any space makes of the old value. Addresses are exact
numbers (R9; log entry 21). -/
def Obligations.ScratchpadAccessAndAtomics : Prop :=
  Claims.ScratchpadAccess ∧ Claims.ScratchpadAtomic ∧ Claims.AtomicUpdates

/-- Loads and stores of H space (R202): through the context's translation, a load reads through the task's version and
a store enters it; without a right it is the fatal error TRANSLATION, with no room VERSION_FULL, and a misaligned
access traps. -/
def Sys2Proof.Claims.HostSpaceAccess : Prop :=
  ∀ (i : Instr) (s : State) (m : Access), accessH i s.me = some m → s.issues i 1 = true → m.poison = false →
    (m.store = true → (s.me.rd m.reg).poison = false) →
    let g := s.granted i 1
    let a := m.addr
    let phys := g.hPhys s.myCtx a (if m.store then .wr else .rd)
    (a % m.bytes ≠ 0 → exec i s = .next (s.takeTrap 0x09 (BitVec.ofInt 64 a) 0)) ∧
    (a % m.bytes = 0 → phys = none → exec i s = .next (s.fatalMine 0x80)) ∧
    (∀ pa, a % m.bytes = 0 → phys = some pa → m.store = false →
      let r := g.readH s.grp g.me.mark.rf a.toNat pa m.bytes
      let s' := afterLoad r.2.2 m.reg false r.1 r.2.1
      s.hasRoom i s' = true → exec i s = .next (s.afterNext i s')) ∧
    (∀ pa, a % m.bytes = 0 → phys = some pa → m.store = true →
      let ws := place (addrs pa m.bytes) (bytesLE m.bytes (s.me.rd m.reg).v.toNat)
      (g.acceptBytes s.grp false ws = none → exec i s = .next (s.fatalMine 0x81)) ∧
      (∀ s', g.acceptBytes s.grp false ws = some s' → s.hasRoom i s' = true → exec i s = .next (s.afterNext i s')))

/-- Loads of the weight window and literals (R202, R120): the bytes at their place in the weight store, and the 8 bytes
at the literal's code address as the context's code was last loaded; outside the window or unmapped they are the fatal
error TRANSLATION. -/
def Sys2Proof.Claims.WeightAndLiteralLoads : Prop :=
  (∀ (i : Instr) (s : State) (m : Access), accessW i s.me = some m → s.issues i 1 = true → m.poison = false →
    let g := s.granted i 1
    let a := m.addr
    (a % m.bytes ≠ 0 → exec i s = .next (s.takeTrap 0x09 (BitVec.ofInt 64 a) 0)) ∧
    (a % m.bytes = 0 → g.wPhys s.myCtx a m.bytes = none → exec i s = .next (s.fatalMine 0x80)) ∧
    (∀ wa, a % m.bytes = 0 → g.wPhys s.myCtx a m.bytes = some wa →
      let r := g.wRead wa m.bytes
      let s' := afterLoad r.2.2 m.reg false r.1 r.2.1
      s.hasRoom i s' = true → exec i s = .next (s.afterNext i s'))) ∧
  (∀ (pre : Pre) (d : BitVec 6) (k : BitVec 12) (s : State),
    let i : Instr := .ldlit pre d k
    let g := s.granted i 1
    let a : Int := 8 * ((s.me.pc.toNat / 8 : Nat) + k.toInt)
    s.issues i 1 = true →
    (g.iLeaf s.myCtx a (fun _ => true) = none → exec i s = .next (s.fatalMine 0x80)) ∧
    (∀ l p, g.iLeaf s.myCtx a (fun _ => true) = some (l, p) →
      let as := addrs (l.pa + a.toNat % l.size) 8
      let r := g.homeRead as
      let bytes := if r.2.1 then r.1 else g.bytesAt p as
      let s' := r.2.2.modMe (fun t => t.result d { v := BitVec.ofNat 64 (natLE bytes), poison := r.2.1 })
      s.hasRoom i s' = true → exec i s = .next (s.afterNext i s')))

/-- Loads and stores of H space, loads of the weight window, and literals. Addresses are exact numbers (R9; log entry 21),
and tables are read as log entry 34 says. -/
def Obligations.HostAndWeightAccess : Prop :=
  Claims.HostSpaceAccess ∧ Claims.WeightAndLiteralLoads

/-- The checks of P space, in their order (R203): a poisoned offset or capability contains the task with POISON, a
misaligned offset traps MISALIGNED, one outside the window or without the right traps CAP_VIOL, and a poisoned store
register contains. -/
def Sys2Proof.Claims.PoolAccessChecks : Prop :=
  ∀ (i : Instr) (s : State) (m : Access) (c : BitVec 4) (o r : BitVec 2), accessP i s.me = some (m, c, o, r) →
    s.issues i 1 = true →
    let cap := s.me.cap c
    let a := m.addr
    let info := BitVec.ofInt 64 a
    let inside := 0 ≤ a ∧ a + m.bytes ≤ capLen cap.v ∧ (if m.store then capWR cap.v else capRD cap.v) = true
    (m.poison = true ∨ cap.poison = true → exec i s = .next (s.containMine 0x40)) ∧
    (m.poison = false → cap.poison = false → a % m.bytes ≠ 0 → exec i s = .next (s.takeTrap 0x09 info 0)) ∧
    (m.poison = false → cap.poison = false → a % m.bytes = 0 → ¬ inside → exec i s = .next (s.takeTrap 0x0A info 0)) ∧
    (m.poison = false → cap.poison = false → a % m.bytes = 0 → inside → m.store = true →
      (s.me.rd m.reg).poison = true → exec i s = .next (s.containMine 0x40))

/-- A load of P space inside its window (R202, R185, R214) asks the pool for a HOME page, and completes with the answer, and
for others completes from the page's LEASED frame, in both cases with the task's own bytes over it and the poison of the
line that it read, which an acquire is contained for. An ABSENT or DROPPED page is REQUESTED, as long as package time is locked,
and the load waits for it, as it does for a REQUESTED or REVOKING one. -/
def Sys2Proof.Claims.PoolLoad : Prop :=
  ∀ (i : Instr) (s : State) (m : Access) (c : BitVec 4) (o r : BitVec 2), accessP i s.me = some (m, c, o, r) →
    m.store = false → s.runs i = true → m.poison = false → (s.me.cap c).poison = false →
    let cap := (s.me.cap c).v
    let a := m.addr
    let acquire := o == 1
    a % m.bytes = 0 → 0 ≤ a → a + m.bytes ≤ capLen cap → capRD cap = true →
    let g := s.entered i
    let key := pKey cap a.toNat
    let own := g.ownBytes key m.bytes
    let loads := fun (u : State) (bytes : List Byte) (poison : Bool) =>
      let s' := afterLoad u m.reg acquire bytes poison
      ((acquire && poison) = false → s.hasRoom i s' = true → exec i s = .next (s.afterNext i s')) ∧
      ((acquire && poison) = true → exec i s = .next (u.beginPhase.containMine 0x40))
    (capHome cap = true → s.me.micro.stage = 0 →
      let r := g.newRemote (.homeRead key 0 m.bytes) s.grp 0 s.strand (dieOf s.core)
      let u : State := { r.2 with pool := { r.2.pool with remotes := r.2.pool.remotes.upd r.1 (fun q => { q with own := own }) } }
      exec i s = .next ((s.issuedIn (u.modMe (fun t => { t with micro := { stage := 1, id := r.1 } }))).modMe (fun t => t.issues i))) ∧
    (∀ x v po, capHome cap = true → s.me.micro.stage ≠ 0 →
      Tbl.find? s.pool.remotes s.me.micro.id = some x → x.answer = some (v, po) →
      loads (g.dropRemote s.me.micro.id) (overlay own (overlay x.own (bytesLE m.bytes v.toNat))) po) ∧
    (∀ p, capHome cap = false → s.page? (pageOf key) = some p → p.st = .leased → s.pkg.ns + 20000 < p.expiry →
      let f := ((g.modPage (pageOf key) (fun p => { p with reuse := r.toNat })).modPage (pageOf key) (fun p =>
        { p with requestedMs := max p.requestedMs (leaseMs cap) })).frameRead s.grp (pageOf key) (key % 65536) m.bytes
      loads (f.2.2.countMine 5 1) (overlay own f.1) f.2.1) ∧
    (capHome cap = false →
      let pk := pageOf key
      let reused := fun (u : State) => u.modPage pk (fun p => { p with reuse := r.toNat })
      let longer := fun (u : State) => u.modPage pk (fun p => { p with requestedMs := max p.requestedMs (leaseMs cap) })
      let waits := fun (u : State) => (s.issuedIn (u.modMe (fun t => { t with micro := { stage := 1, ids := [pk] } }))).modMe (fun t => t.issues i)
      let asks := fun (u : State) => exec i s = .next (waits u) ∧
        (s.ptp.lock = true → ∃ z, (waits u).page? pk = some z ∧ z.st = .requested)
      let ask := fun (u : State) => u.requestPage pk (leaseMs cap) false u.grp (dieOf u.core)
      (s.page? pk = none → asks (if (ask g).1 then (reused (ask g).2).countMine 6 1 else reused (ask g).2)) ∧
      (∀ p, s.page? pk = some p → p.st = .dropped → asks (ask (reused g)).2) ∧
      (∀ p, s.page? pk = some p → (p.st = .requested ∨ p.st = .revoking) → exec i s = .next (waits (longer (reused g)))))

/-- A plain store of P space enters the task's version; a release first publishes everything the version holds and
waits for that boundary, then publishes its own bytes, which the version then holds no more, and waits for them, and then
retires (R202, R211). -/
def Sys2Proof.Claims.PoolStore : Prop :=
  ∀ (i : Instr) (s : State) (m : Access) (c : BitVec 4) (o r : BitVec 2), accessP i s.me = some (m, c, o, r) →
    m.store = true →
    let cap := (s.me.cap c).v
    let x := s.me.rd m.reg
    let a := m.addr
    let g := s.entered i
    let ws := place (addrs (pKey cap a.toNat) m.bytes) (bytesLE m.bytes x.v.toNat)
    let own := fun (u : State) =>
      let v := u.modGroup s.grp (fun y => { y with ver := { y.ver with p := y.ver.p.filter (fun e => !ws.any (fun w => w.1 == e.1)) } })
      (u.acceptBytes s.grp true ws = none → exec i s = .next (s.fatalMine 0x81)) ∧
      ((u.acceptBytes s.grp true ws).isSome = true → exec i s = .next ((s.issuedIn ((v.publish s.grp [] ws).2.modMe (fun t =>
        { t with micro := { stage := 2, id := (v.publish s.grp [] ws).1 } }))).modMe (fun t => t.issues i)))
    (s.issues i 1 = true → m.poison = false → (s.me.cap c).poison = false → x.poison = false → a % m.bytes = 0 → 0 ≤ a →
      a + m.bytes ≤ capLen cap → capWR cap = true →
      (o ≠ 2 → g.acceptBytes s.grp true ws = none → exec i s = .next (s.fatalMine 0x81)) ∧
      (∀ s', o ≠ 2 → g.acceptBytes s.grp true ws = some s' → s.hasRoom i s' = true → exec i s = .next (s.afterNext i s')) ∧
      (o = 2 → exec i s = .next ((s.issuedIn ((g.phaseBoundary s.grp).2.modMe (fun t =>
          { t with micro := { stage := 1, id := (g.phaseBoundary s.grp).1 } }))).modMe (fun t => t.issues i)))) ∧
    (s.me.micro.stage = 1 → s.boundaryDone s.grp s.me.micro.id = true → own s) ∧
    (s.me.micro.stage = 2 → s.boundaryDone s.grp s.me.micro.id = true → s.hasRoom i s = true →
      exec i s = .next (s.afterNext i s))

/-- Loads and stores of P space and their checks. Log entry 48 has how a task's own bytes stand to what it reads. -/
def Obligations.PoolAccess : Prop :=
  Claims.PoolAccessChecks ∧ Claims.PoolLoad ∧ Claims.PoolStore

/-- An atomic of H space (R204, R205, R216). A release first publishes everything the version holds and waits for that boundary.
Then, with a byte of its unit in the version, it publishes that unit; while anything of the task's is unpublished it waits; and
else it updates its unit at the home in one commit, returns the old value, and as an acquire begins a phase. -/
def Sys2Proof.Claims.HostSpaceAtomic : Prop :=
  ∀ (i : Instr) (s : State) (m : Atomic), atomicH i s.me = some m →
    let g := s.entered i
    let waits := fun (u : State) (stage id : Nat) => exec i s = .next
      ((s.issuedIn (u.modMe (fun t => { t with micro := { stage := stage, id := id } }))).modMe (fun t => t.issues i))
    let performs := fun (u : State) => ∀ (pa : Nat) (x : Group), u.hPhys u.myCtx m.addr .at_ = some pa → u.groups.find? u.grp = some x →
      let unit := pa / 8
      let w := if x.ver.h.any (fun e => e.1 / 8 == unit) then (u.publishUnit u.grp false unit).2 else u
      let r := w.homeRead (addrs pa m.bytes)
      let old := BitVec.ofNat 64 (natLE r.1)
      ∀ z : Group, w.groups.find? u.grp = some z →
        (z.ver.bounds ≠ [] → waits w 2 0) ∧
        (z.ver.bounds = [] → r.2.1 = true → exec i s = .next (r.2.2.containMine 0x40)) ∧
        (z.ver.bounds = [] → r.2.1 = false →
          let v := match m.update old with
            | none => r.2.2
            | some v => (r.2.2.commitUnit unit (place (addrs pa m.bytes) (bytesLE m.bytes v.toNat))).sawOwn u.grp unit
          let s' := if m.ord.getLsbD 0 then (returned v m.ret old).beginPhase else returned v m.ret old
          s.hasRoom i s' = true → exec i s = .next (s.afterNext i s'))
    (s.issues i 1 = true → m.addrPoison = false → m.addr % m.bytes = 0 → m.poison = false →
      (m.ord.getLsbD 1 = false → performs g) ∧
      (m.ord.getLsbD 1 = true → waits (g.phaseBoundary g.grp).2 1 (g.phaseBoundary g.grp).1)) ∧
    (s.me.micro.stage = 1 → s.boundaryDone s.grp s.me.micro.id = true → performs s) ∧
    (s.me.micro.stage = 2 → performs s)

/-- An atomic of P space (R204 to R206, R216). A release first publishes everything the version holds and waits for that
boundary. Then, with a byte of its unit in the version, it publishes that unit; while anything of the task's is
unpublished it waits; and else it asks the pool. The answer completes it with the old value, and a poisoned one contains
the task. -/
def Sys2Proof.Claims.PoolAtomicOperation : Prop :=
  ∀ (i : Instr) (s : State) (m : PoolAtomic), atomicP i s.me = some m →
    let cap := (s.me.cap m.cap).v
    let a := m.off
    let key := pKey cap a.toNat
    let g := s.entered i
    let waits := fun (u : State) (stage id : Nat) => exec i s = .next
      ((s.issuedIn (u.modMe (fun t => { t with micro := { stage := stage, id := id } }))).modMe (fun t => t.issues i))
    let performs := fun (u : State) => ∀ x : Group, u.groups.find? u.grp = some x →
      let w := if x.ver.p.any (fun e => e.1 / 8 == key / 8) then (u.publishUnit u.grp true (key / 8)).2 else u
      let r := w.newRemote (.atomic key m.bytes m.op m.x m.cmp m.cas) u.grp 0 w.strand (dieOf w.core)
      ∀ z : Group, w.groups.find? u.grp = some z →
        (z.ver.bounds ≠ [] → waits w 2 0) ∧ (z.ver.bounds = [] → waits r.2 3 r.1)
    (s.issues i 1 = true → m.offPoison = false → (s.me.cap m.cap).poison = false → a % m.bytes = 0 → 0 ≤ a →
      a + m.bytes ≤ capLen cap → capAT cap = true → m.poison = false →
      (m.ord.getLsbD 1 = false → performs g) ∧
      (m.ord.getLsbD 1 = true → waits (g.phaseBoundary g.grp).2 1 (g.phaseBoundary g.grp).1)) ∧
    (s.me.micro.stage = 1 → s.boundaryDone s.grp s.me.micro.id = true → performs s) ∧
    (s.me.micro.stage = 2 → performs s) ∧
    (∀ q old po, s.me.micro.stage = 3 → Tbl.find? s.pool.remotes s.me.micro.id = some q → q.answer = some (old, po) →
      let u := s.dropRemote s.me.micro.id
      let v := BitVec.ofNat 64 (natLE (bytesLE m.bytes old.toNat))
      let s' := if m.ord.getLsbD 0 then (returned u m.ret v).beginPhase else returned u m.ret v
      (po = true → exec i s = .next (u.containMine 0x40)) ∧
      (po = false → s.hasRoom i s' = true → exec i s = .next (s.afterNext i s')))

/-- Atomics of H space and of P space. -/
def Obligations.AtomicsAtTheirHome : Prop :=
  Claims.HostSpaceAtomic ∧ Claims.PoolAtomicOperation

/-- `probe` (R206) writes how many bytes from the address on the answer covers where the right asked for is there, and
traps PROBE_FAULT or CAP_VIOL where it is not; `pf.p` (R207) inside its window claims the pages, has those that are LEASED
renewed where R187 lets it, and returns at once. -/
def Obligations.ProbeAndPrefetch : Prop :=
  ∀ (pre : Pre) (d b x : BitVec 6) (c : BitVec 4) (k sc : BitVec 2) (disp : BitVec 20) (s : State),
    let h : Instr := .probeH pre d b k x sc disp
    let p : Instr := .probeP pre d c k x sc disp
    let f : Instr := .pfP pre d c k x sc disp
    let va := longAddr s.me b x sc disp
    let off := longOff s.me x sc disp
    let cap := s.me.cap c
    let n := max (s.me.rd d).v.toNat 1
    let right := if k = 0 then Right.rd else if k = 1 then Right.wr else Right.at_
    (s.issues h 1 = true → (s.me.rd b).poison = false → (s.me.rd x).poison = false →
      (∀ l : Leaf, (s.granted h 1).hLeaf s.myCtx va (fun l => l.grants right) = some l → l.grants right = true →
        let s' := (s.granted h 1).modMe (fun t => t.result d { v := BitVec.ofNat 64 (l.size - va.toNat % l.size) })
        s.hasRoom h s' = true → exec h s = .next (s.afterNext h s')) ∧
      (((s.granted h 1).hLeaf s.myCtx va (fun l => l.grants right)).all (fun l => !l.grants right) = true →
        exec h s = .next (s.takeTrap 0x0B (BitVec.ofInt 64 va) (k.setWidth 64)))) ∧
    (s.issues p 1 = true → (s.me.rd x).poison = false → cap.poison = false →
      (0 ≤ off → off + 1 ≤ capLen cap.v → capGrants cap.v right = true →
        let s' := (s.granted p 1).modMe (fun t => t.result d { v := BitVec.ofInt 64 (capLen cap.v - off) })
        s.hasRoom p s' = true → exec p s = .next (s.afterNext p s')) ∧
      (off < 0 ∨ capLen cap.v < off + 1 ∨ capGrants cap.v right = false →
        exec p s = .next (s.takeTrap 0x0A (BitVec.ofInt 64 off) 0))) ∧
    (s.issues f 1 = true → (s.me.rd x).poison = false → cap.poison = false → (s.me.rd d).poison = false →
      (0 ≤ off → off + n ≤ capLen cap.v → capRD cap.v = true →
        let s' := (claimedPages cap.v off.toNat n).foldl State.renewPage
          ((s.granted f 1).claimPages cap.v off.toNat n k.toNat s.grp (dieOf s.core))
        s.hasRoom f s' = true → exec f s = .next (s.afterNext f s')) ∧
      (off < 0 ∨ capLen cap.v < off + n ∨ capRD cap.v = false →
        exec f s = .next (s.takeTrap 0x0A (BitVec.ofInt 64 off) 0)))

/-- The capability instructions (R183): `capld` takes an entry of the context's table whose world is the context's own
and traps CAP_VIOL beyond the table or on any other entry; `capderive` only narrows, and traps CAP_VIOL where the window
would not be inside; `capinfo` reads a field. -/
def Sys2Proof.Claims.CapabilityInstructions : Prop :=
  ∀ (pre : Pre) (d a xo xl : BitVec 6) (k : BitVec 12) (rt : BitVec 4) (sel : BitVec 2) (s : State),
    let ld : Instr := .capld pre d a k
    let dv : Instr := .capderive pre d a xo xl rt
    let inf : Instr := .capinfo pre d a sel
    let n := (s.me.rd a).v.toNat + k.toNat
    let put := fun (i : Instr) (u : State) (c : CapReg) =>
      let s' := u.modMe (fun t => { t with c := t.c.set {} d.toNat c })
      s.hasRoom i s' = true → exec i s = .next (s.afterNext i s')
    let cap := s.me.cap (a.extractLsb' 0 4)
    let o := s.me.rd xo
    let l := s.me.rd xl
    (s.issues ld 1 = true → (s.me.rd a).poison = false →
      (s.capCount s.myCtx ≤ n → exec ld s = .next (s.takeTrap 0x0A (BitVec.ofNat 64 n) 0)) ∧
      (∀ e u, n < s.capCount s.myCtx → (s.granted ld 1).capEntry s.myCtx n = (some (e, true), u) → put ld u { v := e, poison := true }) ∧
      (∀ e u, n < s.capCount s.myCtx → (s.granted ld 1).capEntry s.myCtx n = (some (e, false), u) →
        (capWorld e = (s.ctxAt s.myCtx).world → capLC e ≠ 3 → e.extractLsb' 112 2 = 0 → put ld u { v := e }) ∧
        (capWorld e ≠ (s.ctxAt s.myCtx).world → exec ld s = .next (s.takeTrap 0x0A (BitVec.ofNat 64 n) 0)))) ∧
    (s.issues dv 1 = true → o.poison = false → l.poison = false →
      (o.v.toNat % 256 = 0 → l.v.toNat % 256 = 0 → o.v.toNat + l.v.toNat ≤ capLen cap.v →
        put dv (s.granted dv 1) { v := narrowCap cap.v o.v l.v rt, poison := cap.poison }) ∧
      (o.v.toNat % 256 ≠ 0 ∨ l.v.toNat % 256 ≠ 0 ∨ capLen cap.v < o.v.toNat + l.v.toNat →
        exec dv s = .next (s.takeTrap 0x0A o.v 0))) ∧
    (s.issues inf 1 = true →
      let v : Word := match sel.toNat with
        | 0 => BitVec.ofNat 64 ((capWorld cap.v).toNat * 256 + (cap.v.extractLsb' 116 4).toNat * 16 + (capLC cap.v).toNat)
        | 1 => BitVec.ofNat 64 (capObj cap.v).toNat
        | 2 => BitVec.ofNat 64 (capBase cap.v)
        | _ => BitVec.ofNat 64 (capLen cap.v)
      let s' := (s.granted inf 1).modMe (fun t => t.result d { v := v, poison := cap.poison })
      s.hasRoom inf s' = true → exec inf s = .next (s.afterNext inf s'))

/-- A derived capability only narrows (R183): its window lies inside the old one, it has no right that the old one has
not, and its world, class and object are the same. -/
def Sys2Proof.Claims.DerivedCapabilitiesOnlyNarrow : Prop :=
  ∀ (c : BitVec 128) (xo xl : Word) (m : BitVec 4), xo.toNat % 256 = 0 → xl.toNat % 256 = 0 →
    xo.toNat + xl.toNat ≤ capLen c → capBase c + capLen c < 2 ^ 44 →
    let n := narrowCap c xo xl m
    capBase n = capBase c + xo.toNat ∧ capLen n = xl.toNat ∧ capWorld n = capWorld c ∧ capLC n = capLC c ∧
    capObj n = capObj c ∧ (∀ r : Right, capGrants n r = true → capGrants c r = true)

/-- The capability instructions, and that a derived capability only narrows. -/
def Obligations.CapabilitiesOnlyNarrow : Prop :=
  Claims.CapabilityInstructions ∧ Claims.DerivedCapabilitiesOnlyNarrow

/-- The fences (R225 to R228): `commit` publishes the version, waits for that boundary and retires when it has completed;
`xfence` fixes what later copies may read; `qfence` retires once the named queues hold none of the strand's entries;
`sfence` retires. -/
def Obligations.FencesRetireWhenTheirWorkIsDone : Prop :=
  ∀ (pre : Pre) (q : BitVec 3) (s : State) (grp : Nat) (x : Group), s.myGroup = some (grp, x) →
    (let i : Instr := .commit pre
     let b := (s.granted i 1).phaseBoundary grp
     (s.issues i 1 = true → exec i s = .next
        ((s.issuedIn (b.2.modMe (fun t => { t with micro := { stage := 1, id := b.1 } }))).modMe (fun t => t.issues i))) ∧
     (s.me.micro.stage = 1 → s.boundaryDone grp s.me.micro.id = true → s.hasRoom i s = true →
        exec i s = .next (s.afterNext i s))) ∧
    (let i : Instr := .xfence pre
     let g := s.granted i 1
     let v := x.ver
     let s' := ((({ g with nextId := g.nextId + 1 } : State).modGroup grp (fun y =>
        { y with ver := { y.ver with xfs := v.xfs.put g.nextId (v.h, v.p) } })).modMe (fun t => t.learn { xf := g.nextId }))
     s.issues i 1 = true → s.hasRoom i s' = true → exec i s = .next (s.afterNext i s')) ∧
    (let i : Instr := .qfence pre q
     let mine := fun (b : Nat) (owners : List Nat) => q.getLsbD b && owners.contains s.strand
     s.runs i = true → mine 0 (s.myCore.cq.map (fun e => e.owner)) = false → mine 1 (s.myCore.mq.map (fun e => e.owner)) = false →
      mine 2 (s.myCore.vq.map (fun e => e.owner)) = false → s.hasRoom i (s.entered i) = true →
      exec i s = .next (s.afterNext i (s.entered i))) ∧
    (let i : Instr := .sfence pre
     s.issues i 1 = true → s.hasRoom i (s.granted i 1) = true → exec i s = .next (s.afterNext i (s.granted i 1)))

/-- `st.cpa` (R238) to channel address / 8 becomes the last entry of the copy queue with the template index, the signal
choice, the offset and the strand's capabilities; a misaligned or too high aperture address, or a reserved bit of the
data, traps COPY_BAD once every earlier S instruction of its strand has retired (R86), and poison in either contains the
task. -/
def Sys2Proof.Claims.CopyStartsThroughTheAperture : Prop :=
  ∀ (i : Instr) (s : State) (d : BitVec 6) (a : Int) (po : Bool), apertureStore i s.me = some (d, a, po) →
    s.issues i 1 = true →
    let x := s.me.rd d
    let e : CEntry := { id := s.nextId, owner := s.strand, instr := i, ch := a.toNat / 8, tidx := x.v.extractLsb' 0 8, nosig := x.v.getLsbD 8, off := x.v.extractLsb' 16 48, caps := s.me.c, mark := s.me.mark, point := s.me.mark }
    let q := ({ s with nextId := s.nextId + 1 } : State).noteEntry 24 (fun c rank k =>
      { c with cq := seatEntry (fun x => rank x.owner) k c.cq e })
    (po = true ∨ x.poison = true → exec i s = .next (s.containMine 0x40)) ∧
    (s.me.outs = 0 → po = false → x.poison = false → (a % 8 ≠ 0 ∨ a < 0 ∨ 56 < a ∨ x.v.extractLsb' 9 7 ≠ 0) →
      exec i s = .next (s.takeTrap 0x0C 0 0)) ∧
    (po = false → x.poison = false → a % 8 = 0 → 0 ≤ a → a ≤ 56 → x.v.extractLsb' 9 7 = 0 →
      exec i s = .next (s.afterNext i q) ∧ ((s.myCore.rot 24).served = [] → q.myCore.cq = s.myCore.cq ++ [e]))

/-- The oldest copy-queue entry (R238, R267, R268): where the engines run it takes its tokens and its count once they are
there, and then waits for its channel to have fewer than 16 transfers that have not landed, and is performed: a `st.cpa`
becomes the last transfer of its channel. A performed entry retires once its own tokens have room: it pushes them, makes
its signal, is counted and leaves the queue. -/
def Sys2Proof.Claims.CopyQueueHandsOver : Prop :=
  (∀ (s : State) (c : Nat) (m : Mark) (e : CEntry) (rest : List CEntry) (co1 : Core), (s.coreAt c).cq = e :: rest →
    e.taken = false → s.engineRuns c = true → s.startTake c .C e.instr = some (co1, m) →
    let u := s.setCore c { co1 with cq := { e with taken := true, mark := e.mark.join m } :: rest }
    exec (.copyQueueHandover c) s = .next ((u.performCopyHead c).retireCopyHead c)) ∧
  (∀ (s : State) (c : Nat) (e : CEntry) (rest : List CEntry), (s.coreAt c).cq = e :: rest → e.taken = true → e.started = false →
    s.engineRuns c = true →
    let u := s.setCore c { s.coreAt c with cq := { e with started := true } :: rest }
    exec (.copyQueueHandover c) s = .next ((s.performCopyHead c).retireCopyHead c) ∧
    (e.isCopy = false → s.performCopyHead c = u) ∧
    (e.isCopy = true → 16 ≤ ((s.coreAt c).chan e.ch).inFlight → s.performCopyHead c = s) ∧
    (e.isCopy = true → ((s.coreAt c).chan e.ch).inFlight < 16 →
      let t : Transfer := { id := e.id, grp := u.coreGrp c, tidx := e.tidx, nosig := e.nosig, off := e.off, caps := e.caps,
                            mark := e.point, owner := e.owner }
      s.performCopyHead c = u.modChan c e.ch (fun k => { k with
        queue := k.queue ++ [{ t with seq := k.seq }], seq := k.seq + 1,
        st := if k.st = .stopped then .stopped else .busy }))) ∧
  (∀ (s : State) (c : Nat) (e : CEntry) (rest : List CEntry), (s.coreAt c).cq = e :: rest → e.taken = true → e.started = true →
    let n := match e.instr with | .tokpush _ n _ => n.toNat | _ => 1
    let sg := match e.instr with | .ksig _ k n _ => (k.toNat, n.toNat) | _ => (0, 0)
    ((s.coreAt c).room .C (instrPre e.instr) n = true → s.retireCopyHead c = s.setCore c
      ((({ (s.coreAt c).semAdd sg.1 sg.2 e.mark with cq := rest } : Core).push .C (instrPre e.instr) n e.mark).count 1 1)) ∧
    ((s.coreAt c).room .C (instrPre e.instr) n = false → s.retireCopyHead c = s) ∧
    exec (.copyQueueHandover c) s = .next (s.retireCopyHead c))

/-- `st.cpa` and the copy queue. A transfer reads by what preceded the issue of its `st.cpa` (log entry 46). -/
def Obligations.CopiesEnterTheirChannels : Prop :=
  Claims.CopyStartsThroughTheAperture ∧ Claims.CopyQueueHandsOver

/-- The channel instructions (R244): `cdrain` retires once the transfers it found have ended; `ckick` adds kicks to
a linked channel; `clink` links a channel to a chain in the partition, or unlinks it; `cresume` lets a STOPPED
channel go on from each receiver's first missing element, or abandons its transfer; `cstat` reads its status or
fault record. What is out of form traps COPY_BAD. What `cstat` counts in flight is the reading of log entry 49, which the
worked example of spec/11_copy.md gives. -/
def Obligations.ChannelInstructions : Prop :=
  ∀ (pre : Pre) (d c a : BitVec 6) (s : State),
    let v := (s.me.rd a).v
    let n := c.toNat
    let done := fun (i : Instr) (s' : State) => s.hasRoom i s' = true → exec i s = .next (s.afterNext i s')
    let bad := fun (i : Instr) => exec i s = .next (s.takeTrap 0x0C 0 0)
    let ch := s.myCore.chan n
    let linked := fun (g : State) (l : Option Link) => g.modChan s.core n (fun k => { k with link := l })
    (let i : Instr := .cdrain pre c
     let ids := if s.me.micro.stage = 1 then s.me.micro.ids else (s.entered i).drainSet n
     s.runs i = true → ((s.entered i).drains n ids = false → done i (s.entered i)) ∧
      ((s.entered i).drains n ids = true → exec i s = .next ((s.issuedIn ((s.entered i).modMe (fun t =>
        { t with micro := { stage := 1, ids := ids } }))).modMe (fun t => (t.issues i).waits (.drain n ids))))) ∧
    (let i : Instr := .ckick pre c a
     s.issues i 1 = true → (s.me.rd a).poison = false →
      (ch.link = none → bad i) ∧
      (∀ l, ch.link = some l → 2 ^ 32 ≤ (l.kicks.map (fun k => k.1)).foldl (· + ·) 0 + v.toNat → bad i) ∧
      (∀ l, ch.link = some l → (l.kicks.map (fun k => k.1)).foldl (· + ·) 0 + v.toNat < 2 ^ 32 → v ≠ 0 →
        let g := s.granted i 1
        done i (linked g (some { l with kicks := l.kicks ++ [(v.toNat, g.me.mark)] }))) ∧
      (∀ l, ch.link = some l → (l.kicks.map (fun k => k.1)).foldl (· + ·) 0 < 2 ^ 32 → v = 0 → done i (s.granted i 1))) ∧
    (let i : Instr := .clink pre c a
     let base := v.toNat % 2 ^ 48
     let cnt := v.toNat / 2 ^ 48
     ∀ g x, s.myGroup = some (g, x) → s.issues i 1 = true → (s.me.rd a).poison = false →
      (base % 16 ≠ 0 ∨ x.kdesc.pieces * 16384 < base + 16 * cnt → bad i) ∧
      (base % 16 = 0 → base + 16 * cnt ≤ x.kdesc.pieces * 16384 → done i (linked (s.granted i 1)
        (if cnt = 0 then none else some { base := BitVec.ofNat 48 base, n := cnt, caps := s.me.c, owner := s.strand })))) ∧
    (let i : Instr := .cresume pre c a
     s.issues i 1 = true → (s.me.rd a).poison = false →
      (1 < v.toNat → bad i) ∧
      (v.toNat ≤ 1 → ch.st ≠ .stopped → done i (s.granted i 1)) ∧
      (let u := (s.granted i 1).modChan s.core n (fun k => { k with st := .busy, cause := 0 })
       (ch.st = .stopped → v.toNat ≤ 1 → u.stoppedOne s.core n = none → done i (u.chanRest s.core n)) ∧
       ∀ t, ch.st = .stopped → u.stoppedOne s.core n = some t →
        (v = 0 → done i (u.setTransfer s.core n (if t.bad then t else t.resumed))) ∧
        (∀ w, v = 1 → u.endTransfer s.core n t false = .next w → done i (w.settleChan s.core n)))) ∧
    (let i : Instr := .cstat pre d a
     let k := v.toNat % 8
     let q := (s.myCore.chan k).record
     s.issues i 1 = true → (s.me.rd a).poison = false →
      (64 ≤ v.toNat ∨ 4 < v.toNat / 8 % 8 → bad i) ∧
      (v.toNat < 64 → v.toNat / 8 ≤ 4 →
        let r := match v.toNat / 8 with
          | 0 => (s.granted i 1).chanStatus s.core k
          | 1 => q.w0 | 2 => q.w1 | 3 => q.w2 | _ => q.w3
        done i ((s.granted i 1).modMe (fun t => t.result d { v := r }))))

/-- A channel's oldest transfer not started, with none of another group before it that has not landed, reads its template
and starts: one receiver for each rank of the multicast mask, or its own core's. A template that is not legal stops the
channel, one read poisoned contains the task, one that is not mapped is the fatal error TRANSLATION (R229 to R232, R239,
R243). -/
def Sys2Proof.Claims.TransferStarts : Prop :=
  ∀ (s : State) (c ch : Nat) (t : Transfer) (x : Group),
    let k := (s.coreAt c).chan ch
    k.queue.find? (fun t => !t.started) = some t → s.groups.find? t.grp = some x → x.contain = none → t.bad = false →
    ¬ (k.st = .stopped ∧ s.groupOf c = some t.grp) →
    (∀ o ∈ k.queue.takeWhile (fun y => y.id != t.id), o.grp = t.grp ∨ o.hasLanded = true) →
    (s.readTemplate x.ctx t.tidx = none → exec (.transferStart c ch) s = .next (s.fatal x.ctx 0x80)) ∧
    (∀ ws u, s.readTemplate x.ctx t.tidx = some (ws, true, u) → exec (.transferStart c ch) s = .next (u.contain t.grp 0x40)) ∧
    (∀ ws u, s.readTemplate x.ctx t.tidx = some (ws, false, u) →
      let tm := Tmpl.of ws
      (templateOk ws = true → templateFits tm x = true →
        ((tm.ssp == 3 && (t.cap tm.scap).poison) || (tm.dsp == 3 && (t.cap tm.dcap).poison)) = false →
        let ranks := if tm.mcast = 0 then [rankIn x.cores c] else (List.range 16).filter (fun r => tm.mcast.testBit r)
        exec (.transferStart c ch) s = .next ((u.setTransfer c ch { t with tmpl := ws, started := true, receivers := ranks.map (fun r => { rank := r }) }).settleChan c ch)) ∧
      (templateOk ws = false → k.queue.takeWhile (fun y => y.id != t.id) = [] →
        exec (.transferStart c ch) s =
          .next ((u.setTransfer c ch { t with bad := true, tmpl := ws }).stopTransfer c ch { t with bad := true, tmpl := ws })))

/-- An element of a started transfer is judged at its source and receivers and lands with those that share its aligned
8-byte units, but for the units that have landed already: poison outside the scratchpad contains the task, a version with
no room is VERSION_FULL (R233 to R236, R239). -/
def Sys2Proof.Claims.TransferElementsLand : Prop :=
  ∀ (s : State) (c ch n el : Nat) (t0 : Transfer) (x : Group) (l : List (Nat × List Byte × Bool)) (u : State),
    let k := (s.coreAt c).chan ch
    k.queue.find? (fun t => t.id == n) = some t0 → s.groups.find? t0.grp = some x → x.contain = none → t0.started = true →
    t0.unsent el = true → ¬ (k.st = .stopped ∧ s.groupOf c = some t0.grp) →
    let all := t0.together t0.tm.count [el]
    let t := s.judge c t0 (all.foldl max el)
    let es := all.filter t.unsent
    (∀ e ∈ es, s.behind c (k.queue.takeWhile (fun x => x.id != n)) t e = false) →
    (s.setTransfer c ch t).readSources c ch t es = .ok (l, u) →
    (t.tm.dsp ≠ 0 → (∃ e ∈ l, e.2.2 = true) → exec (.transferElementLand c ch n el) s = .next (u.contain t.grp 0x40)) ∧
    ((t.tm.dsp = 0 ∨ ∀ e ∈ l, e.2.2 = false) →
      (u.landAll c t l = none → exec (.transferElementLand c ch n el) s = .next (u.fatal (u.grpCtx t.grp) 0x81)) ∧
      (∀ w, u.landAll c t l = some w →
        let w := es.foldl (fun r e => ((t.receivers.map (u.destCore c t)).eraseDups).foldl (fun r x => u.afterSeen x (landId t.id e) r) r) w
        exec (.transferElementLand c ch n el) s = .next ((w.setTransfer c ch { t with
          landed := es.foldl (fun m e => m.set false e true) t.landed, pages := []
          early := t.early.filter (fun u => !es.contains u.1) }).settleChan c ch)))

/-- An element that could land may write one aligned 8-byte unit of the scratchpad ahead of the others (R220, R222): that
unit takes what the element would leave in it now, and no other byte of a scratchpad changes. A reduction is one update,
and writes none. -/
def Sys2Proof.Claims.TransferUnitsLandAlone : Prop :=
  ∀ (s : State) (c ch n el x unit : Nat) (t : Transfer) (es : List Nat) (l : List (Nat × List Byte × Bool)) (s1 w : State),
    s.landing c ch n el = .land t es l s1 →
    (t.tm.rop = 1 → s.landUnit c ch n el x unit = s) ∧
    (t.tm.rop ≠ 1 → t.tm.dsp = 0 → s1.landAll c t l = some w → unit < 49152 →
      (∀ p ∈ (s1.coreAt x).peeks, p.id = landId n el → p.unit ≠ unit) → (s1.coreAt x).spad.latent.get false (unit / 8) = false →
      let v := s.landUnit c ch n el x unit
      (∀ a, a / 8 = unit → (v.coreAt x).spad.bytes.get 0 a = (w.coreAt x).spad.bytes.get 0 a) ∧
      (∀ y a, (y ≠ x ∨ a / 8 ≠ unit) → (v.coreAt y).spad.bytes.get 0 a = (s1.coreAt y).spad.bytes.get 0 a))

/-- The oldest transfer of a channel, with nothing left to send, applies its signal at each receiver that holds every
element, once (R237). -/
def Sys2Proof.Claims.TransferSignals : Prop :=
  ∀ (s : State) (c ch : Nat) (t : Transfer) (rest : List Transfer) (x : Group) (r : Receiver) (u : State),
    let k := (s.coreAt c).chan ch
    k.queue = t :: rest → s.groups.find? t.grp = some x → x.contain = none → t.started = true → t.remains = false →
    ¬ (k.st = .stopped ∧ s.groupOf c = some t.grp) → t.toSignal = some r → t.signals = true →
    s.applySignal c t r = .next u →
    let rs := t.receivers.map (fun q => if q.rank = r.rank then { q with signalled := true } else q)
    exec (.transferSignal c ch) s = .next ((u.setTransfer c ch { t with receivers := rs }).settleChan c ch)

/-- A linked channel with a kick reads its next chain entry; a fetched entry whose counter covers its wait amount takes
it and is handed over, after an aperture transfer for the same channel (R240, R241). -/
def Sys2Proof.Claims.ChainEntriesFollowTheirKicks : Prop :=
  ∀ (s : State) (c ch g : Nat),
    let k := (s.coreAt c).chan ch
    s.groupOf c = some g → s.engineRuns c = true →
    (∀ l l' mark as, k.link = some l → k.fetched = none → l.kick = some (mark, l') →
      s.sLoc c g ((l.base.toNat + 16 * l.pos : Nat) : Int) 16 = .ok as →
      let r := s.sRead c as
      let w := fun j => (bytesWords 2 r.1).getD j 0
      let u := r.2.2.modChan c ch (fun k => { k with link := some l' })
      (r.2.1 = true → exec (.chainEntryFetch c ch) s = .next (u.contain g 0x40)) ∧
      (r.2.1 = false → ((w 0).extractLsb' 9 7 ≠ 0 ∨ (w 1).extractLsb' 48 16 ≠ 0) →
        exec (.chainEntryFetch c ch) s = .next (u.contain g 0x0C)) ∧
      (r.2.1 = false → (w 0).extractLsb' 9 7 = 0 → (w 1).extractLsb' 48 16 = 0 →
        exec (.chainEntryFetch c ch) s = .next (u.modChan c ch (fun k => { k with
          fetched := some { w0 := w 0, w1 := w 1, idx := l.pos, mark := mark, caps := l.caps, owner := l.owner } })))) ∧
    (∀ f, k.fetched = some f → k.inFlight < 16 → s.apertureFirst c ch = false →
      let wamt := (f.w1.toNat / 2 ^ 16) % 256
      let t := fun (u : State) => ({ id := u.nextId, grp := g, tidx := f.w0.extractLsb' 0 8, nosig := (f.w0.getLsbD 8),
                                     off := f.w0.extractLsb' 16 48, caps := f.caps, mark := f.mark, owner := f.owner, cidx := some f.idx,
                                     pamt := f.w1.toNat / 2 ^ 40 % 256, pslot := f.w1.toNat / 2 ^ 24 % 65536 } : Transfer)
      let handed := fun (u : State) => exec (.chainEntryReady c ch) s =
        .next ((({ u with nextId := u.nextId + 1 } : State).modChan c ch (fun k => { k with fetched := none })).handOver c ch (t u))
      (wamt = 0 → handed s) ∧
      (∀ as v u, wamt ≠ 0 → s.sCounter c g (8 * (f.w1.toNat % 2 ^ 16)) = .ok as v false u → wamt ≤ v →
        handed (u.sWrite c as (bytesLE 8 (v - wamt)) false)) ∧
      (∀ as v u, wamt ≠ 0 → s.sCounter c g (8 * (f.w1.toNat % 2 ^ 16)) = .ok as v false u → v < wamt →
        exec (.chainEntryReady c ch) s = .next s))

/-- A transfer from its template to its signal, and the chains. That later transfers of a channel wait behind a
stopped one is the reading of log entry 49. -/
def Obligations.TransfersRunInTheirChannels : Prop :=
  Claims.TransferStarts ∧ Claims.TransferElementsLand ∧ Claims.TransferUnitsLandAlone ∧ Claims.TransferSignals ∧ Claims.ChainEntriesFollowTheirKicks

/-- The barrier instructions (R261, R264): on a barrier that does not serve the strand they trap SYNC_BAD; `bar` arrives
and waits for its phase to end; `bar.arr` arrives and writes the phase as its token; both wait while the strand's arrival in the
phase stands; `bar.wait` retires once the phase differs from its token; `bar.exp` adds bytes to expect. -/
def Sys2Proof.Claims.BarrierInstructions : Prop :=
  ∀ (pre : Pre) (d a j : BitVec 6) (s : State),
    let k := j.toNat
    let bad := fun (i : Instr) => s.issues i 1 = true → s.myBar k = none → exec i s = .next (s.takeTrap 0x0F 0 0)
    let done := fun (i : Instr) (s' : State) => s.hasRoom i s' = true → exec i s = .next (s.afterNext i s')
    let sees := fun (u : State) (b : Barrier) => u.modMe (fun t => t.learn b.markDone)
    bad (.bar pre j) ∧ bad (.barArr pre d j) ∧
    (s.issues (.barWait pre a j) 1 = true → s.myBar k = none → (s.me.rd a).poison = false →
      exec (.barWait pre a j) s = .next (s.takeTrap 0x0F 0 0)) ∧
    (s.issues (.barExp pre a j) 1 = true → s.myBar k = none → (s.me.rd a).poison = false →
      exec (.barExp pre a j) s = .next (s.takeTrap 0x0F 0 0)) ∧
    (∀ b, s.myBar k = some b →
      (let i : Instr := .bar pre j
       let u := (s.granted i 1).arriveAt k
       (s.issues i 1 = true → s.me.arr.getLsbD k = true → exec i s = .next (s.modMe (fun t => t.waits (.arrival k)))) ∧
       (s.issues i 1 = true → s.me.arr.getLsbD k = false → exec i s = .next ((s.issuedIn (u.modMe (fun t =>
          { t with micro := { stage := 1, id := b.phase.toNat } }))).modMe (fun t => (t.issues i).waits (.barrier k b.phase)))) ∧
       (s.me.micro.stage = 1 → b.phase.toNat = s.me.micro.id →
          exec i s = .next (s.modMe (fun t => (t.issues i).waits (.barrier k b.phase)))) ∧
       (s.me.micro.stage = 1 → b.phase.toNat ≠ s.me.micro.id → done i (sees s b))) ∧
      (let i : Instr := .barArr pre d j
       (s.issues i 1 = true → s.me.arr.getLsbD k = true → exec i s = .next (s.modMe (fun t => t.waits (.arrival k)))) ∧
       (s.issues i 1 = true → s.me.arr.getLsbD k = false →
        done i (((s.granted i 1).arriveAt k).modMe (fun t => t.result d { v := b.phase.setWidth 64 })))) ∧
      (let i : Instr := .barWait pre a j
       let tok := (s.me.rd a).v.extractLsb' 0 16
       s.issues i 1 = true → (s.me.rd a).poison = false →
        (b.phase ≠ tok → done i (sees (s.granted i 1) b)) ∧
        (b.phase = tok → exec i s = .next (s.modMe (fun t => t.waits (.barrier k tok))))) ∧
      (let i : Instr := .barExp pre a j
       let v := (s.me.rd a).v.toNat
       s.issues i 1 = true → (s.me.rd a).poison = false →
        (2 ^ 40 ≤ v → exec i s = .next (s.takeTrap 0x0F 0 0)) ∧
        (v < 2 ^ 40 →
          done i ((s.granted i 1).barUpdate s.grp k (fun b => { b with bytes := b.bytes + v })))))

/-- The updates of a barrier in one clock add up, and the barrier is tested once at the clock's end (R261): where they leave
its arrivals and its expected bytes both 0 the phase ends, the phase number rises by one modulo 2^16, the arrivals start
again from the participants and the ARR bits of the sub-group's strands are clear; bytes out of their range are the fatal
error SYNC_OVERFLOW. A barrier that no update has reached is not tested. -/
def Sys2Proof.Claims.BarrierPhaseEnds : Prop :=
  ∀ (s : State) (g j : Nat) (x : Group), s.groups.find? g = some x → j < 4 →
    let b := x.bar j
    (∀ f : Barrier → Barrier, (s.barUpdate g j f).groups.find? g = some (x.setBar j { f b with touched := true })) ∧
    (b.touched = false → s.barTest g j = s) ∧
    (b.touched = true → (b.bytes < -(2 ^ 47) ∨ 2 ^ 47 ≤ b.bytes) → s.barTest g j = s.fatal x.ctx 0x82) ∧
    (b.touched = true → -(2 ^ 47) ≤ b.bytes → b.bytes < 2 ^ 47 → ∃ y, (s.barTest g j).groups.find? g = some y ∧
      (b.used = true → b.arrive = 0 → b.bytes = 0 →
        (y.bar j).phase = b.phase + 1 ∧ (y.bar j).arrive = b.part ∧ (y.bar j).bytes = 0 ∧
        (x.st.resident = true → ∀ c ∈ x.subCores j, ∀ k < 8, ((s.barTest g j).strandAt c k).arr.getLsbD j = false)) ∧
      ((b.used = false ∨ b.arrive ≠ 0 ∨ b.bytes ≠ 0) → y.bar j = { b with touched := false }))

/-- The barrier instructions and the end of a phase. What an arrival hands on is the reading of log entry 46. -/
def Obligations.Barriers : Prop :=
  Claims.BarrierInstructions ∧ Claims.BarrierPhaseEnds

/-- The token and semaphore instructions (R266 to R268). For S `tokpush` pushes its n tokens into each FIFO it names when it
retires, for which it waits inside with none pushed until there is room for them all; at issue `tokpop` takes n, `ksig` signals
n, to be added at the end of the clock, `kwait` takes n. For C, M and V they enter that engine's queue, as the last where the
clock has brought no other entry, and act when they start or retire. -/
def Sys2Proof.Claims.TokenInstructions : Prop :=
  ∀ (pre : Pre) (k n : BitVec 6) (e : BitVec 2) (s : State),
    let done := fun (i : Instr) (s' : State) => s.hasRoom i s' = true → exec i s = .next (s.afterNext i s')
    let n' := s.nextId
    let s1 : State := { s with nextId := n' + 1 }
    let queued := fun (i : Instr) =>
      let ce : CEntry := { id := n', owner := s.strand, instr := i, mark := s.me.mark, point := s.me.mark }
      let me : MEntry := { id := n', owner := s.strand, instr := i, mark := s.me.mark }
      let ve : VEntry := { id := n', owner := s.strand, instr := i, rb := s.me.rb, mark := s.me.mark }
      let q := if e = 1 then s1.noteEntry 24 (fun c r m => { c with cq := seatEntry (fun x => r x.owner) m c.cq ce })
        else if e = 2 then s1.noteEntry 25 (fun c r m => { c with mq := seatEntry (fun x => r x.owner) m c.mq me })
        else s1.noteEntry 26 (fun c r m => { c with vq := seatEntry (fun x => r x.owner) m c.vq ve })
      exec i s = .next (s.afterNext i q) ∧
      (e = 1 → (s.myCore.rot 24).served = [] → q.myCore.cq = s.myCore.cq ++ [ce]) ∧
      (e = 2 → (s.myCore.rot 25).served = [] → q.myCore.mq = s.myCore.mq ++ [me]) ∧
      (e = 3 → (s.myCore.rot 26).served = [] → q.myCore.vq = s.myCore.vq ++ [ve])
    (e ≠ 0 → s.issues (.tokpush pre n e) 1 = true → queued (.tokpush pre n e)) ∧
    (e ≠ 0 → s.issues (.tokpop pre n e) n.toNat = true → queued (.tokpop pre n e)) ∧
    (e ≠ 0 → s.issues (.ksig pre k n e) 1 = true → queued (.ksig pre k n e)) ∧
    (e ≠ 0 → s.issues (.kwait pre k n e) 1 = true → queued (.kwait pre k n e)) ∧
    (let i : Instr := .tokpush pre n 0
     let g := s.granted i 1
     let u := s.afterNext i g
     s.issues i 1 = true →
      (s.hasRoom i g = true → exec i s = .next u ∧
        (∀ f, f = Engine.S.sp ∧ pre.sp = true ∨ f = Engine.S.sn ∧ pre.sn = true →
          u.myCore.tokens f = g.myCore.tokens f ++ List.replicate n.toNat g.me.mark)) ∧
      (s.hasRoom i g = false → exec i s = .next (Sys2Proof.Machine.held i (s.issuedIn g)) ∧
        ∀ f, (Sys2Proof.Machine.held i (s.issuedIn g)).myCore.tokens f = g.myCore.tokens f)) ∧
    (let i : Instr := .tokpop pre n 0
     s.issues i n.toNat = true → s.hasRoom i (s.granted i n.toNat) = true →
      exec i s = .next (s.afterNext i (s.granted i n.toNat))) ∧
    (let i : Instr := .ksig pre k n 0
     let g := s.granted i 1
     s.issues i 1 = true → done i (g.modCore s.core (fun c => c.semAdd k.toNat n.toNat g.me.mark))) ∧
    (let i : Instr := .kwait pre k n 0
     let g := s.granted i 1
     s.issues i 1 = true → ∀ c m, g.myCore.semTake k.toNat n.toNat = some (c, m) →
      done i ((g.setCore s.core c).modMe (fun t => t.learn m)))

/-- Tokens and counts (R88, R89, R266): taking n tokens of a FIFO takes its oldest n, of those there when the clock
began, all of them or none; taking from a semaphore lowers its count by n, of what it held then; a signal is added when
the next clock begins, and where the signals of a clock take a count past 65,535 its context has the fatal error
SYNC_OVERFLOW, or one of a lower code of that clock (R327). -/
def Sys2Proof.Claims.TakingAndAdding : Prop :=
  ∀ (c : Core) (f k n : Nat) (mark : Mark),
    (n + c.fresh.get 0 f ≤ (c.tokens f).length →
      ∃ m, c.takeFrom f n = some (c.setTokens f ((c.tokens f).drop n), m)) ∧
    ((c.tokens f).length < n + c.fresh.get 0 f → c.takeFrom f n = none) ∧
    (n ≤ (c.semAt k).count →
      ∃ c' m, c.semTake k n = some (c', m) ∧ (c'.semAt k).count + n = (c.semAt k).count ∧ c'.strands = c.strands) ∧
    ((c.semAt k).count < n → c.semTake k n = none) ∧
    (((c.semAdd k n mark).semAt k).count = (c.semAt k).count ∧
      ((c.semAdd k n mark).semAt k).turn.count = (c.semAt k).turn.count + n) ∧
    (∀ s : State, ∀ e ∈ s.cores, e.2.overflows = true →
      let x := s.ctxAt (s.coreCtx e.1)
      x.st ≠ .none → x.st ≠ .retired → x.st ≠ .failed →
      ∃ d, (s.semTests.ctxAt (s.coreCtx e.1)).dying = some d ∧ d.toNat ≤ 0x82)

/-- The token and semaphore instructions, and what taking and adding do. -/
def Obligations.TokensAndSemaphores : Prop :=
  Claims.TokenInstructions ∧ Claims.TakingAndAdding

/-- Memory counters (R269): `cnt.wait` retires once its condition holds of the counter at its home, and on an H counter
begins a phase; `cnt.add` adds at the home, on an H counter once its release boundary has completed. A register out of
form traps SYNC_BAD, an unmapped counter is TRANSLATION, a poisoned one contains the task. -/
def Sys2Proof.Claims.MemoryCounters : Prop :=
  ∀ (pre : Pre) (b a : BitVec 6) (s : State),
    let q := (s.me.rd a).v
    let x := (s.me.rd b).v
    let clean := (s.me.rd a).poison = false ∧ (s.me.rd b).poison = false
    let done := fun (i : Instr) (s' : State) => s.hasRoom i s' = true → exec i s = .next (s.afterNext i s')
    let inS := q.getLsbD 2
    let value := fun (g : State) (h : Home) => h ≠ .fault ∧ h ≠ .absent ∧ (g.counterValue h).2.1 = false
    (let i : Instr := .cntWait pre b a
     let g := s.granted i 1
     let h := g.counterHome q .rd
     let r := g.counterValue h
     let holds := (q.extractLsb' 0 2 = 0 ∧ x.toNat ≤ r.1.toNat) ∨ (q.extractLsb' 0 2 = 1 ∧ r.1.toNat ≤ x.toNat) ∨
       (q.extractLsb' 0 2 = 2 ∧ r.1 = x)
     s.issues i 1 = true → clean →
      (q.extractLsb' 0 2 = 3 → exec i s = .next (s.takeTrap 0x0F 0 0)) ∧
      (q.extractLsb' 0 2 ≠ 3 → h = .fault → exec i s = .next (s.fatalMine 0x80)) ∧
      (q.extractLsb' 0 2 ≠ 3 → h ≠ .fault → h ≠ .absent → r.2.1 = true → exec i s = .next (r.2.2.containMine 0x40)) ∧
      (q.extractLsb' 0 2 ≠ 3 → value g h → holds →
        let u := r.2.2.modMe (fun t => t.learn (r.2.2.marks.get {} (g.counterKey h)))
        done i (if inS then u else u.beginPhase)) ∧
      (q.extractLsb' 0 2 ≠ 3 → value g h → ¬ holds → exec i s = .next (s.modMe (fun t => t.waits .counter)))) ∧
    (let i : Instr := .cntAdd pre b a
     let added := fun (g : State) (as : List Nat) =>
       let h : Home := if inS then .s as else .h as
       let r := g.counterValue h
       let bs := bytesLE 8 (r.1 + x).toNat
       let w := if inS then r.2.2.sWrite s.core as bs false else (r.2.2.commitBytes (place as bs)).sawOwn s.grp (as.headD 0 / 8)
       { w with marks := r.2.2.marks.set {} (g.counterKey h) (g.me.mark.join (r.2.2.marks.get {} (g.counterKey h))) }
     (s.issues i 1 = true → clean → q.extractLsb' 0 2 ≠ 0 → exec i s = .next (s.takeTrap 0x0F 0 0)) ∧
     (∀ as, s.issues i 1 = true → clean → q.extractLsb' 0 2 = 0 → inS = true →
        (s.granted i 1).counterHome q .rdwr = .s as → ((s.granted i 1).counterValue (.s as)).2.1 = false →
        done i (added (s.granted i 1) as)) ∧
     (∀ as, s.me.micro.stage = 1 → s.boundaryDone s.grp s.me.micro.id = true → inS = false →
        s.counterHome q .rdwr = .h as → (s.counterValue (.h as)).2.1 = false → done i (added s as)) ∧
     (s.issues i 1 = true → clean → q.extractLsb' 0 2 = 0 → inS = false →
        let p := (s.granted i 1).phaseBoundary s.grp
        exec i s = .next ((s.issuedIn (p.2.modMe (fun t =>
          { t with micro := { stage := 1, id := p.1 } }))).modMe (fun t => t.issues i))) ∧
     (s.me.micro.stage = 1 → s.boundaryDone s.grp s.me.micro.id = false → exec i s = .next (s.modMe (fun t => t.issues i))))

/-- Futures (R270 to R273): `fset` on an EMPTY future makes it FULL with its value at its home, once its release boundary
has completed, and wakes every group parked there; on a FULL one it changes nothing. `park` on a FULL future sets its
predicate and goes on; on an EMPTY one the group leaves its cores where the wait table has room, and else it clears its
predicate; where the group parks or exits in that clock already the strand stops before it. A misaligned address traps
MISALIGNED, a poisoned future contains the task. -/
def Sys2Proof.Claims.Futures : Prop :=
  ∀ (pre : Pre) (k b a : BitVec 6) (s : State),
    let q := s.me.rd a
    let x := (s.me.rd b).v
    let done := fun (i : Instr) (s' : State) => s.hasRoom i s' = true → exec i s = .next (s.afterNext i s')
    (let i : Instr := .fset pre b a
     let fills := fun (u : State) =>
       (u.future q.v.toNat .rdwr = none → exec i s = .next (s.fatalMine 0x80)) ∧
       (∀ pa, u.future q.v.toNat .rdwr = some pa →
         let r := u.homeRead (addrs pa 8)
         let full := (BitVec.ofNat 64 (natLE r.1)).getLsbD 63
         (r.2.1 = true → exec i s = .next (r.2.2.containMine 0x40)) ∧
         (r.2.1 = false → full = true → done i r.2.2) ∧
         (r.2.1 = false → full = false → done i (((r.2.2.commitUnit (pa / 8) (place (addrs pa 8)
           (bytesLE 8 (0x8000000000000000#64 ||| x).toNat))).sawOwn s.grp (pa / 8)).wakeFuture pa)))
     (s.issues i 1 = true → q.poison = false → q.v.toNat % 8 ≠ 0 → exec i s = .next (s.takeTrap 0x09 q.v 0)) ∧
     (s.issues i 1 = true → q.poison = false → q.v.toNat % 8 = 0 → (s.me.rd b).poison = true →
        exec i s = .next (s.containMine 0x40)) ∧
     (s.issues i 1 = true → q.poison = false → q.v.toNat % 8 = 0 → (s.me.rd b).poison = false →
        let p := (s.granted i 1).phaseBoundary s.grp
        exec i s = .next ((s.issuedIn (p.2.modMe (fun t =>
          { t with micro := { stage := 1, id := p.1 } }))).modMe (fun t => t.issues i))) ∧
     (s.me.micro.stage = 1 → s.boundaryDone s.grp s.me.micro.id = true → fills s)) ∧
    (let i : Instr := .park pre k a
     let g := s.granted i 1
     let set := fun (v : Bool) (u : State) => u.modMe (fun t => if k.toNat = 0 then t else { t with p := t.p.set {} k.toNat { v := v } })
     s.issues i 1 = true → q.poison = false →
      (q.v.toNat % 8 ≠ 0 → exec i s = .next (s.takeTrap 0x09 q.v 0)) ∧
      (q.v.toNat % 8 = 0 → g.future q.v.toNat .rd = none → exec i s = .next (s.fatalMine 0x80)) ∧
      (∀ pa, q.v.toNat % 8 = 0 → g.future q.v.toNat .rd = some pa →
        let r := g.homeRead (addrs pa 8)
        let full := (BitVec.ofNat 64 (natLE r.1)).getLsbD 63
        (r.2.1 = true → exec i s = .next (r.2.2.containMine 0x40)) ∧
        (r.2.1 = false → full = true → done i (set true r.2.2).beginPhase) ∧
        let taken := s.leaving = some .parks ∨ s.leaving = some .exits
        (r.2.1 = false → full = false → taken → exec i s = .next s) ∧
        (r.2.1 = false → full = false → ¬ taken → s.tableRoom (dieOf s.core) = false → done i (set false r.2.2)) ∧
        (r.2.1 = false → full = false → ¬ taken → s.tableRoom (dieOf s.core) = true →
          let w : WaitEntry := { die := dieOf s.core, addr := pa, ctx := s.myCtx, grp := s.grp }
          let u : State := { r.2.2 with waitTable := r.2.2.waitTable ++ [w] }
          done i ((set true u).modGroup s.grp (fun y => { y with
            leave := some .parks, parking := some { addr := pa, rank := rankIn y.cores s.core, strand := s.strand } })))))

/-- Memory counters and futures. What a counter hands on is the reading of log entry 46, the rights that cnt.add needs
that of log entry 49; that an exit comes before a park of the same clock is the model's choice (log entry 61). -/
def Obligations.CountersAndFutures : Prop :=
  Claims.MemoryCounters ∧ Claims.Futures

/-- A WAITING strand whose condition has come about becomes RUNNING (or HANDLER) and its turn comes at once; a
waiting `cnt.wait` does so where its counter meets its condition; the strands of a core that all stand at
sync-marked instructions that can issue, none of them with a fault, a halt or a watchpoint before it and the format queue
with room for what they push beside what they claim, are released together, those that claim format words first, each in
ascending order (R82, R87, R156, R269). The turn that comes at once is the
model's (log entry 8), and needs add up as log entry 13 says. -/
def Obligations.WaitsEnd : Prop :=
  ∀ (s : State) (c k : Nat),
    let t := s.strandAt c k
    let there : State := { s with core := c, strand := k }
    let woken := ((s.setStrand c k { t with life := t.active }).modCore c (fun co => co.count 7 1)).soon [.strand c k]
    (∀ g x, t.life = .waiting → t.stops = false → there.myGroup = some (g, x) → x.contain = none → (x.st = .running ∨ x.st = .saving) →
      (there.waitOver = true → exec (.strandWaitSatisfied c k) s = .next woken) ∧
      (there.waitOver = false → exec (.strandWaitSatisfied c k) s = .next s)) ∧
    (∀ pre b a h, t.life = .waiting → t.stops = false → t.wait = .counter → there.fetchMine = .instr (.cntWait pre b a) →
      there.counterHome (t.rd a).v .rd = h → h ≠ .absent → h ≠ .fault →
      counterCond ((t.rd a).v.extractLsb' 0 2) (there.counterValue h).1 (t.rd b).v = true →
      exec (.cntWaitReread c k) s = .next woken) ∧
    (∀ g x,
      let ks := (List.range 8).filter (fun k => (s.strandAt c k).life != .done)
      s.groupOf c = some g → s.groups.find? g = some x → x.contain = none → x.st = .running → ks ≠ [] →
      let claims := fun k => (tcmd ({ s with core := c, strand := k } : State).pcInstr).isSome
      let order := ks.filter claims ++ ks.filter (fun k => !claims k)
      (∀ b, s.bundle c ks { core := s.coreAt c } = some b →
        ((s.coreAt c).fq.length - b.claims + b.words ≤ Config.matrixQueue → exec (.syncRendezvous c) s =
          .next ((ks.foldl (fun u k => u.modStrand c k (fun t => { t with released := true })) s).soon
            (order.map (fun k => .strand c k)))) ∧
        (Config.matrixQueue < (s.coreAt c).fq.length - b.claims + b.words → exec (.syncRendezvous c) s = .next s)) ∧
      ((s.bundle c ks { core := s.coreAt c }).isNone = true → exec (.syncRendezvous c) s = .next s))

/-- The frond queue instructions (R292 to R296). `qpop` and `qtry` take item HEAD into the scratchpad and write its
number, read all ones from a drained queue, and where there is nothing yet `qpop` waits and `qtry` reads all ones
less 1; the line that the item fills takes its mark of poison, and a marked group's lead that comes to a take moves instead
(R289); `qpush` enters its item once its boundary has completed and the window reaches it; `qclose` fixes the end of a
queue; `pid` reads the pinna. Outside a frond, at a wrong queue or out of form they trap FROND_BAD. -/
def Sys2Proof.Claims.FrondInstructions : Prop :=
  ∀ (pre : Pre) (d b a sel : BitVec 6) (s : State),
    let x := s.me.rd a
    let done := fun (i : Instr) (s' : State) => s.hasRoom i s' = true → exec i s = .next (s.afterNext i s')
    let result := fun (v : Word) (u : State) => u.modMe (fun t => t.result d { v := v })
    let pop : Instr := .qpop pre d a
    let try' : Instr := .qtry pre d a
    let takes := fun (i : Instr) => s.issues i 1 = true → x.poison = false →
      let g := s.granted i 1
      (g.queueCheck x.v .input = none → exec i s = .next (s.takeTrap 0x10 0 0)) ∧
      (∀ l q r at', g.queueCheck x.v .input = some (l, q, r, at') → g.marked = false →
        (r.drained = true → done i (result (BitVec.allOnes 64) g)) ∧
        (∀ item as, r.drained = false → r.served s.pkg.clocks = some item → g.sLoc s.core s.grp at' 64 = .ok as →
          let u := (((g.modFrond l (fun f => f.setQueue q (r.take s.pkg.clocks))).sWrite s.core as (wordsBytes item)
            (r.spoilt.get false r.head)).beginPhase).modGroup s.grp
            (fun y => { y with pinna := y.pinna.map (fun p => { p with taken := some r.head }) })
          done i (result (BitVec.ofNat 64 r.head) u)) ∧
        (r.drained = false → r.served s.pkg.clocks = none → i = try' → done i (result (BitVec.allOnes 64 - 1) g)) ∧
        (r.drained = false → r.served s.pkg.clocks = none → i = pop → exec i s = .next (s.modMe (fun t => t.waits .rachis)))) ∧
      (∀ l q r at', g.queueCheck x.v .input = some (l, q, r, at') → g.marked = true →
        exec i s = .next (s.issuedIn (g.moveGroup g.grp)) ∧
        ∀ y, (g.groups.find? g.grp) = some y → ∃ z, (s.issuedIn (g.moveGroup g.grp)).groups.find? g.grp = some z ∧
          z.leave = some .exits ∧ ∀ p, z.pinna = some p → p.moving = true)
    takes pop ∧ takes try' ∧
    (let i : Instr := .qpush pre b a
     let n := (s.me.rd b).v.toNat
     (∀ l q r at', s.issues i 1 = true → x.poison = false → (s.me.rd b).poison = false →
        (s.granted i 1).queueCheck x.v .output = some (l, q, r, at') →
        (2 ^ 32 ≤ n ∨ n < r.head ∨ r.full n = true ∨ (∃ e, r.fin = some e ∧ e ≤ n)) → exec i s = .next (s.takeTrap 0x10 0 0)) ∧
     let enters := fun (u : State) (l q at' : Nat) =>
       ∀ r as, (u.frondOf l).bind (fun f => f.queue q) = some r → u.sLoc s.core s.grp at' 64 = .ok as → (u.sRead s.core as).2.1 = false →
        (n < r.head + r.depth → r.head ≤ n → r.full n = false →
          done i ((u.sRead s.core as).2.2.modFrond l (fun f => f.setQueue q
            (r.enter n (bytesWords 8 (u.sRead s.core as).1) s.pkg.clocks)))) ∧
        (r.head + r.depth ≤ n → exec i s = .next ((s.issuedIn (u.modMe (fun t => { t with micro := { stage := 2 } }))).modMe
          (fun t => (t.issues i).waits .rachis)))
     (∀ l q r at' as, s.issues i 1 = true → x.poison = false → (s.me.rd b).poison = false →
        (s.granted i 1).queueCheck x.v .output = some (l, q, r, at') → n < 2 ^ 32 → r.head ≤ n → r.full n = false →
        (∀ e, r.fin = some e → n < e) → (s.granted i 1).sLoc s.core s.grp at' 64 = .ok as →
        ((s.granted i 1).sRead s.core as).2.1 = false →
        let p := ((s.granted i 1).sRead s.core as).2.2.phaseBoundary s.grp
        exec i s = .next ((s.issuedIn (p.2.modMe (fun t =>
          { t with micro := { stage := 1, id := p.1 } }))).modMe (fun t => t.issues i))) ∧
     (∀ l q r at', ((s.me.micro.stage = 1 ∧ s.boundaryDone s.grp s.me.micro.id = true) ∨ s.me.micro.stage = 2) →
        x.poison = false → (s.me.rd b).poison = false → s.queueCheck x.v .output = some (l, q, r, at') → enters s l q at')) ∧
    (let i : Instr := .qclose pre b a
     let e := (s.me.rd b).v.toNat
     ∀ l q r at', s.issues i 1 = true → x.poison = false → (s.me.rd b).poison = false →
      (s.granted i 1).queueCheck x.v .output = some (l, q, r, at') →
      (2 ^ 32 < e ∨ e < r.head ∨ (∃ k ∈ r.items, e ≤ k.1) ∨ (∃ v, r.fin = some v ∧ v ≠ e) →
        exec i s = .next (s.takeTrap 0x10 0 0)) ∧
      (e ≤ 2 ^ 32 → r.head ≤ e → (∀ k ∈ r.items, k.1 < e) →
        (r.fin = none → done i ((s.granted i 1).modFrond l (fun f => f.setQueue q { r with fin := some e }))) ∧
        (r.fin = some e → done i (s.granted i 1)))) ∧
    (let i : Instr := .pid pre d sel
     s.issues i 1 = true →
      ((s.granted i 1).myFrond = none → exec i s = .next (s.takeTrap 0x10 0 0)) ∧
      (∀ l f p, (s.granted i 1).myFrond = some (l, f, p) →
        let v : Word := match sel.toNat with
          | 0 => BitVec.ofNat 64 p.pinna
          | 1 => BitVec.ofNat 64 (s.pinnaGroups l p.pinna).length
          | 2 => ((f.queues.find? (fun r => r.cons == p.pinna)).bind (fun r => r.fin)).elim (BitVec.allOnes 64) (BitVec.ofNat 64)
          | 3 => BitVec.ofNat 64 f.nitems
          | _ => BitVec.ofNat 64 p.number
        done i (result v (s.granted i 1))))

/-- What a frond does by itself (R285 to R289): the next feed item enters as soon as the window allows; when the frame
counter reaches a multiple of RBAL one group is marked for the fullest pinna, the lowest whose lead waits in its `qpop`,
which moves at once, or where none waits the highest, which moves once its lead comes to a take; and a moving group, which
ends as `gexit` ends it, starts afresh in its new pinna on the same cores. -/
def Sys2Proof.Claims.FrondEvents : Prop :=
  ∀ (s : State) (l : Nat) (x : Launch) (f : Frond), s.launches.find? l = some x → x.frond = some f →
    (∀ r, f.queue f.feedQueue = some r → x.st = .running → f.feedNext < f.nitems → f.feedNext < r.head + r.depth →
      r.full f.feedNext = false →
      let item := BitVec.ofNat 64 f.feedNext :: [4, 5, 6, 7].map (fun i => x.words.getD i 0) ++ [0, 0, 0]
      exec (.feedItemEnter l) s = .next (s.modFrond l (fun f =>
        { f.setQueue f.feedQueue (r.enter f.feedNext item s.pkg.clocks) with feedNext := f.feedNext + 1 }))) ∧
    (let frame := s.pkg.ns / 10000
     let u := s.modFrond l (fun f => { f with lastFrame := frame })
     let rbal := if f.rbal = 0 then 1 else f.rbal
     let due := x.st = .running ∧ f.lastFrame / rbal < frame / rbal
     let idle := ∀ e ∈ s.groups, e.2.launch = l → e.2.st ≠ .retired → e.2.st ≠ .ended → ∀ p, e.2.pinna = some p →
       p.mark = none ∧ p.moving = false
     (∀ g, s.moveGroup g = s.modGroup g (fun y =>
       { y with leave := some .exits, pinna := y.pinna.map (fun p => { p with moving := true }) })) ∧
     (¬ due → exec (.frondRebalance l) s = .next s) ∧
     (due → f.fixed = true → exec (.frondRebalance l) s = .next u) ∧
     (∀ t d g y, due → f.fixed = false → idle → u.rebalancePair l f = some (t, d) → (g, y) ∈ u.pinnaGroups l d →
       u.leadWaits y = true → (∀ e ∈ u.pinnaGroups l d, u.leadWaits e.2 = true → y.number ≤ e.2.number) →
       (∀ e ∈ u.pinnaGroups l d, e.2.number = y.number → e = (g, y)) →
       exec (.frondRebalance l) s = .next ((u.modGroup g (fun y => { y with pinna := y.pinna.map (fun p => { p with mark := some t }) })).moveGroup g)) ∧
     (∀ t d g y, due → f.fixed = false → idle → u.rebalancePair l f = some (t, d) → (g, y) ∈ u.pinnaGroups l d →
       (∀ e ∈ u.pinnaGroups l d, u.leadWaits e.2 = false) → (∀ e ∈ u.pinnaGroups l d, e.2.number ≤ y.number) →
       (∀ e ∈ u.pinnaGroups l d, e.2.number = y.number → e = (g, y)) →
       exec (.frondRebalance l) s = .next (u.modGroup g (fun y => { y with pinna := y.pinna.map (fun p => { p with mark := some t }) })))) ∧
    (∀ g y p t r, s.groups.find? g = some y → y.launch = l → y.pinna = some p → p.mark = some t → f.pinnae[t]? = some r →
      p.moving = true → s.finished y g = true → y.cores.Nodup →
      (∀ c ∈ y.cores, r.kdesc.pieces ≤ (s.coreAt c).freePieces.length + ((s.coreAt c).pieces.filter (fun e => e.2.grp == g)).length) →
      ∃ u z, exec (.frondGroupRestart g) s = .next u ∧ u.groups.find? g = some z ∧ z.st = .running ∧ z.cores = y.cores ∧
        z.pinna = some { pinna := t, number := p.number } ∧ z.kdesc.pieces = r.kdesc.pieces ∧
        (∀ c ∈ y.cores, (u.coreAt c).group = some g ∧ (u.coreAt c).counters = []) ∧ u.seqsOf g = [] ∧
        ∀ q ∈ (u.ctxAt y.ctx).requests, q.grp ≠ g)

/-- The frond queue instructions and what a frond does by itself. The order of takes, entries, closes and the rebalancing
step within one clock is kept by the turns (R285, `OrderWithinAClock`). -/
def Obligations.FrondQueues : Prop :=
  Claims.FrondInstructions ∧ Claims.FrondEvents

/-- Placing (R249, R252, R287, R312): a group of a launch that may start and fits is LOADING on its cores with its context
RUNNING and its launch one task further. The n-th group of a frond goes to the pinna whose share of the first groups n falls
into, on the frond's die, and with the first one its feed queue is closed. Which free pieces a group has is a free value (log
entry 25), and the ring of deficits is the reading of log entry 44. -/
def Sys2Proof.Claims.GroupsArePlaced : Prop :=
  ∀ (s u : State) (l : Nat) (cores : List Nat) (x : Launch),
    s.launches.find? l = some x → s.placeable l x = true → s.serve (s.queueAt x.queue).prio x.ctx = some u →
    let placed := fun (kd : KDesc) (pinna : Option PinnaSlot) (v : State) =>
      exec (.groupPlace l cores) s = .next v ∧
      (∃ z, v.groups.find? u.nextId = some z ∧ z.st = .loading ∧ z.cores = cores ∧ z.ctx = x.ctx ∧ z.launch = l ∧ z.saved = none ∧
        z.size = kd.gsize ∧ z.kdesc = kd ∧ z.pinna = pinna ∧
        z.task = BitVec.ofNat 64 (bitsOf (x.words.getD 2 0) 32 32 + x.next)) ∧
      (v.launches.find? l).map (fun w => w.next) = some (x.next + 1) ∧ (v.ctxAt x.ctx).st = .running ∧
      ∀ c ∈ cores, (v.coreAt c).group = some u.nextId
    (x.frond = none → s.takes cores x.kdesc.gsize x.kdesc.pieces x.ctx (s.queueAt x.queue).prio 0 = true →
      ∃ v, placed x.kdesc none v) ∧
    (∀ f p r, x.frond = some f → f.pinnae[p]? = some r →
      let first := ((f.pinnae.take p).map (fun r => r.ginit)).sum
      first ≤ x.next → x.next < first + r.ginit →
      let die := dieOf (cores.headD 0)
      (∀ d, f.die = some d → d = die) →
      s.takes cores f.gsize r.kdesc.pieces x.ctx (s.queueAt x.queue).prio 0 = true →
      ∃ v h, placed { r.kdesc with gsize := f.gsize } (some { pinna := p, number := x.next }) v ∧ v.frondOf l = some h ∧
        (x.next = 0 → h.die = some die ∧ ∀ q ∈ h.queues, q.prod = 15 → q.fin = some f.nitems))

/-- Loading (R80, R252, R278, R349): every strand of a group that has been loaded starts at its kernel's entry with the task's
number (a frond group's pinna) in x0, the spore's arguments in x1 to x4 and everything else as it starts, after an RLC task's
controllers have been loaded from its block; of a saved group the strands go on from where they stopped, one saved in the wait
of its `bar` or `syswr` in that wait, a suspended loop from a fresh window, and its PAUSED sequencers go on as well. -/
def Sys2Proof.Claims.GroupsAreLoaded : Prop :=
  ∀ (s : State) (g : Nat) (y : Group), s.groups.find? g = some y → y.st = .loading → y.contain = none →
    (∀ l, y.saved = none → s.launches.find? y.launch = some l →
      let u := y.cores.foldl (fun u c => u.startCore c y) (s.modGroup g (fun y =>
        { y with st := .running, barriers := [(0, { part := 8 * y.size, arrive := 8 * y.size, used := true })] }))
      (∀ c ∈ y.cores, ∀ k < 8,
        let t := u.strandAt c k
        t = { life := .running, pc := y.kdesc.entry, x := t.x } ∧
        t.x.get {} 0 = { v := match y.pinna with | some p => BitVec.ofNat 64 p.pinna | none => y.task } ∧
        (∀ j < 4, t.x.get {} (j + 1) = { v := l.words.getD (4 + j) 0 }) ∧ ∀ j, 4 < j → t.x.get {} j = {}) ∧
      (bitsOf (l.words.getD 0 0) 0 4 ≠ 5 → exec (.groupLoaded g) s = .next u) ∧
      (∀ ws v, bitsOf (l.words.getD 0 0) 0 4 = 5 → u.readWords y.ctx g 0 (bitsOf (l.words.getD 3 0) 16 48) 32 = .ok ws v →
        exec (.groupLoaded g) s = .next (y.cores.foldl (fun v c => v.modCore c (fun co => { co with rlc := Rlc.load ws })) v))) ∧
    (∀ img, y.saved = some img → y.cores.Nodup →
      ∃ u z, exec (.groupLoaded g) s = .next u ∧ u.groups.find? g = some z ∧ z.st = .running ∧ z.saved = none ∧ z.parking = none ∧
        (∀ c ∈ y.cores, ∀ k < 8,
          let t := s.strandAt c k
          let r := u.strandAt c k
          let inWait := t.micro.stage = 1 ∧ ((∃ j p, t.wait = .barrier j p) ∨ t.wait = .supervisor)
          t.life = .saved →
          r.pc = t.pc ∧ r.x = t.x ∧ r.p = t.p ∧ r.micro = t.micro ∧ r.preemptAt = none ∧
          (t.haltMark = true → r.life = .halted) ∧ (t.haltMark = false → inWait → r.life = .waiting) ∧
          (t.haltMark = false → ¬ inWait → r.life = if t.inHandler then .handler else .running) ∧
          (∀ e rest, t.loops = e :: rest → e.susp = true → r.loops = { e with susp := false } :: rest ∧ r.sg = 1) ∧
          (∀ e rest, t.loops = e :: rest → e.susp = false → r.loops = t.loops ∧ r.sg = t.sg)) ∧
        ∀ p < 80, (s.portAt p).seq.grp = some g → (s.portAt p).seq.st = .paused →
          (u.portAt p).seq = { (s.portAt p).seq with st := (s.portAt p).seq.pausedFrom })

/-- Retiring (R209, R212, R252, R378): an EXITING group that is empty takes its final boundary and its WAITING sequencers are
IDLE; once that boundary has completed it is RETIRED and its launch has one completed task more; the units of a group's oldest
boundary become visible in order, not in the clock of the boundary itself. That they come by rising address is the model's
choice (log entry 66). -/
def Sys2Proof.Claims.GroupsRetire : Prop :=
  ∀ (s : State) (g n : Nat) (y : Group), s.groups.find? g = some y →
    (y.st = .exiting → y.finalBound = none → y.contain = none → s.emptied y g = true →
      let u := (s.seqsOf g).foldl (fun u p => u.modSeq p (fun q =>
        if q.st = .waiting then { q with st := .idle, last := 0, word := none } else q)) s
      exec (.taskRetire g) s = .next ((u.phaseBoundary g).2.modGroup g (fun y => { y with finalBound := some (u.phaseBoundary g).1 }))) ∧
    (∀ b, y.st = .exiting → y.contain = none → y.finalBound = some b → s.boundaryDone g b = true → y.pinna = none →
      exec (.groupRetire g) s = .next (((s.removeGroup g .retired 0 false).modLaunch y.launch (fun l =>
        { l with completed := l.completed + 1 })).soon [.event (.launchEnd y.launch)])) ∧
    (∀ b rest, y.ver.bounds = b :: rest →
      (b.fresh = true → exec (.boundaryComplete g n) s = .next s) ∧
      (b.fresh = false → exec (.boundaryComplete g n) s = .next ((((b.hunits.take n).foldl (fun u h =>
        (u.commitUnit (h.addr / 8) h.bytes).sawOwn g (h.addr / 8)) s).modGroup g (fun y =>
          { y with ver := { y.ver with bounds := { b with hunits := b.hunits.drop n } :: rest } })).settleBounds g)))

/-- Groups are placed, loaded and retired. -/
def Obligations.GroupsArePlacedAndRetire : Prop :=
  Claims.GroupsArePlaced ∧ Claims.GroupsAreLoaded ∧ Claims.GroupsRetire

/-- Pre-emption (R107, R109, R335): a request gates the cores' engines and reaches every strand, which stops at its stop
point, or at its next boundary once 3 × IMAX clocks have gone by; a group that is not RUNNING ignores it. -/
def Sys2Proof.Claims.GroupsArePreempted : Prop :=
  ∀ (s : State) (g : Nat) (x : Group), s.groups.find? g = some x →
    (∀ rows, x.st = .running → x.preemptAt = none → x.contain = none → x.leave ≠ some .exits → s.mayPreempt g x = true →
      let now := s.pkg.clocks
      exec (.preemptionRequest g rows) s = .next ((List.zip (List.range x.cores.length) x.cores).foldl (fun u e =>
        (u.gate e.2 (rows.getD e.1 [])).modCore e.2 (fun co => (co.mapStrands (fun t => t.preempt now)).count 8 1))
          (s.modGroup g (fun y => { y with preemptAt := some now, pmemw := 0 })))) ∧
    (∀ rows, x.st ≠ .running → exec (.preemptionRequest g rows) s = .next s) ∧
    (∀ c k at', s.groupOf c = some g → (s.strandAt c k).preemptAt = some at' → at' + 3 * x.kdesc.imax ≤ s.pkg.clocks →
      (s.strandAt c k).life = .running → (s.strandAt c k).ending = false →
      ∃ u, exec (.strandStopTimeout c k) s = .next u ∧
        ((s.strandAt c k).between = true → (u.strandAt c k).life = .saved ∧
          (u.strandAt c k).pc = (s.strandAt c k).pc ∧ (u.strandAt c k).loops = (s.strandAt c k).loops) ∧
        ((s.strandAt c k).between = false → u = s.setStrand c k { s.strandAt c k with stopSoon := true }))

/-- Saving (R252, R335 to R339): a group that has stopped is due to be saved, and at the end of the clock, where nothing
has come before it, it is SAVED, or PARKED by a `park`, its cores are free, it has a slot of the save area and its records
have been written there: its strand records at 0, its core record and control blocks at 0x17400 of each rank's core slot,
and then what its tiles and banks hold. Tiles and pieces that others claim go to their images, the lowest piece first. The
bytes of the engine area are free values (log entry 43). -/
def Sys2Proof.Claims.GroupsAreSaved : Prop :=
  ∀ (s : State) (g : Nat) (x : Group), s.groups.find? g = some x →
    (x.leaving = true → x.leave ≠ some .exits → x.contain = none → s.linkBusy g = false → (∀ c ∈ x.cores, (s.coreAt c).quiet = true) →
      exec (.groupSaved g) s = .next (s.modGroup g (fun y => { y with saveDue := true }))) ∧
    (x.leave = some .exits ∨ x.contain.isSome = true ∨ x.leaving = false → exec (.groupSaved g) s = .next s) ∧
    (x.saveDue = true → s.saveReady g x = true →
      let u := s.saveGroup g
      ∃ y img n, ∃ w : State, u.groups.find? g = some y ∧ y.st = (if x.parking.isSome then .parked else .saved) ∧ y.preemptAt = none ∧
        y.cores = x.cores ∧ y.saved = some img ∧ img.length = x.cores.length ∧ y.slot = some n ∧
        (∀ c ∈ x.cores, (u.coreAt c).group = none) ∧
        w.groups.find? g = some y ∧ w.hbm = s.hbm ∧ (∀ c, w.coreAt c = u.coreAt c) ∧ u.hbm = (w.writeRecords g).hbm) ∧
    (x.saveDue = true → s.saveReady g x = false → s.saveGroup g = s.modGroup g (fun y => { y with saveDue := false })) ∧
    (∀ n, x.slot = some n →
      let c := s.ctxAt x.ctx
      s.writeRecords g = (List.zip (List.range x.cores.length) (List.zip x.cores (x.saved.getD []))).foldl (fun u e =>
        u.writeCore (c.slotAt n + 0x10000 + e.1 * 0x300000) e.2.2 (u.coreAt e.2.1) g x.kdesc.pieces)
          (s.writeWords (c.slotAt n) x.recordWords)) ∧
    (∀ (a : Nat) (v : CoreSave) (co : Core) (pieces : Nat), s.canonical = true → a + 0x18000 ≤ Config.hbmBytes →
      let u := (s.writeWords a v.strandWords).writeWords (a + 0x17400) (v.recordWords co g pieces)
      s.writeCore a v co g pieces = (u.freeImage (a + 0x18000) 16384).writeImages a v ∧
      (∀ j < 11904, u.hbmWord none (a + 8 * j) = (v.strands.get {} (j / 1488)).recordWord (j % 1488)) ∧
      (∀ j < 384, u.hbmWord none (a + 0x17400 + 8 * j) = (v.recordWords co g pieces).getD j 0)) ∧
    (∀ c item, item < 4 → ((s.coreAt c).tile item).st = .scanning → exec (.tileScan c item) s = .next (s.scanTile c item)) ∧
    (∀ c q p, (s.coreAt c).pieces.find? q = some p → (s.coreAt c).group ≠ some p.grp → s.groupMoving p.grp = false →
      s.piecesLacking c = true →
      (∀ r < q, ∀ o, (s.coreAt c).pieces.find? r = some o → (s.coreAt c).group = some o.grp) →
      exec (.pieceClaim c q) s = .next (s.scanPiece c q))

/-- Resuming (R252, R328, R340): a SAVED group goes to free cores, where it is LOADING; where something of its image has been
lost its context has the fatal error SAVE_LOST. Its absent pieces are then read back one by one, the lowest first, each with the
bytes that stand at its place in its core slot; one whose stored unit has failed is SAVE_LOST. -/
def Sys2Proof.Claims.GroupsAreResumed : Prop :=
  ∀ (s : State) (g : Nat) (x : Group), s.groups.find? g = some x →
    (∀ cores, x.st = .saved → x.contain = none → (s.pkg.st = .serving ∨ s.pkg.st = .draining) → s.groupMoving g = false →
      s.takes cores x.size x.kdesc.pieces x.ctx x.prio g = true →
      ((∃ v ∈ x.saved.getD [], v.lost = true) → exec (.groupResume g cores) s = .next (s.fatal x.ctx 0x83)) ∧
      (∀ u, (∀ v ∈ x.saved.getD [], v.lost = false) → s.serve x.prio x.ctx = some u →
        ∃ v y, exec (.groupResume g cores) s = .next v ∧ v.groups.find? g = some y ∧ y.st = .loading ∧ y.cores = cores ∧
          (v.ctxAt x.ctx).st = .running ∧ ∀ c ∈ cores, (v.coreAt c).group = some g)) ∧
    (∀ rank i q p, rank < x.cores.length → x.st ≠ .loading →
      let c := x.cores.getD rank 0
      s.groupOf c = some g → i < 24 → (s.coreAt c).pieceOf g i = some (q, p) → p.present = false →
      (∀ j < i, ∀ q' p', (s.coreAt c).pieceOf g j = some (q', p') → p'.present = true) →
      let kept : Mem := Tbl.get {} (x.images.get [] rank) i
      (x.badImages.contains (rank, i) = true → exec (.pieceReadback g rank) s = .next (s.fatal x.ctx 0x83)) ∧
      (x.badImages.contains (rank, i) = false →
        (∃ u : State, exec (.pieceReadback g rank) s = .next (u.landPending g) ∧
          (u.coreAt c).pieces = (s.coreAt c).pieces.put q { p with present := true } ∧
          (u.coreAt c).spad = (s.coreAt c).spad.setPiece q (s.readPiece g rank i kept)) ∧
        ∀ n, x.slot = some n → s.canonical = true →
          let a := (s.ctxAt x.ctx).slotAt n + 0x10000 + rank * 0x300000 + 0x282000 + 16384 * i
          ∀ o < 16384, (s.readPiece g rank i kept).bytes.get 0 o = s.hbm.bytes.get 0 (a + o)))

/-- Groups are pre-empted, saved and resumed. What the save area holds is the reading of log entry 43; that an instruction
which only its retirement holds does not hold a stop is log entry 57. -/
def Obligations.PreemptionSavesAndResumes : Prop :=
  Claims.GroupsArePreempted ∧ Claims.GroupsAreSaved ∧ Claims.GroupsAreResumed

/-- The writes of a queue's window (R298 to R301): a spore written to an enabled queue with a free slot fills the
slot at TAIL, QTAIL makes written slots ready, and what cannot be taken is journaled REJECTED with its cause; the
QCTL commands move the queue between its states; QDESC is written while it is DISABLED; a window that does not own
the queue changes nothing. A seal without a spore held is the reading of log entry 27. -/
def Obligations.QueueWindowWrites : Prop :=
  ∀ (s : State) (via : Via) (q : Nat),
    let x := s.queueAt q
    let rejected := fun (cause : BitVec 8) (digest : BitVec 32) => s.journal { queue := q, st := .rejected, cause := cause, digest := digest }
    (∀ bytes, x.feeds via = true → x.st ≠ .disabled → x.authenticated = false → bytes.length = 64 →
      (x.dev = true → exec (.qlaunchWrite via q 0 bytes) s = .next (rejected 0x06 (digestOf bytes))) ∧
      (x.dev = false → s.pkg.st ≠ .serving → exec (.qlaunchWrite via q 0 bytes) s =
        .next ((s.modQueue q (fun x => { x with held := none })).journal { queue := q, st := .rejected, cause := 0x05, digest := digestOf bytes })) ∧
      (x.dev = false → s.pkg.st = .serving → x.slots < x.ready + 1 → exec (.qlaunchWrite via q 0 bytes) s =
        .next ((s.modQueue q (fun x => { x with held := none })).journal { queue := q, st := .rejected, cause := 0x07, digest := digestOf bytes })) ∧
      (x.dev = false → s.pkg.st = .serving → x.ready + 1 ≤ x.slots →
        ∃ t, exec (.qlaunchWrite via q 0 bytes) s = .next t ∧ (t.queueAt q).tail = x.tail + 1 ∧ (t.queueAt q).head = x.head ∧
          (t.queueAt q).received.find? x.tail.toNat = some bytes)) ∧
    (∀ v : Word, x.feeds via = true → x.st ≠ .disabled → x.dev = false → v.extractLsb' 0 32 ≠ x.tail →
      let t := v.extractLsb' 0 32
      (s.pkg.st ≠ .serving → exec (.qtailWrite via q v) s = .next (rejected 0x05 0)) ∧
      (s.pkg.st = .serving → x.slots < x.ready + (t - x.tail).toNat → exec (.qtailWrite via q v) s = .next (rejected 0x07 0)) ∧
      (s.pkg.st = .serving → x.ready + (t - x.tail).toNat ≤ x.slots →
        exec (.qtailWrite via q v) s = .next (s.modQueue q (fun x => { x with tail := t })))) ∧
    (x.owns via = true →
      (x.st = .disabled → s.queueValid x = false → exec (.qctlEnable via q) s = .next (s.modQueue q (fun x => { x with err := 0x0D }))) ∧
      (x.st = .disabled → s.queueValid x = true → ∃ t, exec (.qctlEnable via q) s = .next t ∧ (t.queueAt q).st = .active ∧
        (t.queueAt q).head = 0 ∧ (t.queueAt q).tail = 0 ∧ (t.queueAt q).expected = 0 ∧ (t.queueAt q).err = 0 ∧
        ((s.ctxAt x.ctx).st = .loaded → (t.ctxAt x.ctx).st = .runnable)) ∧
      (x.st = .stopped → exec (.qctlEnable via q) s =
        .next (s.modQueue q (fun x => { x with st := .active, err := 0, counterStop := false }))) ∧
      (x.st = .active → exec (.qctlStop via q) s = .next (s.modQueue q (fun x => { x with st := .stopped }))) ∧
      (x.st ≠ .disabled → ∃ t, exec (.qctlDisable via q) s = .next t ∧ (t.queueAt q).st = .disabled ∧
        (x.authenticated = true → (t.queueAt q).key = none) ∧ (t.queueAt q).keyFresh = false ∧ (t.queueAt q).buffer = []) ∧
      (x.st = .halted → x.expected.toNat ≤ x.qseq.toNat →
        exec (.qctlResync via q) s = .next (s.modQueue q (fun x => { x with st := .active, expected := x.qseq }))) ∧
      (x.st = .error ∨ x.st = .rekey → x.keyFresh = true → exec (.qctlRekeyed via q) s =
        .next (s.modQueue q (fun x => { x with st := .active, expected := 0, keyFresh := false }))) ∧
      (∀ w v, x.st = .disabled → w < 4 → exec (.qdescWrite via q w v) s =
        .next (s.modQueue q (fun x => { x with desc := x.desc.set 0 w (v &&& qdescMask w) }))) ∧
      (∀ w v, x.st ≠ .disabled → exec (.qdescWrite via q w v) s = .next s)) ∧
    (x.owns via = false → exec (.qctlEnable via q) s = .next s ∧ exec (.qctlStop via q) s = .next s ∧
      exec (.qctlDisable via q) s = .next s ∧ exec (.qctlResync via q) s = .next s ∧ exec (.qctlRekeyed via q) s = .next s ∧
      ∀ w v, exec (.qdescWrite via q w v) s = .next s) ∧
    (∀ off bytes v, x.feeds via = false →
      exec (.qlaunchWrite via q off bytes) s = .next s ∧ exec (.qtailWrite via q v) s = .next s)

/-- Spores (R300 to R309, R314) and `enq` (R318): an ACTIVE queue consumes slot HEAD, an authenticated one only with the
right tag and the expected number; the oldest accepted spore is released once BAR and TICK let it; a launch all of whose
tasks have ended ends; `enq` appends its spore to a queue of its own context once its boundary has completed, or clears
its predicate. A WAIT_COUNT is released once its counter, with what the signals of the clock add to it, reaches its value,
and a counter it cannot read discards it and stops its queue (R305, R309). When a launch follows a WAIT_COUNT is the
reading of log entry 28, the end of an authenticated queue's numbers that of log entry 49. -/
def Obligations.SporesAreConsumedAndReleased : Prop :=
  (∀ (s : State) (q : Nat),
    let x := s.queueAt q
    let r := s.takeSlot q
    s.consumable q = true →
    (x.authenticated = false →
      let u := r.2.2.modQueue q (fun x => { x with sseq := x.sseq + 1 })
      (r.2.1 = true → exec (.sporeConsume q) s = .next (u.checkSpore q x.sseq r.1)) ∧
      (r.2.1 = false → exec (.sporeConsume q) s = .next (u.reject q x.sseq 0x01 (digestOf (r.1.take 64))))) ∧
    (x.authenticated = true → r.2.1 = true →
      let spore := r.1.take 64
      let ws := bytesWords 8 (r.1.drop 64)
      let seq := ws.getD 0 0
      let y := r.2.2.queueAt q
      let good := (∀ w ∈ ws.drop 5, w = 0) ∧ wordsBytes ((ws.drop 1).take 4) =
        kmac256 (bytesLE 32 (y.key.getD 0).toNat) (bytesLE 2 q ++ wordBytes seq ++ spore) "CRELEK RING" 32
      let stop := fun (st : QState) (cause : BitVec 8) => (r.2.2.modQueue q (fun x => { x with st := st, keyFresh := if st = .error then false else x.keyFresh })).reject q seq cause (digestOf spore)
      (¬ good → exec (.sporeConsume q) s = .next (stop .error 0x08)) ∧
      (good → seq.toNat < y.expected.toNat → exec (.sporeConsume q) s = .next (stop .error 0x09)) ∧
      (good → y.expected.toNat < seq.toNat → exec (.sporeConsume q) s = .next (stop .halted 0x0A)) ∧
      (good → seq = y.expected → seq ≠ BitVec.allOnes 64 → exec (.sporeConsume q) s =
        .next ((r.2.2.modQueue q (fun x => { x with expected := x.expected + 1 })).checkSpore q seq r.1)))) ∧
  (∀ (s : State) (q l : Nat) (x : Launch), s.oldestAccepted q = some (l, x) →
    (s.releases q = false ∨ s.ripe l x = false → exec (.sporeRelease q) s = .next s) ∧
    (s.releases q = true → s.ripe l x = true →
      let slip : BitVec 8 := if x.words.getD 1 0 ≠ 0 ∧ (x.words.getD 1 0).toNat + 1000 ≤ s.pkg.ns then 0x10 else 0
      let released := (s.modLaunch l (fun y => { y with st := .released })).launchRec l .released slip
      (sporeType x.words ∈ [0, 1, 5] → exec (.sporeRelease q) s = .next released) ∧
      (sporeType x.words = 2 → exec (.sporeRelease q) s = .next (released.soon [.event (.launchEnd l)])) ∧
      (sporeType x.words = 4 → sporeAddr x.words = 0 → (x.words.getD 2 0).getLsbD 48 = false →
        exec (.sporeRelease q) s = .next (released.finishLaunch l .completed 0)) ∧
      (∀ v a u, sporeType x.words = 3 → s.counterRead x.ctx (sporeAddr x.words) = (some (v, a), u) →
        let value := (v + u.reported a) % 2 ^ 64
        (value < (x.words.getD 3 0).toNat → exec (.sporeRelease q) s = .next u) ∧
        ((x.words.getD 3 0).toNat ≤ value → exec (.sporeRelease q) s = .next
          (((u.modLaunch l (fun y => { y with st := .released })).launchRec l .released slip).finishLaunch l .completed 0))) ∧
      (∀ u, sporeType x.words = 3 → s.counterRead x.ctx (sporeAddr x.words) = (none, u) → exec (.sporeRelease q) s = .next
        (((u.finishLaunch l .discarded 0x0E).modQueue x.queue (fun y => { y with st := .stopped, counterStop := true })).counterFault
          x.queue (sporeAddr x.words))))) ∧
  (∀ (s : State) (l : Nat) (x : Launch), s.launches.find? l = some x → x.st.live = true → x.graph = [] → x.frond = none →
    x.ntasks ≤ x.next → s.liveGroups l = [] →
    let st := if x.lost = 0 then LState.completed else if x.completed = 0 then .discarded else .partly
    exec (.launchEnd l) s = .next (s.finishLaunch l st 0)) ∧
  (∀ (pre : Pre) (k : BitVec 4) (a : BitVec 6) (s : State),
    let i : Instr := .enq pre k a
    let rs := [0, 1, 2, 3, 4, 5, 6, 7].map (fun j => s.me.rd (a + BitVec.ofNat 6 j))
    let q := bitsOf (s.me.rd a).v 8 10
    let x := s.queueAt q
    let set := fun (v : Bool) (u : State) => u.modMe (fun t => if k = 0 then t else { t with p := t.p.set {} k.toNat { v := v } })
    let done := fun (s' : State) => s.hasRoom i s' = true → exec i s = .next (s.afterNext i s')
    (s.issues i 1 = true → (∀ r ∈ rs, r.poison = false) → (x.dev = false ∨ x.ctx ≠ s.myCtx) →
      exec i s = .next (s.takeTrap 0x11 (BitVec.ofNat 64 q) 0)) ∧
    (let hands := fun (u : State) =>
       (u.pkg.st = .serving → (u.queueAt q).st = .active → (u.queueAt q).buffer.length < 64 →
         done (set true (u.modQueue q (fun x => { x with buffer := x.buffer ++ [rs.map (fun r => r.v)], tail := x.tail + 1 })))) ∧
       (u.pkg.st ≠ .serving ∨ (u.queueAt q).st ≠ .active ∨ 64 ≤ (u.queueAt q).buffer.length → done (set false u))
     (s.me.micro.stage = 1 → s.boundaryDone s.grp s.me.micro.id = true → hands s) ∧
     (s.issues i 1 = true → (∀ r ∈ rs, r.poison = false) → x.dev = true → x.ctx = s.myCtx →
       let p := (s.granted i 1).phaseBoundary s.grp
       exec i s = .next ((s.issuedIn (p.2.modMe (fun t =>
         { t with micro := { stage := 1, id := p.1 } }))).modMe (fun t => t.issues i))) ∧
     (s.me.micro.stage = 1 → s.boundaryDone s.grp s.me.micro.id = false → exec i s = .next (s.modMe (fun t => t.issues i)))))

/-- The refinement instructions (R353 to R359): `rlc.run` loads a good block and makes the controller ACTIVE, a bad one
leaves it EXITED; `rlc.next` prepares the entry of the next step and advances `NSTEP`, clears its predicate when the
run is over and traps when it is TRAPPED; `rlc.test` counts and judges the norms exactly and acts by the policies;
`rlc.stat` and `rlc.end`. -/
def Obligations.RefinementInstructions : Prop :=
  (∀ (pre : Pre) (a n k d sel : BitVec 6) (s : State),
    let x := s.me.rd a
    let g := fun (i : Instr) => s.granted i 1
    let done := fun (i : Instr) (s' : State) => s.hasRoom i s' = true → exec i s = .next (s.afterNext i s')
    let result := fun (v : Word) (u : State) => u.modMe (fun t => t.result d { v := v })
    (let i : Instr := .rlcRun pre a
     s.issues i 1 = true →
      (x.poison = true → exec i s = .next (s.containMine 0x40)) ∧
      (x.poison = false → x.v.toNat % 256 ≠ 0 → exec i s = .next (s.takeTrap 0x09 x.v 0)) ∧
      (x.poison = false → x.v.toNat % 256 = 0 →
        let read := (g i).readWords s.myCtx s.grp (g i).me.mark.rf x.v.toNat 32
        (read = .fault → exec i s = .next (s.fatalMine 0x80)) ∧
        (∀ u, read = .poison u → exec i s = .next (u.containMine 0x40)) ∧
        (∀ ws u, read = .ok ws u →
          let r : Rlc := { held := true, block := blockTable ws, state := 1 }
          done i (u.modRlc (fun _ => if r.good then r else { state := 2, exit := 6 }))))) ∧
    (let i : Instr := .rlcNext pre n k
     let r := (g i).myCore.rlc
     let goes := fun (entry : Word) (step : BitVec 3) => done i (((g i).modMe (fun t =>
       (t.prepare n.toNat (entry.extractLsb' 0 48) (g i).myCgen).wrP k.toNat { v := true })).modRlc (fun r => { r with nstep := step }))
     s.issues i 1 = true →
      (r.state = 3 → exec i s = .next (s.takeTrap (if r.exit = 3 then 0x15 else 0x16) (r.rung.setWidth 64) 0)) ∧
      (r.state ≠ 3 → r.state ≠ 1 → done i ((g i).modMe (fun t => t.wrP k.toNat { v := false }))) ∧
      (r.state = 1 →
        (r.nstep = 0 → goes (r.block.get 0 3) 1) ∧ (r.nstep = 1 → goes (r.block.get 0 5) 2) ∧
        (r.nstep = 2 → goes (r.block.get 0 5) 2) ∧ (r.nstep = 3 → goes (r.block.get 0 4) 4) ∧
        (r.nstep = 4 → goes (r.block.get 0 6) 1))) ∧
    (let i : Instr := .rlcTest pre d a
     let q := (g i).myCore.rlc
     s.issues i 1 = true → x.poison = false →
      ((q.state ≠ 1 ∨ q.nstep ≠ 2) → done i (result 5 (g i))) ∧
      (q.state = 1 → q.nstep = 2 → done i (result ((q.judge x.v).2.act (q.judge x.v).1).2
        ((g i).modRlc (fun _ => ((q.judge x.v).2.act (q.judge x.v).1).1))))) ∧
    (let i : Instr := .rlcStat pre d sel
     let q := (g i).myCore.rlc
     let reads := fun (v : Word) => done i (result v (g i))
     s.issues i 1 = true →
      (sel = 0 → reads q.status) ∧ (sel = 1 → reads (if q.held then (q.fmt q.rung.toNat).setWidth 64 else 0)) ∧
      (sel = 2 → reads (if q.held then BitVec.ofNat 64 (q.trm1 q.rung.toNat + 1) else 0)) ∧ (sel = 3 → reads q.norms) ∧
      (sel = 4 → reads (match q.r0 with | none => q.r0left.setWidth 64 | some v => 0x100000000#64 ||| v.setWidth 64))) ∧
    (let i : Instr := .rlcEnd pre
     s.issues i 1 = true → done i ((g i).modRlc (fun _ => {})))) ∧
  (∀ (q : Rlc) (xa : Word),
    let r := Fmt.fp32.value (xa.toNat % 2 ^ 32)
    let x := Fmt.fp32.value (xa.toNat / 2 ^ 32)
    let j := q.judge xa
    let above := fun (ratio : Nat) (of : BitVec 32) => Machine.Num.lt false (Machine.Num.mul (Fmt.fp32.value ratio) (Fmt.fp32.value of.toNat)) r = true
    let first := q.r0.getD (xa.extractLsb' 0 32)
    j.2.iter = q.iter + 1 ∧ j.2.itot.toNat = min (q.itot.toNat + 1) 65535 ∧ j.2.norms = xa ∧ j.2.rung = q.rung ∧
    j.2.nstep = q.nstep ∧ j.2.block = q.block ∧
    ((r.unfit = true ∨ x.unfit = true) → j.1 = .div ∧ j.2.r0 = q.r0 ∧ j.2.rprev = q.rprev ∧ j.2.sc = q.sc) ∧
    (r.unfit = false → x.unfit = false →
      let small := Machine.Num.lt false (Machine.Num.mul (Fmt.fp32.value q.tau) x) r = false
      let slow := ∃ p, q.rprev = some p ∧ above q.rhos p
      j.2.r0 = some first ∧ j.2.r0left = first ∧ j.2.rprev = some (xa.extractLsb' 0 32) ∧
      (small → j.1 = .conv) ∧ (¬ small → above q.rhod first → j.1 = .div) ∧
      (¬ small → ¬ above q.rhod first →
        (slow → j.2.sc.toNat = min (q.sc.toNat + 1) 15) ∧ (¬ slow → j.2.sc = 0) ∧
        (q.ns ≤ j.2.sc.toNat ∨ q.maxit ≤ j.2.iter.toNat → j.1 = .stag) ∧
        (j.2.sc.toNat < q.ns → j.2.iter.toNat < q.maxit → j.1 = .none)))) ∧
  (∀ (q : Rlc),
    let climbed := { q with rung := q.rung + 1, iter := 0, sc := 0, r0 := none, rprev := none, esc := q.esc + 1, nstep := 0 }
    let spent := { q with exit := 4, state := if q.plad = 1 then 2 else 3 }
    q.act .none = ({ q with nstep := 3 }, 0) ∧
    q.act .conv = ({ q with exit := 1, state := 2 }, 1) ∧
    (q.rung.toNat < q.nrm1 → (q.pstg = 0 → q.act .stag = (climbed, 2)) ∧ (q.pdiv = 0 → q.act .div = (climbed, 3))) ∧
    (q.rung.toNat = q.nrm1 → (q.pstg = 0 → q.act .stag = (spent, 4)) ∧ (q.pdiv = 0 → q.act .div = (spent, 4))) ∧
    (q.pstg = 1 → q.act .stag = ({ q with exit := 2, state := 2 }, 2)) ∧
    (q.pdiv = 1 → q.act .div = ({ q with exit := 3, state := 3 }, 3)) ∧
    (q.pdiv = 2 → q.act .div = ({ q with exit := 3, state := 2 }, 3)))

/-- The link instructions (R381, R382): `lnk.start` binds an IDLE sequencer of a port that is up and of the context's
world, and else writes the code of what forbids it; `lnk.step` raises `GO`, past 2^32 a fatal SYNC_OVERFLOW; `lnk.wait`
ends once `POSTED` has reached its target or the sequencer is IDLE; `lnk.stat` reads. -/
def Obligations.LinkInstructions : Prop :=
  ∀ (pre : Pre) (d a n : BitVec 6) (s : State),
    let x := s.me.rd a
    let g := fun (i : Instr) => s.granted i 1
    let done := fun (i : Instr) (s' : State) => s.hasRoom i s' = true → exec i s = .next (s.afterNext i s')
    let result := fun (v : Word) (u : State) => u.modMe (fun t => t.result d { v := v })
    let p := x.v.toNat % 128
    let bound := p < 80 ∧ s.myCore.group ≠ none ∧ (s.portAt p).seq.grp = s.myCore.group
    let q := (s.portAt p).seq
    (∀ i ∈ [Instr.lnkStart pre d a, .lnkStep pre n a, .lnkWait pre a, .lnkStat pre d a], s.issues i 1 = true → x.poison = true →
      exec i s = .next (s.containMine 0x40)) ∧
    (let i : Instr := .lnkStart pre d a
     let p := x.v.toNat / 2 ^ 56 % 128
     let q := s.portAt p
     let form := x.v.getLsbD 63 = false ∧ x.v.extractLsb' 48 8 = 0 ∧ x.v.extractLsb' 0 3 = 0 ∧ p < 80
     let world := (s.ctxAt s.myCtx).world
     let code := fun (v : Word) => done i (result v (g i))
     s.issues i 1 = true → x.poison = false →
      (¬ form → code 4) ∧ (form → q.seq.st ≠ .idle → code 1) ∧ (form → q.seq.st = .idle → q.pworld ≠ world → code 2) ∧
      (form → q.seq.st = .idle → q.pworld = world → q.st ≠ .active → q.st ≠ .degraded → code 3) ∧
      (form → q.seq.st = .idle → q.pworld = world → (q.st = .active ∨ q.st = .degraded) →
        let rank := (match s.myGroup with | some (_, y) => rankIn y.cores s.core | none => 0)
        let b : Sequencer := { st := .running, grp := s.myCore.group, prog := x.v.extractLsb' 0 48, caps := s.me.c,
                               mark := (g i).me.mark, last := q.seq.last, rank := rank }
        done i (result 0 ((g i).modSeq p (fun _ => b))))) ∧
    (let i : Instr := .lnkStep pre n a
     s.issues i 1 = true → x.poison = false →
      (¬ bound → done i (g i)) ∧
      (bound → 2 ^ 32 ≤ q.go.toNat + n.toNat → exec i s = .next (s.fatalMine 0x82)) ∧
      (bound → q.go.toNat + n.toNat < 2 ^ 32 →
        done i ((g i).modSeq p (fun q => { q with go := q.go + n.setWidth 32, mark := q.mark.join (g i).me.mark })))) ∧
    (let i : Instr := .lnkWait pre a
     let reached := (q.posted - x.v.extractLsb' 32 32).toNat < 2 ^ 31 ∨ q.st = .idle
     s.issues i 1 = true → x.poison = false →
      (¬ bound → done i (g i)) ∧ (bound → reached → done i ((g i).modMe (fun t => t.learn q.mark))) ∧
      (bound → ¬ reached → exec i s = .next (s.modMe (fun t => t.waits (.posted p (x.v.extractLsb' 32 32)))))) ∧
    (let i : Instr := .lnkStat pre d a
     let sel := x.v.toNat / 256 % 8
     let reads := fun (v : Word) => done i (result v (g i))
     s.issues i 1 = true → x.poison = false →
      (80 ≤ p ∨ 5 ≤ sel → reads 0) ∧ (p < 80 → sel = 0 → reads (s.pstate p)) ∧ (p < 80 → sel = 4 → reads (s.peolh p)) ∧
      (bound → sel = 1 → reads (q.status true)) ∧ (bound → sel = 2 → reads (q.posted.setWidth 64)) ∧
      (bound → sel = 3 → reads (q.go.setWidth 64)) ∧ (p < 80 → ¬ bound → 1 ≤ sel → sel ≤ 3 → reads 0))

/-- The sequencer of a port (R378, R380): RUNNING for a task that is not being contained it fetches its word at its
program address plus 8 × `SPCW` and performs it: generators, loops, `sq.wait` and `sq.post`, fences, marks and the
halt; words out of form and words of the wrong port contain the task; gets and puts begin one operation a message. -/
def Sys2Proof.Claims.SequencerPerformsItsWords : Prop :=
  ∀ (s : State) (g : Nat) (x : Group),
    let q := (s.portAt s.port).seq
    q.st = .running → q.grp = some g → s.groups.find? g = some x → x.contain = none →
    let goes := fun (i : Instr) (f : Sequencer → Sequencer) => exec i s = .next (s.modSeq s.port (fun q =>
      { f q with spcw := (f q).spcw + 1, word := none, sent := 0 }))
    let stops := fun (i : Instr) (cause : BitVec 8) => exec i s = .next (s.seqContain s.port cause)
    let gen := fun (j : Nat) => q.gens.get {} j
    let bump := fun (gl gr : BitVec 2) (bl br : BitVec 1) (q : Sequencer) =>
      let q := if bl = 1 then q.modGen gl.toNat (fun x => { x with a := x.a + x.d0 }) else q
      if br = 1 then q.modGen gr.toNat (fun x => { x with a := x.a + x.d0 }) else q
    (goes .sqNop id ∧
     (∀ gi v, goes (.sqCfg gi 0 v) (fun q => q.modGen gi.toNat (fun x => { x with a := v })) ∧
       goes (.sqCfg gi 1 v) (fun q => q.modGen gi.toNat (fun x => { x with d0 := v })) ∧
       goes (.sqCfg gi 2 v) (fun q => q.modGen gi.toNat (fun x => { x with d1 := v })) ∧
       goes (.sqCfg gi 3 v) (fun q => q.modGen gi.toNat (fun x => { x with kind := v.extractLsb' 0 2, capi := v.extractLsb' 4 4 }))) ∧
     (∀ k n, ((q.loops.get {} k.toNat).active = true → stops (.sqLoop k n) 0x01) ∧
       ((q.loops.get {} k.toNat).active = false → n = 0 → goes (.sqLoop k n) (fun q => { q with skip := some k })) ∧
       ((q.loops.get {} k.toNat).active = false → n ≠ 0 → goes (.sqLoop k n) (fun q =>
         { q with loops := q.loops.set {} k.toNat { remain := n, start := q.spcw + 1, active := true } }))) ∧
     (∀ k m,
       let l := q.loops.get {} k.toNat
       let stepped : Sequencer → Sequencer := fun q =>
         (List.range 4).foldl (fun q i => if m.getLsbD i then q.modGen i (fun x => { x with a := x.a + x.d1 }) else q) q
       (l.active = false → stops (.sqEndl k m) 0x01) ∧
       (l.active = true → l.remain = 1 → goes (.sqEndl k m) (fun q =>
         let r := stepped q
         { r with loops := r.loops.set {} k.toNat { l with remain := 0, active := false } })) ∧
       (l.active = true → l.remain ≠ 1 → ∃ u, exec (.sqEndl k m) s = .next u ∧
         let r := (u.portAt s.port).seq
         r.spcw = l.start ∧ r.word = none ∧ r.gens = (stepped q).gens ∧
         r.loops = q.loops.set {} k.toNat { l with remain := l.remain - 1 })) ∧
     (∀ n, (n.toNat ≤ q.go.toNat → goes (.sqWait n) (fun q => { q with go := q.go - n.setWidth 32 })) ∧
       (q.go.toNat < n.toNat → exec (.sqWait n) s =
         .next (s.modSeq s.port (fun q => { q with st := .waiting, need := n.setWidth 32 })))) ∧
     (∀ n, (s.getsOpen s.port = false → goes (.sqPost n) (fun q => { q with posted := q.posted + n.setWidth 32 })) ∧
       (s.getsOpen s.port = true → exec (.sqPost n) s = .next s)) ∧
     (s.linkOps s.port = [] → goes .sqFence id) ∧
     (s.linkOps s.port ≠ [] → exec .sqFence s = .next (s.modSeq s.port (fun q => { q with st := .fencing })) ∧
       exec .sqHalt s = .next (s.modSeq s.port (fun q => { q with st := .fencing }))) ∧
     (s.linkOps s.port = [] → ∃ u, exec .sqHalt s = .next u ∧ (u.portAt s.port).seq.st = .idle ∧
       (u.portAt s.port).seq.last = 0 ∧ (u.portAt s.port).seq.grp = some g ∧ (u.portAt s.port).seq.spcw = q.spcw + 1) ∧
     (∀ v, exec (.sqEv v) s = .next ((s.modSeq s.port (fun q => { q with spcw := q.spcw + 1, word := none, sent := 0 })).event
       0x19 s.port 0xFF v.toNat (s.grpCtx g)))) ∧
    (∀ gl gr bl br n,
      let i : Instr := .sqGet gl gr bl br n
      let len := n.toNat * 64
      let l := gen gl.toNat
      let r := gen gr.toNat
      let c := q.caps.get {} r.capi.toNat
      let form := l.kind.toNat < 2 ∧ l.a.toNat % 64 = 0 ∧ r.a.toNat % 64 = 0 ∧ r.kind = 2 ∧ peerFacing s.port = false
      (¬ form → stops i 0x01) ∧ (form → c.poison = true → stops i 0x40) ∧
      (form → c.poison = false → capCheck c.v r.a.toNat len .rd = false → stops i 0x0A) ∧
      (form → c.poison = false → capCheck c.v r.a.toNat len .rd = true → q.sent = 0 → s.linkOps s.port = [] → len ≤ 65536 → n ≠ 0 →
        exec i s = .next ((s.newLink s.port g (.get s.port (pKey c.v r.a.toNat) l.kind l.a.toNat len)).modSeq s.port (fun q =>
          let r := bump gl gr bl br q
          { r with spcw := r.spcw + 1, word := none, sent := 0 })))) ∧
    (∀ gl gr bl br n o dec,
      let len := n.toNat * 64
      let l := gen gl.toNat
      let r := gen gr.toNat
      let form := l.kind.toNat < 2 ∧ l.a.toNat % 64 = 0 ∧ r.a.toNat % 64 = 0 ∧ r.kind = 3 ∧ peerFacing s.port = true
      let sends := fun (i : Instr) (sig : Option (Nat × Nat)) =>
        (¬ form → stops i 0x01) ∧
        (form → q.sent = 0 → s.linkOps s.port = [] → len ≤ 65536 → n ≠ 0 →
          (∀ bs u, s.putSource g q l.kind l.a.toNat len = .ok bs u → u.port = s.port →
            exec i s = .next ((u.newLink s.port g (.put s.port r.a.toNat bs sig)).modSeq s.port (fun q =>
              let r := bump gl gr bl br q
              { r with spcw := r.spcw + 1, word := none, sent := 0 }))) ∧
          (∀ u, s.putSource g q l.kind l.a.toNat len = .stop u → exec i s = .next u))
      sends (.sqPut gl gr bl br n) none ∧ sends (.sqPutsig gl gr bl br o dec n) (some (o.toNat * 8, dec.toNat))) ∧
    (∀ p, p = s.port → q.skip = none → q.word = none →
      let va : Nat := q.prog.toNat + 8 * q.spcw.toNat
      (s.hPhys (s.grpCtx g) (va : Int) .rd = none → exec (.sequencerWordFetch p) s = .next (s.seqFatal p g 0x80)) ∧
      (∀ pa, s.hPhys (s.grpCtx g) (va : Int) .rd = some pa →
        let r := s.homeRead (addrs pa 8)
        (r.2.1 = true → exec (.sequencerWordFetch p) s = .next (r.2.2.seqContain p 0x40)) ∧
        (r.2.1 = false → exec (.sequencerWordFetch p) s =
          .next (r.2.2.modSeq p (fun q => { q with word := some (BitVec.ofNat 64 (natLE r.1)) }))))) ∧
    (∀ p w, p = s.port → q.word = some w → (∀ i, decodeSq w ≠ .ok i) → stops (.sequencerWordFetch p) 0x01)

/-- A WAITING sequencer whose count has come takes it and goes on with the next word; a FENCING one goes on at its word
once its operations are complete (R378). -/
def Sys2Proof.Claims.SequencerWaitsEnd : Prop :=
  ∀ (s : State) (p : Nat),
    let q := (s.portAt p).seq
    (q.st = .waiting → q.go.toNat < q.need.toNat → exec (.sequencerWaitEnd p) s = .next s) ∧
    (q.st = .waiting → q.need.toNat ≤ q.go.toNat → ∃ u, exec (.sequencerWaitEnd p) s = .next u ∧
      let r := (u.portAt p).seq
      r.st = .running ∧ r.go = q.go - q.need ∧ r.spcw = q.spcw + 1 ∧ r.word = none ∧ r.grp = q.grp) ∧
    (q.st = .fencing → s.linkOps p = [] → exec (.sequencerWaitEnd p) s = .next (s.modSeq p (fun q => { q with st := .running }))) ∧
    (q.st = .fencing → s.linkOps p ≠ [] → exec (.sequencerWaitEnd p) s = .next s)

/-- The words of a sequencer and the end of its waits. How a word that cannot be fetched or is no word ends the task
is the reading of log entry 41, SPCW while waiting that of log entry 13. -/
def Obligations.Sequencers : Prop :=
  Claims.SequencerPerformsItsWords ∧ Claims.SequencerWaitsEnd

/-- A precise trap (R332, R333): outside the handler it saves the address, the cause and the two information words,
keeps the loop context aside and goes to HENTRY in HANDLER, all else of the package unchanged; inside the handler it
contains the task with DOUBLE, and without a handler with its own cause. -/
def Sys2Proof.Claims.TrapEntersTheHandler : Prop :=
  ∀ (s : State) (cause : BitVec 8) (info info2 : Word),
    let t := s.me
    let entry := (s.ctxAt s.myCtx).hentry
    (t.hidden ≠ none → s.takeTrap cause info info2 = s.containMine 0x44) ∧
    (t.hidden = none → entry = 0 → s.takeTrap cause info info2 = s.containMine cause) ∧
    (t.hidden = none → entry ≠ 0 → t.preemptAt = none → t.stopSoon = false → t.haltSoon = false → t.ending = false → t.life ≠ .halted →
      s.takeTrap cause info info2 = (s.setMe { t with
        epc := t.pc.setWidth 64, ecause := cause.setWidth 64, einfo := info, einfo2 := info2,
        hidden := some { loops := t.loops, sg := t.sg, rb := t.rb }, loops := [], sg := 0xF, rb := 0,
        pc := entry, life := .handler, micro := {}, wait := .grants [], released := false, stepping := false }).countMine 9 1)

/-- What stands at a strand's PC where no instruction does and the strand is to issue: an illegal encoding traps ILLEGAL
with its first word, a fetch that fails its checks traps with the check's cause and address, or, from a page without the
execute right, is a fatal TRANSLATION, and an extension word traps ILLEGAL (R41, R46, R48, R194), each after the strand's
earlier S instructions (R86). A prefetch ends with the checks of `bprep` (R92); a COPY_FAULT owed to a strand is taken at
its boundary (R246). That `bprep` does not check the execute right is the reading of log entry 54. -/
def Sys2Proof.Claims.StrandEventsTrap : Prop :=
  ∀ (s : State),
    (∀ w, s.fetchMine = .illegal w → s.me.outs = 0 →
      (s.strandInstr = some .illegalEncoding → exec .illegalEncoding s = .next (s.takeTrap 0x01 (w.setWidth 64) 0)) ∧
      (s.strandInstr = some .fetchFault → exec .fetchFault s = .next (s.takeTrap 0x01 (w.setWidth 64) 0))) ∧
    (∀ c a, s.fetchMine = .fault c a → s.strandInstr = some .fetchFault →
      (c = 0x80 → exec .fetchFault s = .next (s.fatalMine 0x80)) ∧
      (c ≠ 0x80 → s.me.outs = 0 → exec .fetchFault s = .next (s.takeTrap c a 0)) ∧
      (c ≠ 0x80 → s.me.outs ≠ 0 → exec .fetchFault s = .next s)) ∧
    (s.strandInstr ≠ some .fetchFault → exec .fetchFault s = .next s) ∧
    (s.strandInstr ≠ some .illegalEncoding → exec .illegalEncoding s = .next s) ∧
    (∀ c k b g x,
      let t := s.strandAt c k
      let r := t.btr b
      r.st = .preparing → s.groupOf c = some g → s.groups.find? g = some x →
      (s.targetFault x.ctx r.target.toNat = none →
        exec (.btrPrefetchDone c k b) s = .next (s.setStrand c k (t.setBtr b { r with st := .ready }))) ∧
      (∀ f, s.targetFault x.ctx r.target.toNat = some f → ∃ u, exec (.btrPrefetchDone c k b) s = .next u ∧
        ((u.strandAt c k).btr b).st = .faulted ∧ ((u.strandAt c k).btr b).cause = f)) ∧
    (∀ c k b, ((s.strandAt c k).btr b).st ≠ .preparing → exec (.btrPrefetchDone c k b) s = .next s) ∧
    (∀ c k ch,
      let t := s.strandAt c k
      (s.coreAt c).owedChannel k = some ch →
      (t.hidden ≠ none → exec (.copyFaultTaken c k) s = .next s) ∧
      (t.outs ≠ 0 ∨ (t.life = .running ∧ t.micro.stage ≠ 0) → exec (.copyFaultTaken c k) s = .next s) ∧
      (t.hidden = none → t.outs = 0 →
        (t.life = .waiting ∨ ((t.life = .running ∨ (t.life = .halted ∧ t.stepping = true)) ∧ t.micro.stage = 0)) →
        let half := match t.wait with
          | .barrier j tok => if t.life = .waiting ∧ t.micro.stage = 1 then some (j, tok) else none
          | _ => none
        let u := (s.modChan c ch (fun q => { q with fpend := false })).setStrand c k
          { t with waitHalf := half, life := if t.life = .waiting then .running else t.life, wait := .grants [], micro := {} }
        exec (.copyFaultTaken c k) s = .next ({ u with core := c, strand := k }.takeTrap 0x0D (BitVec.ofNat 64 ch) 0)))

/-- Poison that an instruction must not take contains its task with POISON, and nothing is performed (R198). -/
def Sys2Proof.Claims.PoisonContainsTheTask : Prop :=
  ∀ (pre : Pre) (x y : BitVec 6) (b : BitVec 3) (p : BitVec 4) (e r : BitVec 1) (n : BitVec 2) (s : State),
    let contains := fun (i : Instr) => s.issues i 1 = true → exec i s = .next (s.containMine 0x40)
    ((s.me.rd y).poison = true → contains (.bprepi pre x y) ∧ contains (.bprepiMeta pre x y) ∧ contains (.lsetupReg pre r n y) ∧
      contains (.fset pre x y) ∧ contains (.park pre x y) ∧ contains (.cntWait pre x y) ∧
      contains (.cntAdd pre x y) ∧ contains (.rlcTest pre x y) ∧ contains (.gsplit pre y)) ∧
    (s.me.inHandler = true → (x = 0 ∨ x = 8) → (s.me.rd y).poison = true → contains (.syswr pre x y)) ∧
    ((s.me.rdP p.toNat).poison = true → contains (.jmp pre b p e) ∧ contains (.call pre b p e) ∧ contains (.lbreak pre p e))

/-- Precise traps, the traps that no instruction raises, and what poison contains: branch targets, loop counts,
transfers, counters, futures, splits and requests. That a missing execute right is found when the word is fetched,
and not by `bprep`, is the reading of log entry 54; that a COPY_FAULT waits until the strand's outstanding S instructions have
retired is that of log entry 63. -/
def Obligations.Traps : Prop :=
  Claims.TrapEntersTheHandler ∧ Claims.StrandEventsTrap ∧ Claims.PoisonContainsTheTask

/-- The package's states (R20 to R24): power-on, identity, configuration with its checks, the session's two seconds,
DRAIN, its deadline and the end of the drain, which fall at the end of a clock, RESUME, RESET, over which a laser's `AGE` is
kept (R362), and the loss of power, which keep the flash and the switches of the ports alone (R374), and a fatal error, which
stops the package but in RESET and FAILED. Only the host's window commands; the power cap is clamped to its range (R17). That
RESET clears HBM is the reading of log entry 19, what happens to units published before a failure that of log entry 7; where the
fields of an image's header stand, over what an image is signed and that a write of the flash advances its counter by 1 are the
model's (log entry 67). -/
def Obligations.PackageStates : Prop :=
  ∀ (s : State),
    let fails := fun (i : Instr) (cause : BitVec 8) => ∃ u, exec i s = .next u ∧ u.pkg.st = .failed ∧ u.pkg.failCause = cause ∧
      u.pool.token = none ∧ u.pool.remotes = [] ∧ (∀ e ∈ u.groups, e.2.ver = {}) ∧ u.flash = s.flash
    let keeps := fun (i : Instr) => exec i s = .next s
    (s.pkg.st = .reset → exec .powerGood s = .next { s with pkg := { s.pkg with st := .identify, timeRuns := true, ns := 0 } }) ∧
    (s.pkg.st ≠ .reset → keeps .powerGood) ∧
    (∀ seed, (s.pkg.st ≠ .identify → keeps (.identityDerived seed)) ∧
      (s.pkg.st = .identify → ∃ u, exec (.identityDerived seed) s = .next u ∧ u.pkg.st = .configure ∧ u.puf = some u.pkg.seed ∧
        (s.puf = none → u.pkg.seed = seed) ∧ (∀ kept, s.puf = some kept → u.pkg.seed = kept) ∧
        u.pkg.pubkey = Config.xmssPublicKey u.pkg.seed ∧ u.pkg.pid = BitVec.ofNat 64 (natLE (shake256 u.pkg.pubkey 8)))) ∧
    (s.pkg.st = .identify → fails .pufFail 0x01) ∧ (s.pkg.st ≠ .identify → keeps .pufFail) ∧
    (let signed := fun (i : Image) => i.length = i.bytes.length ∧ shake256 i.key 64 = Config.romKeyDigest ∧
       Config.xmssVerify i.key (bytesLE 8 i.length ++ bytesLE 4 i.version.toNat ++ i.bytes) i.signature = true
     let good := fun (i : Image) (floor : BitVec 32) => signed i ∧ floor.toNat ≤ i.version.toNat
     let ok := s.flashAnswers = true ∧ good s.flash.recovery s.flash.recoveryFloor ∧ good s.flash.bitstream s.flash.bitstreamFloor
     (s.pkg.st ≠ .configure → keeps .configurationLoaded ∧ keeps .configurationFail) ∧
     (s.pkg.st = .configure → fails .configurationFail 0x02) ∧
     (s.pkg.st = .configure → ¬ ok → fails .configurationLoaded 0x02) ∧
     (s.pkg.st = .configure → ok → s.pool.token = none → ∃ u, exec .configurationLoaded s = .next u ∧ u.pkg.st = .train ∧
       u.flash = { s.flash with cfgGen := s.flash.cfgGen + 1, counter := s.flash.counter + 1 } ∧
       u.pkg.flashSeen = s.flash.counter + 1 ∧ u.pkg.trainSince = s.pkg.up ∧
       u.pkg.bmeas = BitVec.ofNat 512 (natLE (shake256 s.flash.bitstream.bytes 64)) ∧
       u.pkg.rmeas = BitVec.ofNat 512 (natLE (shake256 s.flash.recovery.bytes 64)))) ∧
    (s.pkg.st = .train → s.pool.token = none → s.pkg.trainSince + 2000000000 ≤ s.pkg.up → fails .sessionTimeout 0x03) ∧
    (s.pkg.st ≠ .train ∨ s.pool.token ≠ none ∨ s.pkg.up < s.pkg.trainSince + 2000000000 → keeps .sessionTimeout) ∧
    (∀ n : BitVec 32,
      let due := if n = 0 then none else some (s.pkg.ns + n.toNat * 1000)
      (s.pkg.st ≠ .serving → keeps (.pkgCtlDrain .host n)) ∧
      (s.pkg.st = .serving → exec (.pkgCtlDrain .host n) s =
        .next { s with pkg := { s.pkg with st := .draining, drainDeadline := due } })) ∧
    (let idle := ∀ e ∈ s.groups, e.2.st = .retired ∨ e.2.st = .ended
     (s.pkg.st ≠ .draining ∨ ¬ idle → s.drainTest = s) ∧
     (s.pkg.st = .draining → idle → s.drainTest.pkg.st = .quiesced ∧ s.drainTest.pkg.drainDeadline = none ∧
       s.drainTest.pool.token = none ∧ s.drainTest.pool.pages = [])) ∧
    (s.pkg.st = .quiesced → ∃ u, exec (.pkgCtlResume .host) s = .next u ∧ u.pkg.st = .train ∧ u.pkg.trainSince = s.pkg.up ∧
      u.pool.token = none) ∧
    (s.pkg.st ≠ .quiesced → keeps (.pkgCtlResume .host)) ∧
    (∀ i ∈ [Instr.pkgCtlReset .host, .powerLoss], ∃ u, exec i s = .next u ∧ u.pkg = {} ∧ u.flash = s.flash ∧
      u.switches = s.switches ∧ u.puf = s.puf ∧ u.cores = [] ∧
      u.groups = [] ∧ u.launches = [] ∧ u.queues = [] ∧ u.contexts = [] ∧ u.worldKeys = [] ∧ u.pool = {} ∧ u.jbuf = [] ∧ u.ring = [] ∧
      (∀ p, { u.portAt p with lanes := [] } = {} ∧ ∀ l, { (u.portAt p).lane l with fresh := 0 } = {}) ∧
      (i = .powerLoss → u.ports = []) ∧
      (i = .pkgCtlReset .host → (s.ports.map (fun e => e.1)).Nodup → (∀ e ∈ s.ports, (e.2.lanes.map (fun l => l.1)).Nodup) →
        ∀ p l, u.laserAge p l = s.laserAge p l) ∧
      u.hbm = {} ∧ u.sealed = {} ∧ u.waitTable = [] ∧ u.ptp = {} ∧ u.completions = [] ∧ u.attest = {}) ∧
    (∀ v : Word, ∃ u, exec (.pkgPwrWrite .host v) s = .next u ∧ u.pkg.cap = v.extractLsb' 0 12 ∧
      (u.pkg.cap.toNat < 1800 → u.pkg.capEffective = 1800) ∧ (3600 < u.pkg.cap.toNat → u.pkg.capEffective = 3600) ∧
      (1800 ≤ u.pkg.cap.toNat → u.pkg.cap.toNat ≤ 3600 → u.pkg.capEffective = u.pkg.cap.toNat)) ∧
    (∀ w n v, keeps (.pkgCtlDrain (.guest w) n) ∧ keeps (.pkgCtlResume (.guest w)) ∧ keeps (.pkgCtlReset (.guest w)) ∧
      keeps (.pkgPwrWrite (.guest w) v)) ∧
    (s.pkg.st ≠ .reset → s.pkg.st ≠ .failed → fails .fatalPackageError 0x10) ∧
    (s.pkg.st = .reset ∨ s.pkg.st = .failed → keeps .fatalPackageError) ∧
    (s.pkg.drainDeadline = none ∨ s.pkg.st ≠ .draining → keeps .drainDeadline) ∧
    (∀ at', s.pkg.drainDeadline = some at' → s.pkg.ns < at' → keeps .drainDeadline) ∧
    (∀ at', s.pkg.drainDeadline = some at' → s.pkg.st = .draining → at' ≤ s.pkg.ns →
      exec .drainDeadline s = .next { s with pkg := { s.pkg with deadlineNow := true } }) ∧
    (let r := (s.groups.filter (fun e => s.finished e.2 e.1)).foldl (fun s e => (s.retireGroup e.1).endLaunch e.2.launch) s
     let cut := r.busyLaunches.foldl (fun s e => s.cutLaunch e.1 0x45) r
     (∀ e ∈ r.launches, e.2.st.live = true → r.liveGroups e.1 ≠ [] → e ∈ r.busyLaunches) ∧
     (s.pkg.deadlineNow = true → s.pkg.st = .draining →
       s.drained = ({ cut with pkg := { cut.pkg with deadlineNow := false } } : State).drainTest) ∧
     (s.pkg.deadlineNow = false ∨ s.pkg.st ≠ .draining →
       s.drained = ({ s with pkg := { s.pkg with deadlineNow := false } } : State).drainTest))

/-- The commands of a context's window (R323 to R326, R334): CREATE of a valid descriptor, CODELOAD that raises
`CGEN` and completes the state, INVAL, END and BIND, each refused with its `ERR` out of its states or on another
party's path; `CTXREQ` shows the oldest unanswered request that has not been read, where all have been read the oldest, and
`CTXRSP` answers by tag; the keys of a world and its queues. The installation of keys, a second command while one is under way,
what invalidation drops and that a request which was read is shown again are the readings of log entries 29, 34, 35 and 68. -/
def Obligations.ContextWindow : Prop :=
  ∀ (s : State) (n : Nat),
    let c := s.ctxAt n
    let err := fun (i : Instr) (e : BitVec 8) => exec i s = .next (s.modCtx n (fun c => { c with err := e }))
    let keeps := fun (i : Instr) => exec i s = .next s
    let exists' := c.st ≠ .none ∧ c.st ≠ .retired
    let alive := exists' ∧ c.st ≠ .failed
    (∀ via, c.reached via = false → keeps (.ctxctlCreate via n) ∧ keeps (.ctxctlCodeload via n) ∧ keeps (.ctxctlInval via n) ∧
      keeps (.ctxctlEnd via n) ∧ keeps (.ctxctlBind via n 0)) ∧
    (∀ via, c.reached via = true → c.drives via = false →
      err (.ctxctlCreate via n) 2 ∧ err (.ctxctlCodeload via n) 2 ∧ err (.ctxctlInval via n) 2) ∧
    (∀ via, c.drives via = true →
      (exists' → err (.ctxctlCreate via n) 2) ∧ (¬ exists' → s.ctxValid n = false → err (.ctxctlCreate via n) 1) ∧
      (¬ exists' → s.ctxValid n = true → ∃ u, exec (.ctxctlCreate via n) s = .next u ∧ (u.ctxAt n).st = .created ∧
        (u.ctxAt n).cgen = 0 ∧ (∀ k < 16, u.ctxCounter n k = 0) ∧ (u.ctxAt n).err = 0 ∧ (u.ctxAt n).desc = c.desc) ∧
      (¬ alive → err (.ctxctlCodeload via n) 2 ∧ err (.ctxctlInval via n) 2) ∧
      (alive → c.pendingLoad = none → c.cgen = BitVec.allOnes 32 → err (.ctxctlCodeload via n) 4) ∧
      (alive → c.pendingLoad = none → c.cgen ≠ BitVec.allOnes 32 →
        exec (.ctxctlCodeload via n) s = .next (s.modCtx n (fun c => { c with pendingLoad := some c.named }))) ∧
      (alive → c.pendingInval = none → c.named.kind ≤ 4 →
        exec (.ctxctlInval via n) s = .next (s.modCtx n (fun c => { c with pendingInval := some c.named })))) ∧
    (∀ r, c.pendingLoad = some r →
      (alive → s.prefetching n = true → keeps (.codeloadComplete n)) ∧
      (alive → s.prefetching n = false → ∃ u, exec (.codeloadComplete n) s = .next u ∧ (u.ctxAt n).cgen = c.cgen + 1 ∧
        (u.ctxAt n).pendingLoad = none ∧ (c.st = .created → (u.ctxAt n).st = .loaded) ∧ (c.st ≠ .created → (u.ctxAt n).st = c.st))) ∧
    (∀ r, c.pendingInval = some r → alive →
      (r.kind = 3 → s.templateUsed n = true → keeps (.invalComplete n)) ∧
      (r.kind ≤ 1 → s.copyOpen n = true → keeps (.invalComplete n)) ∧
      ((r.kind = 3 → s.templateUsed n = false) → (r.kind ≤ 1 → s.copyOpen n = false) → ∃ u, exec (.invalComplete n) s = .next u ∧ (u.ctxAt n).pendingInval = none ∧
        (u.ctxAt n).st = c.st ∧ (u.ctxAt n).desc = c.desc ∧
        (c.cached ≠ none → r.kind = 1 → (u.ctxAt n).invals = c.invals ++ [{ kind := 1, lo := r.addr, hi := r.addr + r.len, point := s.commits }]) ∧
        (c.cached ≠ none → r.kind = 2 → (u.ctxAt n).invals = c.invals ++ [{ kind := 2, lo := r.addr, hi := r.addr + r.len, point := s.commits }]))) ∧
    (∀ via, c.reached via = true → (¬ exists' → err (.ctxctlEnd via n) 2) ∧
      (exists' → ∃ u, exec (.ctxctlEnd via n) s = .next u ∧ (u.ctxAt n).st = .retired ∧
        (u.ctxAt n).requests = [] ∧ (u.ctxAt n).pendingLoad = none ∧
        (alive → s.hasGroups n = true → c.dying = none → (u.ctxAt n).fcause = 0x84))) ∧
    (∀ w : BitVec 8, (exists' → err (.ctxctlBind .host n w) 2) ∧
      (¬ exists' → ∃ u, exec (.ctxctlBind .host n w) s = .next u ∧ (u.ctxAt n).world = w ∧ (u.ctxAt n).st = c.st)) ∧
    (∀ w v, w ≠ 0 → c.world = w → err (.ctxctlBind (.guest w) n v) 2) ∧
    (∀ via, c.drives via = true →
      (∀ r, c.shown = some r → r ∈ c.requests ∧ r.response = none ∧
        ((∃ q ∈ c.requests, q.response = none ∧ q.popped = false) → r.popped = false) ∧
        exec (.ctxreqRead via n) s = .next (s.modCtx n (fun c => { c with
          requests := c.requests.map (fun q => { q with popped := q.tag == r.tag || (q.popped && !r.popped) }) }))) ∧
      ((∃ q ∈ c.requests, q.response = none) → c.shown ≠ none) ∧
      (c.shown = none → keeps (.ctxreqRead via n)) ∧
      (∀ v : Word, exec (.ctxrspWrite via n v) s = .next (s.modCtx n (fun c => { c with
        requests := c.requests.map (fun q => if q.tag = v.extractLsb' 0 16 ∧ q.response = none then
          { q with response := some (v.extractLsb' 16 48) } else q) })))) ∧
    (∀ via v, c.drives via = false → keeps (.ctxreqRead via n) ∧ keeps (.ctxrspWrite via n v)) ∧
    (∀ via key v, c.world = 0 ∨ c.drives via = false → keeps (.keywWrite via n key) ∧ keeps (.keyqnWrite via n v)) ∧
    (∀ via (key : BitVec 256) (v : Word), c.world ≠ 0 → c.drives via = true →
      let q := v.toNat % 1024
      (s.worldKeys.find? c.world.toNat = none → exec (.keywWrite via n key) s =
        .next { s with worldKeys := s.worldKeys.put c.world.toNat key }) ∧
      (s.worldKeys.find? c.world.toNat ≠ none → err (.keywWrite via n key) 3) ∧
      ((s.queueAt q).world = c.world → exec (.keyqnWrite via n v) s =
        .next (s.modQueue q (fun x => { x with key := some c.keyq, keyFresh := true }))) ∧
      ((s.queueAt q).world ≠ c.world → err (.keyqnWrite via n v) 3))

/-- The debug unit (R82, R83, R341): `DCTL` halts, resumes and steps a strand of a core whose context allows it, and sets
`BRKH`; a halt takes effect at the instruction boundary, once the strand's earlier instructions have retired, stops a
strand that a pre-emption reached in its clock there too, with the halt mark, and has no row for one that is DRAINING;
`DSTATE` writes one word of a HALTED strand's record, the capability registers excepted; a breakpoint at a strand's PC and
a watchpoint that has matched halt it at its instruction boundary. The places of the words of a strand's record are the
reading of log entry 31. -/
def Obligations.DebugUnit : Prop :=
  ∀ (s : State) (via : Via) (c k : Nat) (brkh : Bool),
    let t := s.strandAt c k
    let set := s.modCore c (fun co => { co with dbg := { co.dbg with brkh := brkh } })
    let bit := 1#8 <<< k
    (s.debugReach via c = false → ∀ off v, exec (.dctlHalt via c k brkh) s = .next s ∧ exec (.dctlResume via c k brkh) s = .next s ∧
      exec (.dctlStep via c k brkh) s = .next s ∧ exec (.dstateWrite via c off v) s = .next s) ∧
    (s.debugReach via c = true →
      (let moves := t.life = .running ∨ t.life = .waiting ∨ t.life = .handler
       let halts := fun (f : Strand → Strand) => exec (.dctlHalt via c k brkh) s = .next (set.modStrand c k f)
       let boundary := t.outs = 0 ∧ (t.life = .waiting ∨ t.micro.stage = 0)
       (t.preemptAt = none → moves → t.stopSoon = false → boundary →
         halts (fun t => { t with life := .halted, haltedFrom := t.life })) ∧
       (t.preemptAt = none → moves → t.stopSoon = false → ¬ boundary → halts (fun t => { t with haltSoon := true })) ∧
       (t.preemptAt = none → moves → t.stopSoon = true → halts (fun t => { t with haltMark := true })) ∧
       (t.preemptAt = none → ¬ moves → halts (fun t => t)) ∧
       (t.preemptAt = some s.pkg.clocks → t.life = .saved → halts (fun t => { t with haltMark := true })) ∧
       (t.preemptAt = some s.pkg.clocks → moves → ¬ boundary → halts (fun t => { t with haltMark := true, stopSoon := true })) ∧
       (t.preemptAt = some s.pkg.clocks → moves → boundary → t.ending = false → ∃ u, exec (.dctlHalt via c k brkh) s = .next u ∧
         (u.strandAt c k).life = .saved ∧ (u.strandAt c k).haltMark = true ∧ (u.strandAt c k).pc = t.pc) ∧
       (∀ at', t.preemptAt = some at' → at' ≠ s.pkg.clocks → halts (fun t => t))) ∧
      (t.life = .halted →
        exec (.dctlResume via c k brkh) s = .next ((set.modStrand c k (fun t =>
          { t with life := t.haltedFrom, stepping := false, watchHit := false, unmarked := false, loopSpare := [] })).modCore c (fun co =>
            { co with dbg := { co.dbg with byBreak := co.dbg.byBreak &&& ~~~ bit, byWatch := co.dbg.byWatch &&& ~~~ bit } })) ∧
        exec (.dctlStep via c k brkh) s = .next (set.modStrand c k (fun t => { t with stepping := true }))) ∧
      (t.life ≠ .halted → exec (.dctlResume via c k brkh) s = .next set) ∧
      (∀ off v,
        let d := (s.coreAt c).dbg
        let i := (2048 * (d.dsel.toNat / 256 % 8) + (off - 0x800)) / 8
        let r := d.dsel.toNat % 8
        let inside := 0x800 ≤ off ∧ off ≤ 0xFFF ∧ off % 8 = 0 ∧ d.dsel.toNat / 256 % 8 ≤ 5 ∧ i < 1520
        (¬ inside → exec (.dstateWrite via c off v) s = .next s) ∧
        (inside → ∃ u, exec (.dstateWrite via c off v) s = .next u ∧
          ((s.strandAt c r).life ≠ .halted → u.strandAt c r = s.strandAt c r) ∧
          ((s.strandAt c r).life = .halted →
            (i < 48 → (u.strandAt c r).x = (s.strandAt c r).x.set {} i { ((s.strandAt c r).x.get {} i) with v := v }) ∧
            (i = 104 → (u.strandAt c r).pc = v.extractLsb' 2 46 ++ 0#2 ∧ (u.strandAt c r).micro = {}) ∧ (i < 1488 → (u.strandAt c r).c = (s.strandAt c r).c))))) ∧
    (let there : State := { s with core := c, strand := k }
     let boundary := t.micro.stage = 0 ∧ t.outs = 0 ∧ (t.life = .running ∨ t.life = .handler)
     let stays := t.preemptAt = none ∧ t.stopSoon = false
     (boundary → stays → there.breakpointHere = true → ∃ u, exec (.instructionBreakpoint c k) s = .next u ∧
       (u.strandAt c k).life = .halted ∧ (u.strandAt c k).haltedFrom = t.life ∧ (u.strandAt c k).pc = t.pc ∧
       (u.coreAt c).dbg.byBreak = (s.coreAt c).dbg.byBreak ||| bit) ∧
     (¬ boundary ∨ there.breakpointHere = false → exec (.instructionBreakpoint c k) s = .next s) ∧
     (boundary → stays → t.watchHit = true → ∃ u, exec (.watchpoint c k) s = .next u ∧
       (u.strandAt c k).life = .halted ∧ (u.strandAt c k).haltedFrom = t.life ∧ (u.strandAt c k).pc = t.pc ∧
       (u.coreAt c).dbg.byWatch = (s.coreAt c).dbg.byWatch ||| bit) ∧
     (t.watchHit = false → exec (.watchpoint c k) s = .next s))

/-- The pool's answers (R185, R186, R367, R388): a SESSION brings a package whose time is locked into SERVING, a READ_DATA
grants the page and its lease or refuses the waiting tasks, or answers the strand or copy element that read a HOME page; a
WRITE_ACK commits its unit or contains the task; an ATOMIC_RESULT gives the LEASED frame what the pool stored, all else of
the frame unchanged, and the strand the old value; a RENEW moves the expiry. An answer to no outstanding operation changes
nothing. That a page request answered with POISON or STALE ends as one that is denied is the reading of log entry 53. -/
def Obligations.PoolAnswers : Prop :=
  ∀ (s : State) (tag : Nat),
    (∀ t : BitVec 64, (∀ e ∈ s.pool.remotes, e.2.kind ≠ .session) → exec (.session t) s = .next s) ∧
    (∀ (t : BitVec 64) n r, s.pool.remotes = [(n, r)] → r.kind = .session → s.pkg.st = .train → s.poolPortUp = true →
      (s.ptp.lock = true →
        ∃ u, exec (.session t) s = .next u ∧ u.pkg.st = .serving ∧ u.pool.token = some t ∧ u.pool.remotes = []) ∧
      (s.ptp.lock = false → exec (.session t) s = .next { s with pool := { s.pool with remotes := [], token := some t, lastToken := t } })) ∧
    (Tbl.find? s.pool.remotes tag = none → ∀ st exp bs po old,
      exec (.readData tag st exp bs po) s = .next s ∧ exec (.writeAck tag st) s = .next s ∧
      exec (.atomicResult tag st old) s = .next s ∧ exec (.renewResponse tag st exp) s = .next s ∧
      exec (.putAck tag st) s = .next s) ∧
    (∀ r, Tbl.find? s.pool.remotes tag = some r →
      let dropped : State := { s with pool := { s.pool with remotes := s.pool.remotes.erase tag } }
      let cause := fun (st : BitVec 8) => if st = 1 then 0x42#8 else if st = 2 then 0x41 else 0x40
      let refused := fun (i : Instr) (st : BitVec 8) (obj : Nat) =>
        exec i s = .next ((if st = 1 then dropped.event 0x05 0xFF 0xFF s.token.toNat obj else dropped).contain r.grp (cause st))
      (∀ key pf p st exp bs po, r.kind = .page key pf → Tbl.find? s.pool.pages key = some p → p.st = .requested →
        (st = 0 → bs.length = 65536 → p.late = [] → ∃ u q, exec (.readData tag st exp bs po) s = .next u ∧
          Tbl.find? u.pool.pages key = some q ∧ q.st = .leased ∧ q.expiry = exp ∧ q.granted = exp - s.pkg.ns ∧
          (∀ i < 65536, q.frame.get 0 i = bs.getD i 0) ∧ (∀ l < 1024, q.poison.get false l = po.contains l)) ∧
        (st ≠ 0 → exec (.readData tag st exp bs po) s =
          .next (((dropped.absentPage key).fencedEvent st (key / 2 ^ 32)).containWaiters key (cause st)))) ∧
      (∀ key off n st exp bs po, r.kind = .homeRead key off n →
        ((st = 0 ∨ st = 3) → bs.length = n → ∃ u q, exec (.readData tag st exp bs po) s = .next u ∧
          Tbl.find? u.pool.remotes tag = some q ∧ q.kind = r.kind ∧ q.answer = some (BitVec.ofNat 64 (natLE bs), !po.isEmpty || st == 3)) ∧
        (st ≠ 0 → st ≠ 3 → refused (.readData tag st exp bs po) st (key / 2 ^ 48))) ∧
      (∀ g b key bs st, r.kind = .write g b key bs →
        (st = 0 → exec (.writeAck tag st) s = .next ((dropped.dropUnit g b tag).settleBounds g)) ∧
        (st ≠ 0 → exec (.writeAck tag st) s =
          .next ((((dropped.dropUnit g b tag).frameReject bs).refused g st (key / 2 ^ 48)).settleBounds g))) ∧
      (∀ key size op x cmp cas st old, r.kind = .atomic key size op x cmp cas →
        (st = 0 → ∃ u q, exec (.atomicResult tag st old) s = .next u ∧ Tbl.find? u.pool.remotes tag = some q ∧
          q.answer = some (BitVec.ofNat 64 (old.toNat % 2 ^ (8 * size)), false)) ∧
        (st = 0 → cas = true → old.toNat % 2 ^ (8 * size) ≠ cmp.toNat % 2 ^ (8 * size) → ∃ u,
          exec (.atomicResult tag st old) s = .next u ∧ u.pool.pages = s.pool.pages) ∧
        (∀ p, st = 0 → (cas = false ∨ old.toNat % 2 ^ (8 * size) = cmp.toNat % 2 ^ (8 * size)) →
          Tbl.find? s.pool.pages (pageOf key) = some p → p.st = .leased → key % 65536 + size ≤ 65536 →
          (∀ a, key % 65536 ≤ a → a < key % 65536 + size → p.latent.get false (a / 64) = false) →
          let stored := bytesLE size (if cas then x else amoResult op size old x).toNat
          ∃ u q, exec (.atomicResult tag st old) s = .next u ∧ Tbl.find? u.pool.pages (pageOf key) = some q ∧ q.st = .leased ∧
            q.expiry = p.expiry ∧ q.poison = p.poison ∧
            ∀ a, q.frame.get 0 a = if key % 65536 ≤ a ∧ a < key % 65536 + size then stored.getD (a - key % 65536) 0 else p.frame.get 0 a) ∧
        (st ≠ 0 → refused (.atomicResult tag st old) st (key / 2 ^ 48))) ∧
      (∀ key p st exp, r.kind = .renew key → Tbl.find? s.pool.pages key = some p →
        (st = 0 → p.st = .leased → ∃ u q, exec (.renewResponse tag st exp) s = .next u ∧ Tbl.find? u.pool.pages key = some q ∧
          q.expiry = exp ∧ q.st = .leased ∧ q.frame = p.frame ∧ Tbl.find? u.pool.remotes tag = none) ∧
        (st ≠ 0 → exec (.renewResponse tag st exp) s = .next dropped)) ∧
      (∀ p off bs sig st, r.kind = .put p off bs sig →
        (st = 0 → exec (.putAck tag st) s = .next dropped) ∧
        (st ≠ 0 → (s.portAt r.port).seq.grp = some r.grp → exec (.putAck tag st) s = .next (dropped.seqContain r.port (cause st))) ∧
        (st ≠ 0 → (s.portAt r.port).seq.grp ≠ some r.grp → exec (.putAck tag st) s = .next (dropped.contain r.grp (cause st)))))

/-- The life of a cached page (R185 to R189): a REVOKE makes a LEASED page REVOKING and acknowledges any other at once,
the acknowledgement of a REVOKING one goes when it is drained, which drops it; within 20 µs of its expiry a LEASED page is
dropped; a page that is needed is renewed in its last quarter; dropped frames are reclaimed and LEASED ones dropped in the
order of R187 where no queue's present step has read them; the prefetch engine asks for the pages of its window, and skips
a ring entry that it cannot read with an event. -/
def Obligations.CachedPages : Prop :=
  ∀ (s : State) (obj : BitVec 48) (page : Nat),
    let k := obj.toNat * 2 ^ 32 + page
    let keeps := fun (i : Instr) => exec i s = .next s
    (Tbl.find? s.pool.pages k = none → keeps (.revokeDrained obj page) ∧ keeps (.leaseExpiry obj page) ∧
      keeps (.leaseRenewal obj page) ∧ keeps (.frameReclaim obj page) ∧
      ∃ u, exec (.revoke obj page) s = .next u ∧ u.pool.pages = s.pool.pages ∧
        ∃ t, Sent.revokeAck t (k / 2 ^ 32) (k % 2 ^ 32) ∈ u.outbox) ∧
    (∀ p, Tbl.find? s.pool.pages k = some p →
      (p.st = .leased → ∃ u q, exec (.revoke obj page) s = .next u ∧ Tbl.find? u.pool.pages k = some q ∧ q.st = .revoking ∧
        q.frame = p.frame ∧ u.outbox = s.outbox) ∧
      (p.st = .revoking → ∃ u, exec (.revoke obj page) s = .next u ∧ u.pool = s.pool ∧ u.outbox = s.outbox) ∧
      (p.st = .requested ∨ p.st = .dropped → ∃ u, exec (.revoke obj page) s = .next u ∧ u.pool.pages = s.pool.pages ∧
        ∃ t, Sent.revokeAck t (k / 2 ^ 32) (k % 2 ^ 32) ∈ u.outbox) ∧
      (p.st = .revoking → ∃ u q, exec (.revokeDrained obj page) s = .next u ∧ Tbl.find? u.pool.pages k = some q ∧ q.st = .dropped ∧
        q.frame = [] ∧ Sent.revokeAck p.revoke.1 (k / 2 ^ 32) (k % 2 ^ 32) ∈ u.outbox) ∧
      (p.st ≠ .revoking → keeps (.revokeDrained obj page)) ∧
      (p.st = .leased → p.expiry ≤ s.pkg.ns + 20000 → exec (.leaseExpiry obj page) s =
        .next { s with pool := { s.pool with pages := s.pool.pages.upd k (fun p =>
          { p with st := .dropped, frame := [], poison := [], latent := [], late := [], expiry := 0, granted := 0 }) } }) ∧
      (p.st ≠ .leased ∨ s.pkg.ns + 20000 < p.expiry → keeps (.leaseExpiry obj page)) ∧
      (let due := p.st = .leased ∧ s.ptp.lock = true ∧ 4 * (p.expiry - s.pkg.ns) < p.granted ∧
         (∀ e ∈ s.pool.remotes, e.2.kind ≠ .renew k) ∧ (p.demandRead = true ∨ s.inWindow k = true)
       (due → exec (.leaseRenewal obj page) s = .next (s.newRemote (.renew k) 0 0 0 0).2) ∧
       (¬ due → keeps (.leaseRenewal obj page))) ∧
      (p.st = .dropped → exec (.frameReclaim obj page) s =
        .next { s with pool := { s.pool with pages := s.pool.pages.erase k } }) ∧
      (p.st = .leased → p.readBy = [] →
        (∀ e ∈ s.pool.pages, e.2.st = .leased → e.2.readBy = [] →
          ¬ (p.reuse < e.2.reuse ∨ (e.2.reuse = p.reuse ∧ e.2.lastUse < p.lastUse))) →
        ∃ u q, exec (.frameReclaim obj page) s = .next u ∧ Tbl.find? u.pool.pages k = some q ∧ q.st = .dropped) ∧
      (p.st = .leased → p.readBy ≠ [] → keeps (.frameReclaim obj page)) ∧
      (p.st = .requested ∨ p.st = .revoking → keeps (.frameReclaim obj page))) ∧
    (∀ q,
      let bad := (s.scheduleRing q).filter (fun e => e.2 = none)
      let seen := if (s.queueAt q).look = 0 ∨ s.stepOf q = none then s
        else bad.foldl (fun s e => s.event 0x06 0xFF 0xFF q e.1) s
      exec (.prefetchWalk q) s = .next ((s.windowEntries q).foldl (fun s e => match s.entryRange q e.2 with
      | none => s.event 0x06 0xFF 0xFF q e.1
      | some (c, off, n) => if n = 0 then s else s.claimPages c off n (e.2.extractLsb' 82 2).toNat 0 0) seen))

/-- Retries and puts (R367, R368, R380): an attempt whose flits have left and whose time is up backs off for twice the
last wait, at most 256 µs, and is resent, or is abandoned after RETRY attempts with its task contained LINK_LOST; a PUT
lands in the receive window and a PUTSIG lowers its counter after its data, an address outside is DENIED, and a repeat of
a token and tag gets the stored answer. That answers are kept until RESET is the model's choice (log entry 33); the rows
PUT and PUTSIG name no token, which is a free value. -/
def Obligations.RetriesAndPuts : Prop :=
  (∀ (s : State) (tag : Nat),
    (Tbl.find? s.pool.remotes tag = none → exec (.remoteTimeout tag) s = .next s ∧ ∀ p, exec (.retryBackoff tag p) s = .next s) ∧
    (∀ r, Tbl.find? s.pool.remotes tag = some r →
      let retry := (s.portAt r.port).retry.toNat
      let gone := r.backoff = false ∧ r.answer = none ∧ (s.portAt r.port).unsent tag = false ∧ r.deadline ≤ s.pkg.up
      (¬ gone → exec (.remoteTimeout tag) s = .next s) ∧
      (gone → r.attempt < retry → exec (.remoteTimeout tag) s =
        .next (let w : Remote := { r with backoff := true, deadline := s.pkg.up + min (4000 * 2 ^ (r.attempt + 1)) 256000 }
               { s with pool := { s.pool with remotes := s.pool.remotes.put tag w } })) ∧
      (gone → retry ≤ r.attempt →
        let dropped : State := { s with pool := { s.pool with remotes := s.pool.remotes.erase tag } }
        (∀ key size op x c cas, r.kind = .atomic key size op x c cas → exec (.remoteTimeout tag) s =
          .next ((dropped.event 0x18 r.port 0xFF tag (key / 2 ^ 48)).contain r.grp 0x43)) ∧
        (∀ p off bs sig, r.kind = .put p off bs sig → exec (.remoteTimeout tag) s =
          .next (let u := dropped.event 0x18 r.port 0xFF tag 0
                 if (s.portAt r.port).seq.grp = some r.grp then u.seqContain r.port 0x43 else u.contain r.grp 0x43)) ∧
        (∀ key, r.kind = .renew key → exec (.remoteTimeout tag) s =
          .next ((dropped.event 0x18 r.port 0xFF tag (key / 2 ^ 32)).dropPage key))) ∧
      let unlocked := s.ptp.lock = false ∧ (r.kind = .session ∨ (∃ key pf, r.kind = .page key pf) ∨ ∃ key, r.kind = .renew key)
      (r.backoff = false ∨ s.pkg.up < r.deadline ∨ unlocked → ∀ p, exec (.retryBackoff tag p) s = .next s) ∧
      (r.backoff = true → r.deadline ≤ s.pkg.up → ¬ unlocked → (s.portAt r.port).up = true → r.port < 80 → exec (.retryBackoff tag r.port) s =
        .next (s.sendAttempt tag { r with attempt := r.attempt + 1 })))) ∧
  (∀ (s : State) (port tag off : Nat) (world : BitVec 8) (bs : List Byte) (o : Nat) (dec : BitVec 16),
    let p := s.portAt port
    let ctx := p.rxctx.toNat
    let base := p.rxbase.toNat * 65536
    let len := p.rxlen.toNat * 65536
    let free : State := { s with free := s.free + 1 }
    let some' : Word := BitVec.ofNat 64 (Config.freeValue s.free)
    let put := fun (tok : Word) => s.onPut port tok tag off world bs none
    let sig := fun (tok : Word) => s.onPut port tok tag off world bs (some (o, dec))
    exec (.put port tag off world bs) s = .next (free.onPut port some' tag off world bs none) ∧
    exec (.putsig port tag off world bs o dec) s = .next (free.onPut port some' tag off world bs (some (o, dec))) ∧
    ∀ tok : Word,
    let answered := fun (did : Word → State) (st : BitVec 8) (u : State) => did tok = ((u.modPort port (fun p =>
      { p with served := ((tok, tag), st) :: p.served })).transmit port (.putAck tag port st))
    (∀ st, p.served.find? (fun e => e.1 == (tok, tag)) = some ((tok, tag), st) →
      put tok = s.transmit port (.putAck tag port st) ∧ sig tok = s.transmit port (.putAck tag port st)) ∧
    (p.served.find? (fun e => e.1 == (tok, tag)) = none →
      (peerFacing port = false ∨ p.rxlen = 0 ∨ len < off + bs.length ∨ world ≠ (s.ctxAt ctx).world →
        answered put 2 s ∧ answered sig 2 s) ∧
      (len < o + 8 → answered sig 2 s) ∧
      (∀ as, peerFacing port = true → p.rxlen ≠ 0 → off + bs.length ≤ len → world = (s.ctxAt ctx).world →
        s.hPhysRange ctx ((base + off : Nat) : Int) bs.length .wr = some as →
        answered put 0 (s.commitBytes (place as bs)) ∧
        (∀ cs, o + 8 ≤ len → s.hPhysRange ctx ((base + o : Nat) : Int) 8 .wr = some cs →
          let r := (s.commitBytes (place as bs)).homeRead cs
          (r.2.1 = true → answered sig 3 r.2.2) ∧
          (r.2.1 = false →
            answered sig 0 (r.2.2.commitBytes (place cs (wordBytes (BitVec.ofNat 64 (natLE r.1) - dec.setWidth 64)))))))))

/-- The commands of a port (R363, R369, R374), from the host window alone: ENABLE lights what is not retired and seeks,
DISABLE darkens, RETRAIN asks for a retrain, BYPASS and UNBYPASS move the switches; `RET` is cleared while the port is
BYPASSED or DARK. A command without a row changes nothing. -/
def Sys2Proof.Claims.PortCommands : Prop :=
  ∀ (s : State) (via : Via) (p : Nat) (tr : BitVec 2),
    let q := s.portAt p
    let may := via = .host ∧ p < 80 ∧ s.pkg.st ≠ .reset
    let keeps := fun (i : Instr) => exec i s = .next s
    let genuine := s.flash.key = none ∧ s.pkg.flashSeen ≤ s.flash.counter
    let sends := fun (u : State) (kind : Nat) =>
      (s.pkg.st = .failed → u.outbox = s.outbox) ∧
      (s.pkg.st ≠ .failed → ∃ m, m.txset = u.healthyTx p ∧ Sent.train p kind m ∈ u.outbox ∧
        Sent.flit p (flitBytes { kind := 2, plen := 48 } (trainBytes kind m)) ∈ u.outbox)
    let dark := fun (u : State) => (∀ l < 16, ((u.portAt p).lane l).lit = false) ∧ (u.portAt p).replay = [] ∧
      (u.portAt p).outq = [] ∧ (u.portAt p).w = 0
    (¬ may → keeps (.pctlEnable via p tr) ∧ keeps (.pctlDisable via p) ∧ keeps (.pctlRetrain via p tr) ∧
      keeps (.pctlBypass via p) ∧ keeps (.pctlUnbypass via p) ∧ ∀ l, keeps (.laserRetClear via p l)) ∧
    (may →
      (q.st ≠ .dark → keeps (.pctlEnable via p tr)) ∧
      (q.st = .dark → ∃ u, exec (.pctlEnable via p tr) s = .next u ∧ (u.portAt p).st = .seek ∧ (u.portAt p).rate = 2 ∧
        (u.portAt p).trate = (if tr = 3 then 2 else tr) ∧ sends u 1 ∧
        (∀ l < 16, ((u.portAt p).lane l).lit = !s.retired p l)) ∧
      (q.st = .bypassed → keeps (.pctlDisable via p) ∧ keeps (.pctlBypass via p)) ∧
      (q.st ≠ .bypassed → q.seq.st = .idle →
        (∃ u, exec (.pctlDisable via p) s = .next u ∧ (u.portAt p).st = .dark ∧ (u.portAt p).attempts = 0 ∧ dark u) ∧
        (∃ u, exec (.pctlBypass via p) s = .next u ∧ (u.portAt p).st = .bypassed ∧ (u.portAt p).cause = 0x15 ∧
          u.switches.get false p = true ∧ dark u)) ∧
      (q.st ≠ .bypassed → q.seq.st ≠ .idle → exec (.pctlDisable via p) s =
        .next ((s.setPort p ({ q with attempts := 0 } : Port)).setPort p (({ q with attempts := 0 } : Port).down .dark) |>.seqContain p 0x43)) ∧
      (q.st = .active ∨ q.st = .degraded → ∃ u, exec (.pctlRetrain via p tr) s = .next u ∧ (u.portAt p).st = .retrain ∧
        (u.portAt p).trate = (if tr = 3 then 2 else tr) ∧ (u.portAt p).exch.tseq = q.exch.tseq + 1 ∧
        (u.portAt p).replay = q.replay ∧ sends u 4) ∧
      (q.st ≠ .active → q.st ≠ .degraded → keeps (.pctlRetrain via p tr)) ∧
      (q.st = .bypassed → exec (.pctlUnbypass via p) s =
        .next { s.setPort p { q with st := .dark } with switches := s.switches.set false p false }) ∧
      (q.st ≠ .bypassed → keeps (.pctlUnbypass via p)) ∧
      (∀ l, genuine → (q.st = .bypassed ∨ q.st = .dark) → l < 16 → s.retired p l = true →
        ∃ u, exec (.laserRetClear via p l) s = .next u ∧ u.retired p l = false ∧ u.laserAge p l = s.laserAge p l) ∧
      (∀ l, s.flashAnswers = false → keeps (.laserRetClear via p l)) ∧
      (∀ l, ¬ (q.st = .bypassed ∨ q.st = .dark) ∨ s.retired p l = false → keeps (.laserRetClear via p l)))

/-- The lasers (R363): a lit laser that fails is retired in the flash and its lane is lost, the hourly sample of a lit
one keeps its bias and its prediction, all ones below 16 samples, and retires it at BMAX; minutes of lasing raise `AGE`
and reach the flash every 60. A flash that does not authenticate takes none of it (R392). -/
def Sys2Proof.Claims.Lasers : Prop :=
  ∀ (s : State) (p l : Nat) (bias : BitVec 16),
    let q := s.portAt p
    let x := q.lane l
    let genuine := s.flash.key = none ∧ s.pkg.flashSeen ≤ s.flash.counter
    let keeps := fun (i : Instr) => exec i s = .next s
    (∀ lanes : BitVec 16, (∀ i < 16, lanes.getLsbD i = true → (q.lane i).lit = false ∨ s.retired p i = true) →
      keeps (.laserRetire p lanes)) ∧
    (l < 16 → x.lit = true → s.retired p l = false → q.up = false → ∃ u, exec (.laserRetire p (1#16 <<< l)) s = .next u ∧
      (genuine → u.retired p l = true) ∧ ((u.portAt p).lane l).lit = false ∧ u.laserAge p l = s.laserAge p l) ∧
    (x.lit = false ∨ 16 ≤ l → keeps (.laserBiasSample p l bias)) ∧
    (x.lit = true → l < 16 → bias.toNat < q.bmax.toNat → ∃ u, exec (.laserBiasSample p l bias) s = .next u ∧
      ((u.portAt p).lane l).bias = bias ∧ ((u.portAt p).lane l).samples = (bias.toNat :: x.samples).take 256 ∧
      (x.samples.length < 15 → ((u.portAt p).lane l).eolh = 0xFFFFFFFF) ∧ u.flash = s.flash) ∧
    (x.lit = true → l < 16 → q.bmax.toNat ≤ bias.toNat → s.retired p l = false → q.up = false →
      ∃ u, exec (.laserBiasSample p l bias) s = .next u ∧ ((u.portAt p).lane l).lit = false ∧ (genuine → u.retired p l = true)) ∧
    (x.lit = false → keeps (.lasingMinute p l)) ∧
    (x.lit = true → ∃ u, exec (.lasingMinute p l) s = .next u ∧ u.laserAge p l = s.laserAge p l + 1 ∧
      (x.fresh + 1 < 60 → u.flash = s.flash) ∧
      (genuine → 60 ≤ x.fresh + 1 → u.flash.age.get 0 (p * 16 + l) = s.laserAge p l + 1 ∧ ((u.portAt p).lane l).fresh = 0))

/-- The commands of a port, and its lasers. The messages that a command sends and when a bias is compared are the
readings of log entries 15 and 17, the fit that of log entry 39. -/
def Obligations.PortsAndLasers : Prop :=
  Claims.PortCommands ∧ Claims.Lasers

/-- The training of a port (R369 to R371, R373): lock and an OFFER bring SEEK to TRAIN, an OFFER is answered with
the ACCEPT of R371, READY follows an ACCEPT that agrees and a new exchange one that does not, READY both ways brings
the port up, 100 µs without it end the attempt, and a RETRAIN_REQ moves a port that is up to RETRAIN, one that came
during an exchange after it. A FAILED package sends nothing new (R21). Repetitions,
numbers and the entry into each state are the readings of log entry 15. -/
def Obligations.PortTrains : Prop :=
  ∀ (s : State) (p : Nat) (m : TrainMsg),
    let q := s.portAt p
    let e := q.exch
    let keeps := fun (i : Instr) => exec i s = .next s
    let sent := fun (u : State) (kind : Nat) => s.pkg.st ≠ .failed → ∃ m, Sent.train p kind m ∈ u.outbox
    let lit := fun (l : Nat) => s.modLane p l (fun l => { l with rxlos := false, locked := true })
    let training := q.st = .train ∨ q.st = .retrain
    (∀ l, s.switches.get false p = true ∨ 16 ≤ l ∨ s.pkg.st = .reset → keeps (.codewordLockGained p l)) ∧
    (∀ l, s.pkg.st ≠ .reset → s.switches.get false p = false → l < 16 →
      (q.st ≠ .seek ∨ e.offer = none ∨ laneCount ((lit l).portAt p).healthyRx < 4 → exec (.codewordLockGained p l) s = .next (lit l)) ∧
      (∀ peer, q.st = .seek → e.offer = some peer → e.accept = none → 4 ≤ laneCount ((lit l).portAt p).healthyRx →
        ∃ u, exec (.codewordLockGained p l) s = .next u ∧ (u.portAt p).st = .train ∧ (u.portAt p).since = s.pkg.up ∧ sent u 2)) ∧
    (q.st ≠ .seek → ¬ training → keeps (.offer p m)) ∧
    (m.tseq ≠ e.tseq → tseqAhead m.tseq e.tseq = false → keeps (.offer p m)) ∧
    (q.st = .seek → m.tseq = e.tseq → laneCount q.healthyRx < 4 → exec (.offer p m) s =
      .next (s.setPort p { q with exch := { e with offer := some m, requestSent := none } })) ∧
    ((q.st = .train ∨ (q.st = .seek ∧ 4 ≤ laneCount q.healthyRx)) → m.tseq = e.tseq → e.accept = none →
      ∃ u a, exec (.offer p m) s = .next u ∧ (u.portAt p).st = .train ∧ (u.portAt p).exch.acceptSent = some a ∧
        a.tseq = e.tseq ∧ a.trate = slower q.trate m.trate ∧
        (let tx := activeLanes (s.healthyTx p &&& m.rxset)
         let rx := activeLanes (m.txset &&& q.healthyRx)
         if s.pkg.pid.toNat < m.pid.toNat then a.usea = tx ∧ a.useb = rx else a.usea = rx ∧ a.useb = tx) ∧
        (s.pkg.st ≠ .failed → Sent.train p 2 a ∈ u.outbox)) ∧
    (¬ training ∨ m.tseq ≠ e.tseq → keeps (.accept p m) ∧ keeps (.ready p m)) ∧
    (∀ a, training → m.tseq = e.tseq → e.acceptSent = some a →
      let agree := a.trate = m.trate ∧ a.usea = m.usea ∧ a.useb = m.useb
      (¬ agree → ∃ u, exec (.accept p m) s = .next u ∧ (u.portAt p).exch = { tseq := e.tseq + 1 } ∧ sent u 1) ∧
      (agree → e.readySent = false → a.usea ≠ 0 → a.useb ≠ 0 → e.readyGot = false →
        ∃ u, exec (.accept p m) s = .next u ∧ (u.portAt p).exch.readySent = true ∧ (u.portAt p).st = q.st ∧ sent u 3)) ∧
    (∀ own peer, training → m.tseq = e.tseq → e.acceptSent = some own → e.offer = some peer → e.readySent = true →
      q.txRestripe = none → q.rxRestripe = none →
      (∀ next rest, q.laterRetrain = next :: rest → ∃ u, exec (.ready p m) s = .next u ∧ (u.portAt p).st = .retrain ∧
        (u.portAt p).exch.tseq = next.tseq ∧ (u.portAt p).laterRetrain = rest ∧ sent u 1 ∧ sent u 2) ∧
      (q.laterRetrain = [] → ∃ u, exec (.ready p m) s = .next u ∧
        (let w := widthOf (laneCount (own.txset &&& peer.rxset))
         let rw := widthOf (laneCount (peer.txset &&& own.rxset))
         (u.portAt p).w = w ∧ (u.portAt p).rxw = rw ∧ (u.portAt p).rate = own.trate ∧
         (u.portAt p).st = (if w = 16 ∧ rw = 16 ∧ own.trate = 0 then PortState.active else .degraded) ∧
         (u.portAt p).cause = (if q.st = .retrain then 0x12 else 0x13)))) ∧
    (training → m.tseq = e.tseq → e.readySent = false → exec (.ready p m) s =
      .next (s.setPort p { q with exch := { e with readyGot := true } })) ∧
    (s.pkg.up < q.since + 100000 ∨ ¬ training → keeps (.trainTimeout p)) ∧
    (q.st = .train → q.since + 100000 ≤ s.pkg.up → q.attempts + 1 < 16 → ∃ u, exec (.trainTimeout p) s = .next u ∧
      (u.portAt p).st = .seek ∧ (u.portAt p).attempts = q.attempts + 1 ∧ sent u 1) ∧
    (q.st = .retrain ∨ (q.st = .train ∧ 16 ≤ q.attempts + 1) → q.since + 100000 ≤ s.pkg.up → q.seq.st = .idle →
      ∃ u, exec (.trainTimeout p) s = .next u ∧ (u.portAt p).st = .failed ∧ (u.portAt p).cause = 0x14 ∧
        ∀ l < 16, ((u.portAt p).lane l).lit = false) ∧
    (q.up = false → q.st ≠ .retrain → keeps (.retrainReq p m)) ∧
    (q.st = .retrain → e.requestSent = none → exec (.retrainReq p m) s =
      .next (s.setPort p { q with laterRetrain := q.laterRetrain ++ [m] })) ∧
    (q.up = true → (q.txRestripe ≠ none ∨ q.rxRestripe ≠ none) → exec (.retrainReq p m) s =
      .next (s.setPort p { q with laterRetrain := q.laterRetrain ++ [m] })) ∧
    (q.up = true → q.txRestripe = none → q.rxRestripe = none → ∃ u, exec (.retrainReq p m) s = .next u ∧
      (u.portAt p).st = .retrain ∧ (u.portAt p).exch.tseq = m.tseq ∧ (u.portAt p).replay = q.replay ∧ sent u 1 ∧ sent u 2)

/-- Losing lanes (R365, R369, R372, R373): the detection records the loss and names it to the peer, a direction below four
lanes fails the port, the marker and its reply switch the two ends to the width of what is left and the sender replays, an
exchange in which light is lost starts again, and a loss told already is no second one. Markers, replies and notices are
told apart as log entry 37 says. -/
def Obligations.LanesAreLostAndRestriped : Prop :=
  ∀ (s : State) (p : Nat) (lanes : BitVec 16) (m : TrainMsg),
    let q := s.portAt p
    let keeps := fun (i : Instr) => exec i s = .next s
    let lower := s.pkg.pid.toNat < q.peerPid.toNat
    let forRx := if lower then m.useb else m.usea
    let forTx := if lower then m.usea else m.useb
    let rxNow := match q.rxRestripe with | some r => r.lanes | none => q.rxLanes
    let txNow := match q.txRestripe with | some r => r.lanes | none => q.txLanes
    ((∀ i < 16, lanes.getLsbD i = true → (q.lane i).rxlos = true) ∨ s.pkg.st = .reset → keeps (.lossOfLight p lanes)) ∧
    (s.pkg.st ≠ .reset → (∀ i < 16, lanes.getLsbD i = true → (q.lane i).rxlos = false) → lanes ≠ 0 →
      let left := rxNow &&& ~~~ lanes
      (q.up = true → left = rxNow → ∃ u, exec (.lossOfLight p lanes) s = .next u ∧ (u.portAt p).st = q.st ∧
        (u.portAt p).rxRestripe = q.rxRestripe ∧ u.outbox = s.outbox) ∧
      (q.up = true → left ≠ rxNow → 4 ≤ laneCount left → ∃ u, exec (.lossOfLight p lanes) s = .next u ∧ (u.portAt p).st = .degraded ∧
        (u.portAt p).rxRestripe = some { lanes := left } ∧ (u.portAt p).txRestripe = q.txRestripe ∧ (u.portAt p).cause = 0x10 ∧
        (∀ i < 16, lanes.getLsbD i = true → ((u.portAt p).lane i).rxlos = true ∧ ((u.portAt p).lane i).locked = false) ∧
        (s.pkg.st ≠ .failed → ∃ n, Sent.train p 5 n ∈ u.outbox ∧ n.usea = 0 ∧ n.useb = 0)) ∧
      (q.up = true → left ≠ rxNow → laneCount left < 4 → q.seq.st = .idle → ∃ u, exec (.lossOfLight p lanes) s = .next u ∧
        (u.portAt p).st = .failed) ∧
      (q.st = .train ∨ q.st = .retrain → ∃ u, exec (.lossOfLight p lanes) s = .next u ∧ (u.portAt p).st = q.st ∧
        (u.portAt p).exch = { tseq := q.exch.tseq + 1 })) ∧
    (q.up = false → keeps (.restripe p m)) ∧
    (q.up = true → q.laterRetrain = [] →
      (let left := rxNow &&& m.txset
       forRx ≠ 0 → forRx &&& ~~~ left = 0 → 4 ≤ laneCount left → ∃ u, exec (.restripe p m) s = .next u ∧ (u.portAt p).st = .degraded ∧
         (u.portAt p).rxLanes = left ∧ (u.portAt p).rxw = widthOf (laneCount left) ∧ (u.portAt p).rxRestripe = none ∧
         (u.portAt p).txLanes = q.txLanes ∧ (s.pkg.st ≠ .failed → ∃ n, Sent.train p 5 n ∈ u.outbox)) ∧
      (let left := rxNow &&& m.txset
       forRx &&& ~~~ left ≠ 0 → 4 ≤ laneCount left → keeps (.restripe p m)) ∧
      (forRx ≠ 0 → laneCount (rxNow &&& m.txset) < 4 → q.seq.st = .idle → ∃ u, exec (.restripe p m) s = .next u ∧
        (u.portAt p).st = .failed) ∧
      (forRx = 0 → forTx ≠ 0 → q.txRestripe = none → keeps (.restripe p m)) ∧
      (∀ r, forRx = 0 → forTx ≠ 0 → q.txRestripe = some r → forTx ≠ activeLanes r.lanes → keeps (.restripe p m)) ∧
      (∀ r, forRx = 0 → forTx ≠ 0 → q.txRestripe = some r → forTx = activeLanes r.lanes → ∃ u, exec (.restripe p m) s = .next u ∧
        (u.portAt p).st = .degraded ∧ (u.portAt p).txLanes = r.lanes ∧ (u.portAt p).w = widthOf (laneCount r.lanes) ∧
        (u.portAt p).txRestripe = none ∧ (u.portAt p).rxLanes = q.rxLanes ∧
        (∀ e ∈ q.replay, Sent.flit p (e.2.bytes e.1 0) ∈ u.outbox)) ∧
      (forRx = 0 → forTx = 0 → txNow &&& ~~~ m.rxset = 0 → keeps (.restripe p m)) ∧
      (let left := txNow &&& ~~~ (txNow &&& ~~~ m.rxset)
       forRx = 0 → forTx = 0 → txNow &&& ~~~ m.rxset ≠ 0 → 4 ≤ laneCount left → ∃ u, exec (.restripe p m) s = .next u ∧
         (u.portAt p).st = .degraded ∧ (u.portAt p).txRestripe = some { lanes := left } ∧
         (s.pkg.st ≠ .failed → ∃ n, Sent.train p 5 n ∈ u.outbox)))

/-- Flits (R364, R366, R367): a flit in order is accepted and joins its message, a duplicate is discarded, one that
fails its check or is out of order is refused with one NAK within 2 µs; acknowledgements, which go after every 32nd
accepted flit, free what was sent before them, a NAK and 2 µs without progress resend the rest in order. A TRAIN flit is
the message that its payload has (R370). A port that is not up takes no other flit, and one whose header fails does
nothing. What counts as a duplicate is the reading of log entry 16. -/
def Obligations.FlitsAreAcknowledgedAndReplayed : Prop :=
  ∀ (s : State) (p : Nat) (bytes : List Byte),
    let q := s.portAt p
    let keeps := fun (i : Instr) => exec i s = .next s
    let ack := fun (kind : Nat) => Sent.flit p (flitBytes { kind := kind, ackseq := q.rxSeq, ackv := true, credit := q.credit } [])
    let resent := fun (u : State) (l : List (Nat × FlitBody)) => ∀ e ∈ l, Sent.flit p (e.2.bytes e.1 0) ∈ u.outbox
    let oldest := (q.txSeq + 4096 - q.replay.length) % 4096
    (receiveFlit bytes = .nothing → keeps (.dataFlit p bytes) ∧ keeps (.idleFlit p bytes) ∧ keeps (.nak p bytes)) ∧
    (q.up = false → keeps (.idleFlit p bytes) ∧ keeps (.nak p bytes) ∧ (trainPayload bytes = none → keeps (.dataFlit p bytes))) ∧
    (∀ h payload, receiveFlit bytes = .good h payload → h.kind = 2 →
      let same := fun (i : Instr) => exec (.dataFlit p bytes) s = exec i s
      (trainOf payload = none → keeps (.dataFlit p bytes)) ∧
      ∀ k m, trainOf payload = some (k, m) → (k = 1 → same (.offer p m)) ∧ (k = 2 → same (.accept p m)) ∧ (k = 3 → same (.ready p m)) ∧
        (k = 4 → same (.retrainReq p m)) ∧ (k = 5 → same (.restripe p m))) ∧
    (q.up = false → keeps (.ackTimer p) ∧ keeps (.replayTimeout p)) ∧
    (∀ h payload, q.up = true → receiveFlit bytes = .good h payload →
      (h.kind = 1 → h.ackv = false → h.seq = q.rxSeq → h.last = false → (h.first = true ∨ q.incoming ≠ none) →
        ∃ u i, exec (.dataFlit p bytes) s = .next u ∧ (u.portAt p).rxSeq = (q.rxSeq + 1) % 4096 ∧ (u.portAt p).incoming = some i ∧
          ((q.rxSeq + 1) % 32 ≠ 0 → (u.portAt p).unacked = q.unacked + 1) ∧
          ((q.rxSeq + 1) % 32 = 0 → s.pkg.st ≠ .failed → (u.portAt p).unacked = 0 ∧
            Sent.flit p (flitBytes { kind := 0, ackseq := (q.rxSeq + 1) % 4096, ackv := true, credit := q.credit + 1 } []) ∈ u.outbox) ∧
          (h.first = true → i.opc = h.opc ∧ i.tag = h.tag ∧ i.bytes = payload) ∧
          (∀ j, h.first = false → q.incoming = some j → i.opc = j.opc ∧ i.tag = j.tag ∧ i.bytes = j.bytes ++ payload)) ∧
      (h.kind = 1 → h.ackv = false → h.seq ≠ q.rxSeq → (q.rxSeq + 4096 - h.seq) % 4096 ≤ 512 → keeps (.dataFlit p bytes)) ∧
      (h.kind = 1 → h.ackv = false → h.seq ≠ q.rxSeq → 512 < (q.rxSeq + 4096 - h.seq) % 4096 → s.pkg.st ≠ .failed →
        q.nakTimes.length < 16 → q.lastNak = none → ∃ u, exec (.dataFlit p bytes) s = .next u ∧ ack 3 ∈ u.outbox ∧
          (u.portAt p).rxSeq = q.rxSeq ∧ (u.portAt p).st = q.st ∧ (u.portAt p).lastNak = some (q.rxSeq, s.pkg.up)) ∧
      (∀ at', h.kind = 1 → h.ackv = false → h.seq ≠ q.rxSeq → 512 < (q.rxSeq + 4096 - h.seq) % 4096 →
        q.lastNak = some (q.rxSeq, at') → s.pkg.up < at' + 2000 → keeps (.dataFlit p bytes)) ∧
      (h.kind = 0 → h.ackv = true → q.outq = [] →
        let d := (h.ackseq + 4096 - oldest) % 4096
        (q.replay.length < d → ∃ u, exec (.idleFlit p bytes) s = .next u ∧ (u.portAt p).replay = q.replay ∧
          (u.portAt p).txSeq = q.txSeq ∧ (u.portAt p).rxSeq = q.rxSeq) ∧
        (d ≤ q.replay.length → ∃ u, exec (.idleFlit p bytes) s = .next u ∧ (u.portAt p).replay = q.replay.drop d ∧
          (u.portAt p).txSeq = q.txSeq)) ∧
      (h.kind = 3 → h.ackv = true → q.outq = [] → q.txRestripe = none →
        let d := (h.ackseq + 4096 - oldest) % 4096
        d ≤ q.replay.length → ∃ u, exec (.nak p bytes) s = .next u ∧ (u.portAt p).replay = q.replay.drop d ∧
          resent u (q.replay.drop d))) ∧
    (q.up = true → receiveFlit bytes = .bad none → s.pkg.st ≠ .failed → q.lastNak = none → q.nakTimes.length < 16 →
      (∃ u, exec (.dataFlit p bytes) s = .next u ∧ ack 3 ∈ u.outbox ∧ (u.portAt p).rxSeq = q.rxSeq) ∧
      keeps (.idleFlit p bytes) ∧ keeps (.nak p bytes)) ∧
    (q.up = true → 0 < q.unacked ∨ 512 ≤ q.replay.length → s.pkg.st ≠ .failed → ∃ u, exec (.ackTimer p) s = .next u ∧ ack 0 ∈ u.outbox ∧
      (u.portAt p).unacked = 0 ∧ (u.portAt p).replay = q.replay) ∧
    (q.unacked = 0 → q.replay.length < 512 → keeps (.ackTimer p)) ∧
    (q.replay = [] ∨ s.pkg.up < q.lastProgress + 2000 → keeps (.replayTimeout p)) ∧
    (q.up = true → q.txRestripe = none → q.replay ≠ [] → q.lastProgress + 2000 ≤ s.pkg.up → ∃ u, exec (.replayTimeout p) s = .next u ∧
      resent u q.replay ∧ (u.portAt p).replay = q.replay ∧ (u.portAt p).lastProgress = s.pkg.up)

/-- Attestation and the flash (R392, R394): a write of `ATCTL` while busy or in RESET is ignored, at leaf 2^20 everything is
exhausted, one for another's context is refused, and else the next leaf number is in the flash, whose counter advances,
before the signature; the report with its signature and certificate is written to the host; an update that is signed over
header and bytes with the key of the mask ROM and not below its floor is written in QUIESCED alone. The places of the
report's fields are the model's (log entry 40), those of an image's header too, as is what happens where the flash does not
authenticate (log entry 67), and a write after a refusal is the reading of log entry 20. -/
def Obligations.AttestationAndFlash : Prop :=
  ∀ (s : State) (via : Via) (v : Word),
    let a := s.attest
    let world := (s.ctxAt (v.toNat % 4096)).world
    let mine := v.getLsbD 12 = true ∨ (match via with | .host => world = 0 | .guest g => g ≠ 0 ∧ world = g)
    (a.st = 1 ∨ s.pkg.st = .reset → exec (.atctlWrite via v) s = .next s) ∧
    (a.st ≠ 1 → s.pkg.st ≠ .reset →
      (2 ^ 20 ≤ s.flash.leaf → exec (.atctlWrite via v) s = .next { s with attest := { a with st := 4 } }) ∧
      (s.flash.leaf < 2 ^ 20 → ¬ mine ∨ s.flashAnswers = false → exec (.atctlWrite via v) s =
        .next { s with attest := { a with st := 3 } }) ∧
      (s.flash.leaf < 2 ^ 20 → mine → s.flashAnswers = true → exec (.atctlWrite via v) s =
        .next { s with attest := { a with st := 1, req := v, via := via, leaf := s.flash.leaf },
                       flash := { s.flash with leaf := s.flash.leaf + 1, counter := s.flash.counter + 1 },
                       pkg := { s.pkg with flashSeen := s.flash.counter + 1 } })) ∧
    (a.st ≠ 1 ∨ s.pkg.st = .reset → exec .attestationDone s = .next s) ∧
    (a.st = 1 → s.pkg.st ≠ .reset → ∃ u, exec .attestationDone s = .next u ∧ u.attest = { a with st := 2 } ∧ u.flash = s.flash ∧
      (let report := s.reportBody ++ Config.xmssSign s.pkg.seed a.leaf s.reportBody ++ s.flash.certificate
       ∀ i < report.length, u.host.get 0 (a.req.toNat / 65536 * 65536 + i) = report.getD i 0)) ∧
    (∀ (recovery : Bool) (image : Image),
      let floor := if recovery then s.flash.recoveryFloor else s.flash.bitstreamFloor
      let good := image.length = image.bytes.length ∧ shake256 image.key 64 = Config.romKeyDigest ∧
        Config.xmssVerify image.key (bytesLE 8 image.length ++ bytesLE 4 image.version.toNat ++ image.bytes) image.signature = true ∧
        floor.toNat ≤ image.version.toNat
      (s.pkg.st ≠ .quiesced ∨ ¬ good ∨ s.flashAnswers = false → exec (.flashUpdate recovery image) s = .next s) ∧
      (s.pkg.st = .quiesced → good → s.flashAnswers = true → ∃ u, exec (.flashUpdate recovery image) s = .next u ∧
        u.flash.cfgGen = 0 ∧ u.flash.counter = s.flash.counter + 1 ∧
        (recovery = true → u.flash.recovery = image ∧ u.flash.recoveryFloor = image.version ∧ u.flash.bitstream = s.flash.bitstream) ∧
        (recovery = false → u.flash.bitstream = image ∧ u.flash.bitstreamFloor = image.version ∧ u.flash.recovery = s.flash.recovery)))

/-- The host attachment, the configuration memory, scrub and the health monitors (R24, R201, R383, R391, R396): a
die's module that goes down is recorded and the package fails with all four; a frame is repaired, at its third
failure within 1 s the package fails; scrub counts what it corrects and poisons what it cannot; each hour the
monitors take their value and their prediction. What an hour counts is the reading of log entry 17, the fit that of
log entry 39. -/
def Obligations.AttachmentAndMonitors : Prop :=
  ∀ (s : State),
    let fails := fun (i : Instr) (cause : BitVec 8) => ∃ u, exec i s = .next u ∧ u.pkg.st = .failed ∧ u.pkg.failCause = cause
    let keeps := fun (i : Instr) => exec i s = .next s
    (∀ d, d < 4 →
      let down := s.pkg.ucieDown ||| (1#4 <<< d)
      (s.pkg.ucieDown.getLsbD d = true → keeps (.ucieDown d)) ∧ (s.pkg.ucieDown.getLsbD d = false → keeps (.ucieUp d)) ∧
      (s.pkg.ucieDown.getLsbD d = false → down ≠ 0xF → exec (.ucieDown d) s =
        .next (({ s with pkg := { s.pkg with ucieDown := down } } : State).event 0x25 0xFF 0xFF d 0)) ∧
      (s.pkg.ucieDown.getLsbD d = false → down = 0xF → s.pkg.st ≠ .reset → s.pkg.st ≠ .failed → fails (.ucieDown d) 0x11) ∧
      (s.pkg.ucieDown.getLsbD d = true → exec (.ucieUp d) s =
        .next (({ s with pkg := { s.pkg with ucieDown := s.pkg.ucieDown &&& ~~~ (1#4 <<< d) } } : State).event 0x26 0xFF 0xFF d 0))) ∧
    (let on := s.pkg.st = .train ∨ s.pkg.st = .serving ∨ s.pkg.st = .draining ∨ s.pkg.st = .quiesced
     (¬ on → ∀ bad good, keeps (.configReadbackPass bad good)) ∧
     (on → keeps (.configReadbackPass [] true) ∧ ∀ bad, fails (.configReadbackPass bad false) 0x12) ∧
     (∀ f, on →
       let recent := (s.pkg.frameFails.get [] f).filter (fun t => decide (s.pkg.up ≤ t + 1000000000))
       (2 ≤ recent.length → fails (.configReadbackPass [f] true) 0x12) ∧
       (recent.length < 2 → ∃ u, exec (.configReadbackPass [f] true) s = .next u ∧ u.pkg.st = s.pkg.st ∧
         u.pkg.frameFails.get [] f = s.pkg.up :: recent))) ∧
    (∀ stack line, exec (.hbmScrub stack line true) s =
        .next { s with scrubCount := s.scrubCount.set 0 stack (s.scrubCount.get 0 stack + 1) } ∧
      (line * 64 < Config.hbmBytes → ∃ u, exec (.hbmScrub stack line false) s = .next u ∧ u.hbm.poison.get false line = true ∧
        u.hbm.latent.get false line = false ∧ ∀ a, a / 64 = line → u.hbm.bytes.get 0 a = 0)) ∧
    (∀ stack n,
      let h := s.hbmHealth.get {} stack
      let v := s.scrubCount.get 0 stack + n
      ∃ u, exec (.hbmHourlyCount stack n) s = .next u ∧ (u.hbmHealth.get {} stack).value = v ∧
        (u.hbmHealth.get {} stack).samples = (v :: h.samples).take 256 ∧
        (h.samples.length < 15 → (u.hbmHealth.get {} stack).eolh = 0xFFFFFFFF) ∧ u.scrubCount.get 0 stack = 0 ∧
        (v ≤ 100000 → h.samples.length < 15 → u.pkg = s.pkg) ∧
        (100000 < v → h.samples.length < 15 → s.pkg.ereach = true → u.pkg.ehead = s.pkg.ehead + 1)) ∧
    (∀ die n,
      let h := s.vgHealth.get {} die
      ∃ u, exec (.vgHourlyMeasure die n) s = .next u ∧ (u.vgHealth.get {} die).value = n ∧
        (u.vgHealth.get {} die).samples = (n :: h.samples).take 256 ∧
        (h.samples.length < 15 → (u.vgHealth.get {} die).eolh = 0xFFFFFFFF) ∧
        ((∀ m ∈ h.samples.take 24, m < n + 5) → h.samples.length < 15 → u.pkg = s.pkg) ∧
        ((∃ m ∈ h.samples.take 24, n + 5 ≤ m) → h.samples.length < 15 → s.pkg.ereach = true → u.pkg.ehead = s.pkg.ehead + 1))

/-- Package time (R388, R389): a Sync is kept with its arrival, its one Follow_Up gives the offset from the selected master,
which steps time in TRAIN without a lease and is slewed else, and clears LOCK above 1 µs; eight good intervals of 7.8125 ms
since the run of good offsets began set it, and a Sync without a Follow_Up breaks the run; the fourth missed Sync clears it;
Delay_Req goes to the master once in an interval, and its answer gives the delay; a master not heard for three Announce
intervals is forgotten. The slew rate is free; which offsets are slewed and when a Sync counts as missed are the readings of
log entry 18, the run of intervals and what a change of the master leaves those of log entry 69. -/
def Obligations.PackageTime : Prop :=
  ∀ (s : State) (port m seq t : Nat),
    let keeps := fun (i : Instr) => exec i s = .next s
    let runs := s.pkg.st = .train ∨ s.pkg.st = .serving ∨ s.pkg.st = .draining ∨ s.pkg.st = .quiesced
    let heard := runs ∧ port < 80 ∧ peerFacing port = false ∧ (s.portAt port).up = true
    let mine := s.ptp.master = some m
    (¬ heard → keeps (.ptpMessage (.sync port m seq)) ∧ keeps (.ptpMessage (.followUp port m seq t)) ∧
      keeps (.ptpMessage (.delayResp port m seq t)) ∧ ∀ a b c d e f g, keeps (.ptpMessage (.announce port m a b c d e f g))) ∧
    (heard →
      (∀ t2 fu, Tbl.find? s.ptp.syncAt m = some (seq, t2, fu) → keeps (.ptpMessage (.sync port m seq))) ∧
      ((∀ n t2 fu, Tbl.find? s.ptp.syncAt m = some (n, t2, fu) → n ≠ seq) → ∃ u, exec (.ptpMessage (.sync port m seq)) s = .next u ∧
        Tbl.find? u.ptp.syncAt m = some (seq, s.pkg.ns, false) ∧ Tbl.find? u.ptp.syncUp m = some s.pkg.up ∧ u.pkg = s.pkg ∧
        (mine → u.ptp.missed = 0 ∧ u.ptp.lastSync = some s.pkg.up) ∧ u.ptp.lock = s.ptp.lock ∧
        (∀ n t2, mine → Tbl.find? s.ptp.syncAt m = some (n, t2, false) → u.ptp.good = 0 ∧ u.ptp.since = none)) ∧
      (∀ t2, mine → Tbl.find? s.ptp.syncAt m = some (seq, t2, false) →
        let off : Int := (t2 : Int) - (t : Int) - s.ptp.delay.get 0 m
        let came := (Tbl.find? s.ptp.syncUp m).getD s.pkg.up
        let lease := ∃ e ∈ s.pool.pages, e.2.st = .leased ∨ e.2.st = .revoking
        let good := off.natAbs < 100
        ∃ u, exec (.ptpMessage (.followUp port m seq t)) s = .next u ∧ u.ptp.offset = BitVec.ofInt 32 off ∧
          (∃ t2', Tbl.find? u.ptp.syncAt m = some (seq, t2', true)) ∧
          (s.pkg.st = .train → ¬ lease → u.pkg.ns = ((s.pkg.ns : Int) - off).toNat ∧ u.ptp.stepped = true) ∧
          (s.pkg.st ≠ .train ∨ lease → u.pkg.ns = s.pkg.ns ∧ Tbl.find? u.ptp.pair m = some (t, t2)) ∧
          (s.pkg.st ≠ .train ∨ lease → off.natAbs ≤ 1000000 → u.ptp.slew = - off ∧ u.ptp.slewRate ≤ 200) ∧
          (1000 < off.natAbs → u.ptp.lock = false) ∧
          (¬ good → u.ptp.good = 0 ∧ u.ptp.since = none) ∧
          (good → s.ptp.since = none → u.ptp.good = 0 ∧ u.ptp.since = some came ∧ u.ptp.lock = s.ptp.lock) ∧
          (∀ t0, good → s.ptp.since = some t0 → u.ptp.good = (came - t0) / 7812500 ∧ u.ptp.since = some t0 ∧
            (8 ≤ u.ptp.good → u.ptp.lock = true) ∧ (u.ptp.good < 8 → u.ptp.lock = s.ptp.lock))) ∧
      (∀ t2, ¬ mine → Tbl.find? s.ptp.syncAt m = some (seq, t2, false) → ∃ u, exec (.ptpMessage (.followUp port m seq t)) s = .next u ∧
        Tbl.find? u.ptp.pair m = some (t, t2) ∧ u.ptp.offset = s.ptp.offset ∧ u.pkg = s.pkg) ∧
      (∀ n t2 fu, Tbl.find? s.ptp.syncAt m = some (n, t2, fu) → (n ≠ seq ∨ fu = true) → keeps (.ptpMessage (.followUp port m seq t))) ∧
      (∀ n t1 t2 t3, Tbl.find? s.ptp.reqAt m = some (n, t3) → Tbl.find? s.ptp.pair m = some (t1, t2) →
        (n = seq → ∃ u, exec (.ptpMessage (.delayResp port m seq t)) s = .next u ∧
          Tbl.find? u.ptp.delay m = some ((((t2 : Int) - t1) + ((t : Int) - t3)) / 2) ∧ u.pkg = s.pkg) ∧
        (n ≠ seq → keeps (.ptpMessage (.delayResp port m seq t)))) ∧
      (∀ p1 cl ac va p2 id st, ∃ u, exec (.ptpMessage (.announce port m p1 cl ac va p2 id st)) s = .next u ∧
        Tbl.find? u.ptp.announced m = some [p1, cl, ac, va, p2, id, st, m] ∧ Tbl.find? u.ptp.heardAt m = some s.pkg.up ∧
        u.ptp.master = bestMaster u.ptp.announced ∧ u.ptp.lock = s.ptp.lock)) ∧
    (s.ptp.lastSync = none → keeps .syncMissed) ∧
    (∀ t0, s.ptp.lastSync = some t0 →
      let k := s.ptp.missed + 1
      let due := runs ∧ t0 + (2 * k + 1) * 3906250 ≤ s.pkg.up
      (¬ due → keeps .syncMissed) ∧
      (due → ∃ u, exec .syncMissed s = .next u ∧ u.ptp.missed = k ∧ u.ptp.good = 0 ∧ u.ptp.since = none ∧
        (k = 4 → u.ptp.lock = false) ∧ (k ≠ 4 → u.ptp.lock = s.ptp.lock))) ∧
    (s.ptp.master = none ∨ ¬ runs ∨ (∃ t0, s.ptp.reqUp = some t0 ∧ s.pkg.up < t0 + 7812500) → keeps .delayReqInterval) ∧
    (mine → runs → (∀ t0, s.ptp.reqUp = some t0 → t0 + 7812500 ≤ s.pkg.up) → ∃ u n, exec .delayReqInterval s = .next u ∧
      u.outbox = s.outbox ++ [.delayReq m] ∧ Tbl.find? u.ptp.reqAt m = some (n, s.pkg.ns) ∧ u.ptp.reqUp = some s.pkg.up) ∧
    (Tbl.find? s.ptp.heardAt m = none → keeps (.announceReceiptTimeout m)) ∧
    (∀ at', Tbl.find? s.ptp.heardAt m = some at' →
      (s.pkg.up < at' + 3000000000 → keeps (.announceReceiptTimeout m)) ∧
      (at' + 3000000000 ≤ s.pkg.up → ∃ u, exec (.announceReceiptTimeout m) s = .next u ∧ Tbl.find? u.ptp.announced m = none ∧
        Tbl.find? u.ptp.heardAt m = none ∧ u.ptp.master = bestMaster u.ptp.announced))

/-- The windows (R23, R299, R320, R341, R361, R384, R385): a 64-bit write at the offset of a command does what the
command does, in every state of the package, and a write at an offset that names nothing changes nothing. -/
def Obligations.RegisterWritesAreTheirCommands : Prop :=
  ∀ (s : State) (via : Via) (v : Word),
    let write := fun (off : Nat) => exec (.registerWrite via off v) s
    ((∀ off, off % 8 ≠ 0 → write off = .next s) ∧
      (∀ off, 0xA14000 ≤ off → write off = .next s) ∧
      (∀ off, 0x140000 ≤ off → off < 0x400000 → write off = .next s) ∧
      (v.toNat % 4 = 1 → write 0x08 = exec (.pkgCtlDrain via (v.extractLsb' 32 32)) s) ∧
      (v.toNat % 4 = 2 → write 0x08 = exec (.pkgCtlResume via) s) ∧ (v.toNat % 4 = 3 → write 0x08 = exec (.pkgCtlReset via) s) ∧
      (v.toNat % 4 = 0 → write 0x08 = .next s) ∧
      (write 0x10 = exec (.pkgPwrWrite via v) s) ∧ (write 0x68 = exec (.atctlWrite via v) s) ∧
      (via = .host → write 0x20 = .next { s with pkg := { s.pkg with jbase := v &&& 0xFFFFFFFFFFFFF000 } } ∧
        write 0x30 = .next { s with pkg := { s.pkg with ebase := v &&& 0xFFFFFFFFFFFF0000, ereach := true } }) ∧
      (via ≠ .host → write 0x20 = .next s ∧ write 0x30 = .next s) ∧
      (∀ q < 1024,
        let base := 0x100000 + 256 * q
        let code := v.toNat % 16
        (write (base + 0x80) = exec (.qtailWrite via q v) s) ∧
        (code = 1 → write (base + 0x90) = exec (.qctlEnable via q) s) ∧ (code = 2 → write (base + 0x90) = exec (.qctlStop via q) s) ∧
        (code = 3 → write (base + 0x90) = exec (.qctlDisable via q) s) ∧ (code = 4 → write (base + 0x90) = exec (.qctlResync via q) s) ∧
        (code = 5 → write (base + 0x90) = exec (.qctlRekeyed via q) s) ∧
        (∀ w < 4, write (base + 0xA0 + 8 * w) = exec (.qdescWrite via q w v) s)) ∧
      (∀ n < 4096,
        let base := 0x400000 + 512 * n
        let code := v.toNat % 16
        (code = 1 → write (base + 0x80) = exec (.ctxctlCreate via n) s) ∧ (code = 2 → write (base + 0x80) = exec (.ctxctlCodeload via n) s) ∧
        (code = 3 → write (base + 0x80) = exec (.ctxctlInval via n) s) ∧ (code = 4 → write (base + 0x80) = exec (.ctxctlEnd via n) s) ∧
        (code = 6 → write (base + 0x80) = exec (.ctxctlBind via n (v.extractLsb' 56 8)) s) ∧
        (write (base + 0xB0) = exec (.ctxrspWrite via n v) s) ∧ (write (base + 0x140) = exec (.keyqnWrite via n v) s)) ∧
      (∀ c < 512,
        let base := 0x800000 + 4096 * c
        let k := v.toNat % 8
        let code := v.toNat / 16 % 4
        let brkh := v.getLsbD 8
        (code = 1 → write base = exec (.dctlHalt via c k brkh) s) ∧ (code = 2 → write base = exec (.dctlResume via c k brkh) s) ∧
        (code = 3 → write base = exec (.dctlStep via c k brkh) s) ∧
        (∀ j < 256, write (base + 0x800 + 8 * j) = exec (.dstateWrite via c (0x800 + 8 * j) v) s)) ∧
      (∀ p < 80,
        let base := 0xA00000 + 1024 * p
        let code := v.toNat % 8
        let tr := v.extractLsb' 4 2
        (code = 1 → write (base + 0x08) = exec (.pctlEnable via p tr) s) ∧ (code = 2 → write (base + 0x08) = exec (.pctlDisable via p) s) ∧
        (code = 3 → write (base + 0x08) = exec (.pctlRetrain via p tr) s) ∧ (code = 4 → write (base + 0x08) = exec (.pctlBypass via p) s) ∧
        (code = 5 → write (base + 0x08) = exec (.pctlUnbypass via p) s) ∧
        (∀ l < 16, v.getLsbD 63 = false → write (base + 0x100 + 16 * l) = exec (.laserRetClear via p l) s)))

/-- An instruction whose guard reads 0 issues, performs nothing and retires (R85): the package is as it was but for the
strand's PC and the count of instructions. -/
def Sys2Proof.Claims.GuardedInstructionPerformsNothing : Prop :=
  ∀ (i : Instr) (s : State), ((∃ w, encode i = .one w) ∨ (∃ w x, encode i = .two w x)) → s.me.micro.stage = 0 → s.me.behind = false →
    guardOpen i s.me = false → ((instrPre i).sy = false ∨ s.me.inHandler = true ∨ s.me.released = true) →
    exec i s = .next (((s.issuedIn s).countMine 1 1).modMe (fun t => t.retire (t.pc + instrSize i)))

/-- The checks of a word do not depend on the stage guards (R47): what stands at the PC is the same under every guard,
an illegal word traps ILLEGAL under every guard, and behind a closed guard a legal instruction performs nothing. -/
def Obligations.GuardsDoNotHideIllegalWords : Prop :=
  (∀ (s : State) (sg : BitVec 4),
    let g := s.modMe (fun t => { t with sg := sg })
    g.fetchMine = s.fetchMine ∧ g.strandInstr = s.strandInstr ∧
    ∀ w, s.fetchMine = .illegal w → s.strandInstr = some .illegalEncoding → s.me.outs = 0 → exec .illegalEncoding g = .next (g.takeTrap 0x01 (w.setWidth 64) 0)) ∧
  Claims.GuardedInstructionPerformsNothing

/-- The frame of the scalar and predicate instructions: whatever they do, every register but the destination and the
last results, every predicate but theirs, every other register file and special register of the strand, every other
strand, the queues, semaphores and all else of the cores but their token FIFOs and instruction counts, and everything else of
the package stay as they were. A strand whose group has left by `gexit` ends at its boundary
(R259) and is not meant. -/
def Obligations.RegisterInstructionsKeepTheRest : Prop :=
  ∀ (i : Instr) (s u : State), exec i s = .next u → s.me.ending = false →
    let t := s.me
    let v := u.me
    let rest := v.b = t.b ∧ v.c = t.c ∧ v.vr = t.vr ∧ v.w = t.w ∧ v.z = t.z ∧ v.m = t.m ∧ v.vt = t.vt ∧ v.sg = t.sg ∧ v.rb = t.rb ∧
      v.loops = t.loops ∧ v.fgen = t.fgen ∧ v.epc = t.epc ∧ v.ecause = t.ecause ∧ v.einfo = t.einfo ∧ v.einfo2 = t.einfo2 ∧
      v.ho = t.ho ∧ v.hl = t.hl ∧ v.hidden = t.hidden ∧ v.svrsp = t.svrsp ∧ v.svtag = t.svtag ∧ v.waitHalf = t.waitHalf ∧ v.arr = t.arr ∧
      (∀ c k, (c ≠ s.core ∨ k ≠ s.strand) → u.strandAt c k = s.strandAt c k) ∧
      (∀ c, (u.coreAt c).spad = (s.coreAt c).spad ∧ (u.coreAt c).tiles = (s.coreAt c).tiles ∧ (u.coreAt c).banks = (s.coreAt c).banks ∧
        (u.coreAt c).awayTiles = (s.coreAt c).awayTiles ∧ (u.coreAt c).awayBanks = (s.coreAt c).awayBanks ∧
        (u.coreAt c).pieces = (s.coreAt c).pieces ∧ (u.coreAt c).channels = (s.coreAt c).channels ∧ (u.coreAt c).rlc = (s.coreAt c).rlc ∧
        (u.coreAt c).fq = (s.coreAt c).fq ∧ (u.coreAt c).vq = (s.coreAt c).vq ∧ (u.coreAt c).mq = (s.coreAt c).mq ∧
        (u.coreAt c).cq = (s.coreAt c).cq ∧ (u.coreAt c).sem = (s.coreAt c).sem ∧ (u.coreAt c).out = (s.coreAt c).out ∧
        (u.coreAt c).dbg = (s.coreAt c).dbg ∧ (u.coreAt c).gated = (s.coreAt c).gated ∧ (u.coreAt c).group = (s.coreAt c).group) ∧
      u.hbm = s.hbm ∧ u.sealed = s.sealed ∧ u.weights = s.weights ∧ u.host = s.host ∧ u.pool = s.pool ∧ u.ports = s.ports ∧
      u.groups = s.groups ∧ u.launches = s.launches ∧ u.queues = s.queues ∧ u.contexts = s.contexts ∧ u.worldKeys = s.worldKeys ∧
      u.waitTable = s.waitTable ∧ u.history = s.history ∧ u.marks = s.marks ∧ u.ring = s.ring ∧ u.completions = s.completions ∧
      u.outbox = s.outbox ∧ u.jbuf = s.jbuf ∧ u.reports = s.reports ∧ u.ptp = s.ptp ∧ u.attest = s.attest ∧ u.switches = s.switches ∧
      u.puf = s.puf ∧ u.hbmHealth = s.hbmHealth ∧ u.vgHealth = s.vgHealth ∧ u.scrubCount = s.scrubCount ∧ u.flash = s.flash ∧ u.pkg = s.pkg
    (∀ d r, scalarValue i t = some (d, r) → rest ∧ (∀ k, v.rdP k = t.rdP k) ∧
      ∀ f : BitVec 6, f ≠ d → (f.toNat < 56 ∨ f = 60) → v.rd f = t.rd f) ∧
    (∀ p b, predicateValue i t = some (p, b) → rest ∧ (∀ k, k ≠ p.toNat → v.rdP k = t.rdP k) ∧ ∀ f : BitVec 6, v.rd f = t.rd f)

/-- The frame of the S loads and stores and of the H stores: a store changes only the bytes at the address it
computes, a load none and no register but its destination and the last results, and neither changes a predicate, a
branch target, a capability, a vector register or a special register. Addresses are exact (R9). A strand whose group
has left by `gexit` ends at its boundary (R259) and is not meant. -/
def Obligations.LoadsAndStoresKeepTheRest : Prop :=
  ∀ (i : Instr) (s u : State) (a : Access), exec i s = .next u → s.issues i 1 = true → s.me.ending = false →
    let t := s.me
    let v := u.me
    let kept := v.p = t.p ∧ v.b = t.b ∧ v.c = t.c ∧ v.vr = t.vr ∧ v.w = t.w ∧ v.z = t.z ∧ v.m = t.m ∧ v.vt = t.vt ∧ v.sg = t.sg ∧
      v.rb = t.rb ∧ v.loops = t.loops ∧ v.svrsp = t.svrsp ∧ v.arr = t.arr
    let byte := fun (w : State) (c b : Nat) => ((w.coreAt c).spad.readAt [b]).1
    (∀ as, accessS i t = some a → a.poison = false → a.addr % a.bytes = 0 → s.sLoc s.core s.grp a.addr a.bytes = .ok as →
      kept ∧ u.hbm = s.hbm ∧ u.sealed = s.sealed ∧ u.groups = s.groups ∧
      (∀ c b, (c ≠ s.core ∨ a.store = false ∨ b ∉ as) → byte u c b = byte s c b) ∧
      (∀ f : BitVec 6, (a.store = true ∨ (f ≠ a.reg ∧ (f.toNat < 56 ∨ f = 60))) → v.rd f = t.rd f)) ∧
    (∀ pa x, accessH i t = some a → a.store = true → a.poison = false → (t.rd a.reg).poison = false → a.addr % a.bytes = 0 →
      s.hPhys s.myCtx a.addr .wr = some pa → s.groups.find? s.grp = some x →
      (s.acceptBytes s.grp false (place (addrs pa a.bytes) (lowBytes a.bytes (t.rd a.reg).v))).isSome = true →
      kept ∧ u.hbm = s.hbm ∧ (∀ c b, byte u c b = byte s c b) ∧ (∀ f : BitVec 6, v.rd f = t.rd f) ∧
      ∃ y, u.groups.find? s.grp = some y ∧ ∀ b, b ∉ addrs pa a.bytes → y.ver.ownH b = x.ver.ownH b)

/-- Fatal errors and containments fall at the end of the clock in which they are raised (R217, R326, R327): a fatal error
notes the lowest code of its clock, and its context, if it still is, FAILS with it, its queues DISABLED and its groups
ENDED; a containment stops the group's sequencers, waits for the boundary in progress, but a FENCED one, and ends its
group. Of several containments the first cause stays (log entry 56). -/
def Sys2Proof.Claims.FatalErrorsAndContainments : Prop :=
  ∀ (s : State) (n g : Nat) (cause : BitVec 8),
    let c := s.ctxAt n
    let alive := c.st ≠ .none ∧ c.st ≠ .retired ∧ c.st ≠ .failed
    (¬ alive → s.fatal n cause = s) ∧
    (alive → ∃ d, ((s.fatal n cause).ctxAt n).dying = some d ∧ d.toNat ≤ cause.toNat ∧
      (∀ e, c.dying = some e → d.toNat ≤ e.toNat) ∧ (d = cause ∨ c.dying = some d)) ∧
    (let u := s.fatalNow n cause
     (u.ctxAt n).st = .failed ∧ (u.ctxAt n).fcause = cause ∧ (u.ctxAt n).dying = none ∧
     (∀ q < 1024, (s.queueAt q).ctx = n → (u.queueAt q).st = .disabled) ∧
     (∀ x, s.groups.find? g = some x → x.ctx = n → ∃ y, u.groups.find? g = some y ∧ (y.st = .retired ∨ y.st = .ended))) ∧
    (∀ x, s.groups.find? g = some x → x.st ≠ .retired → x.st ≠ .ended →
      (s.contain g cause).groups.find? g =
        some { x with contain := some (x.contain.getD cause), fenced := x.fenced || cause == 0x42 }) ∧
    (∀ x, s.groups.find? g = some x →
      (x.contain = none → s.contained g = s) ∧
      (x.contain ≠ none → x.pinna = none → x.fenced = false → x.ver.bounds ≠ [] → (s.contained g).groups = s.groups ∧
        ∀ p, (s.portAt p).seq.grp = some g → ((s.contained g).portAt p).seq.st = .idle) ∧
      (x.contain ≠ none → (x.fenced = true ∨ x.ver.bounds = []) → x.swept = false → x.st ≠ .retired → x.st ≠ .ended → x.pinna = none →
        ∃ y, (s.contained g).groups.find? g = some y ∧ y.st = .ended ∧ y.contain = none))

/-- The journal's records of one clock are written together, by queue number and then by SSEQ, each once (R317), before the
counters and messages that report them (R315, R387), and a clock is 0.625 ns long (R5). -/
def Sys2Proof.Claims.ClocksAndTheirRecords : Prop :=
  (∀ l : List JRec, (recSort l).Perm l ∧ (recSort l).Pairwise (fun a b => recBefore b a = false)) ∧
  (∀ s : State, s.journalFlush.jbuf = [] ∧ s.journalFlush.reports = [] ∧
    s.journalFlush.pkg.jhead = s.pkg.jhead + BitVec.ofNat 32 s.jbuf.length ∧
    (s.reports = [] → s.journalFlush.hbm = s.hbm ∧ s.journalFlush.completions = s.completions) ∧
    ∀ (a : Nat) (v : Word), ({ s with reports := s.reports ++ [.add a v] } : State).journalFlush = s.journalFlush.reportNow (.add a v)) ∧
  (∀ (s : State) (n : Nat),
    (s.elapse n).pkg.clocks = s.pkg.clocks + n ∧
    8 * (s.elapse n).pkg.up + (s.elapse n).pkg.frac = 8 * s.pkg.up + s.pkg.frac + 5 * n ∧
    (s.pkg.timeRuns = true → s.ptp.slew = 0 → (s.elapse n).pkg.ns + s.pkg.up = s.pkg.ns + (s.elapse n).pkg.up) ∧
    (0 < n → (s.elapse n).order = []))

/-- Within a clock the movers come in the order that the rules give them (R87, R89, R91, R156, R166, R266, R273, R285, R319,
R360, R423): what a mover claims at a seat is noted with its rank, one that comes after a higher rank of the clock, and a
strand that has issued in it, moves one clock later, and nothing moves after a RESET. Which mover of a clock comes first
where no rule says it is the schedule's (log entry 8). -/
def Sys2Proof.Claims.OrderWithinAClock : Prop :=
  ∀ (s : State) (m : Mover),
    (∀ e r, e ∈ s.claims m → s.reached e.1 = some r → e.2 < r → s.slips m = true) ∧
    (∀ c k n r, (Seat.strand c k, n) ∈ s.claims m → s.reached (.strand c k) = some r → s.slips m = true) ∧
    (∀ r, s.reached .package = some r → s.slips m = true) ∧
    (∀ c e, m = .event (.syncRendezvous c) → e ∈ s.order → (∃ k, e.1 = .strand c k) → s.slips m = true) ∧
    (∀ e ∈ s.claims m, ∃ r, (s.noteClaims m).reached e.1 = some r ∧ e.2 ≤ r) ∧
    (∀ x r, s.reached x = some r → ∃ t, (s.noteClaims m).reached x = some t ∧ r ≤ t) ∧
    (∀ i, m = .strand s.core s.strand → s.turnInstr m = some i → encode i ≠ .event → s.me.micro.stage = 0 →
      syncHeld i s.me = false → (Seat.strand s.core s.strand, 0) ∈ s.claims m)

/-- S instructions are overtaken (R86): a strand goes on past a memory instruction, a boundary, an `xfence`, a push or a signal
that has issued and will not trap, which is kept, with the strand as it was, to be performed and to retire in program order;
where its memory request, its operands or its tokens are lacking the strand stays. A younger access is never performed before
an older one whose bytes it shares (R180), a push or a signal takes effect at its retirement (R88, R267), and one that has been
performed retires as the oldest of its strand. That an ordered access overtakes nothing is the reading of log entry 58. -/
def Sys2Proof.Claims.InstructionsAreOvertaken : Prop :=
  (∀ (s : State) (i : Instr),
    let t := s.me
    (t.life = .running ∨ t.life = .handler) → s.strandInstr = some i → t.micro.stage = 0 →
    (guardOpen i t = false ∨ syncHeld i t = true ∨ (instrSrcs i).any t.owed = true ∨ leavable i = false ∨ t.stops = true ∨
      (accesses i = true ∧ s.requestRoom s.core = false) → s.goAhead = s) ∧
    (∀ c m u, guardOpen i t = true → syncHeld i t = false → (instrSrcs i).any t.owed = false → leavable i = true → t.stops = false →
      (accesses i = true → s.requestRoom s.core = true) → s.myCore.grant s.strand i 1 = some (c, m) →
      let s1 := (s.setCore s.core c).modMe (fun t => t.learn m)
      let snap := { s1.me with behind := true }
      exec i (s1.setMe snap) = .next u → u.me.hidden = t.hidden → u.me.micro.stage ≠ 0 →
        s.goAhead.me.pc = t.pc + instrSize i ∧ s.goAhead.me.outs = t.outs + 1 ∧
        ∃ e, s.goAhead.myCore.out = s.myCore.out ++ [e] ∧ e.instr = i ∧ e.k = s.strand ∧ e.snap = snap ∧ e.done = false)) ∧
  (∀ (t t' : Strand) (i j : Instr) (o y : Reach), t.reach i = some o → t'.reach j = some y →
    (o.space = y.space → o.lo < y.lo + y.len → y.lo < o.lo + o.len → overtakes (t, i) (t', j) = false) ∧
    (y.ordered = true → overtakes (t, i) (t', j) = false)) ∧
  (∀ (s : State) (c : Nat) (e o : Out) (l r : List Out), (s.coreAt c).out = l ++ e :: r → (∀ x ∈ l, x.id ≠ e.id) → o ∈ l → o.k = e.k →
    e.done = true ∨ e.atRetirement = true ∨
      (e.snap.micro.stage = 0 ∧ o.done = false ∧ overtakes (o.snap, o.instr) (e.snap, e.instr) = false) →
    s.performBehind c e.id = { s with core := c, strand := e.k, seqTurn := false }) ∧
  (∀ (s : State) (c : Nat) (e : Out) (l r : List Out), (s.coreAt c).out = l ++ e :: r → (∀ x ∈ l ++ r, x.id ≠ e.id) →
    (∀ x ∈ l, x.k ≠ e.k) → e.done = true → (s.coreAt c).pushRoom e.k e.instr = true →
    ((s.performBehind c e.id).coreAt c).out = l ++ r)

/-- What the turns of one clock come to together, and how they overlap. That a mover which comes too late in its
clock moves one clock later is the model's choice (log entry 8), the first of several containments that of log entry
56, ordered accesses the reading of log entry 58. -/
def Obligations.ClocksEndAndOverlap : Prop :=
  Claims.FatalErrorsAndContainments ∧ Claims.ClocksAndTheirRecords ∧ Claims.OrderWithinAClock ∧ Claims.InstructionsAreOvertaken

/-- A step runs the decoded instruction (R2, R5, R82, R84): in a turn of a RUNNING strand the bytes at its PC that decode
to an instruction make the step that instruction's meaning, in the state in which the turn's clocks have passed, and one
more where the mover comes too late in its clock, a reset coming after all that its clock brings; a strand inside an
instruction goes on with it; a WAITING strand asks whether its wait is over; one that is to stop issues nothing more
(R113); a strand goes ahead of its memory instruction, and one left behind is performed (R86); a RUNNING sequencer
performs its word; an event is performed as it stands; and a package that has FAILED moves no strand. Whose turn it is, is
the schedule's, which is the model's own input (log entry 8). -/
def Obligations.StepRunsTheDecodedInstruction : Prop :=
  ∀ (s : State),
    let u := s.turn
    let m := s.nextTurn.1.mover
    (let v := (({ s with schedule := s.nextTurn.2 } : State).advance s.nextTurn.1.clocks).focus m
     let w := if v.slips m then (v.advance 1).focus m else v
     ((∀ e ∈ w.claims m, e.1 ≠ .package) → u = w.noteClaims m) ∧
     ((∃ e ∈ w.claims m, e.1 = .package) → u = (w.clockEnd.focus m).noteClaims m) ∧
      (∀ c k, m = .strand c k → u.core = c ∧ u.strand = k) ∧ (∀ p, m = .sequencer p → u.port = p)) ∧
    (∀ c k g x, m = .strand c k → u.pkg.st ≠ .failed → u.myGroup = some (g, x) → x.contain = none →
      (x.st = .running ∨ x.st = .saving) → u.me.watchHit = false →
      (u.me.micro.stage = 0 → u.me.stops = false) →
      let ready := (u.me.life = .running ∧ u.copyFaultOwed = false) ∨ u.me.life = .handler
      let fresh := ready ∧ u.breakpointHere = false ∧ u.me.micro.instr = none
      (∀ w l i, fresh → u.iLeaf x.ctx u.me.pc.toNat (fun l => l.ex) = some l → l.1.ex = true →
        let pa := l.1.pa + u.me.pc.toNat % l.1.size
        u.dataMarked x.ctx l.2 pa = false → u.bytesAt l.2 (addrs pa 4) = bytes32 w → isTwoWord w = false →
        decodeWords w none = .ok i → step s = exec i u) ∧
      (∀ i, fresh → u.fetchMine = .instr i → step s = exec i u) ∧
      (∀ i, ready → u.breakpointHere = false → u.me.micro.instr = some i → step s = exec i u) ∧
      (∀ w, fresh → u.fetchMine = .illegal w → isExtWord w = false → step s = exec .illegalEncoding u) ∧
      (∀ b a, fresh → u.fetchMine = .fault b a → step s = exec .fetchFault u) ∧
      (u.me.life = .waiting → u.me.stops = false → u.copyFaultOwed = false → step s = exec (.strandWaitSatisfied c k) u) ∧
      (u.me.life = .done ∨ u.me.life = .free ∨ u.me.life = .saved → step s = .next u)) ∧
    (∀ c k, m = .strand c k → u.me.micro.stage = 0 → u.me.stops = true → u.me.life ≠ .halted → step s = .next u) ∧
    (∀ c k, m = .ahead c k → step s = .next (if u.strandsRun c then u.goAhead else u)) ∧
    (∀ c n, m = .behind c n → step s = .next (if u.strandsRun c then u.performBehind c n else u)) ∧
    (∀ p w i, m = .sequencer p → u.pkg.st ≠ .failed → (u.portAt p).seq.st = .running → (u.portAt p).seq.word = some w →
      decodeSq w = .ok i → step s = exec i u) ∧
    (∀ i, m = .event i → encode i = .event → i.wf = true → u.pkg.st ≠ .failed → step s = exec i u) ∧
    (∀ c k, m = .strand c k → u.pkg.st = .failed → step s = .next u)

/-- The all-zero word is permanently illegal, and so is every word whose `OP` is 0x00, whatever its other bits and
whatever follows it (R28): it decodes to no instruction, and where it is fetched it traps ILLEGAL. -/
def Obligations.ZeroOpcodesAreIllegal : Prop :=
  ∀ (w : BitVec 32), (w = 0 ∨ w.extractLsb' 18 7 = 0) →
    (∀ next, ∃ r, decodeWords w next = .bad r) ∧
    (∀ (s : State) (ctx : Nat) (pc : BitVec 48), s.fetchWord ctx pc.toNat = .ok w → s.fetchAt ctx pc = .illegal w) ∧
    (∀ s : State, s.fetchMine = .illegal w → s.me.outs = 0 →
      (s.strandInstr = some .illegalEncoding → exec .illegalEncoding s = .next (s.takeTrap 0x01 (w.setWidth 64) 0)) ∧
      (s.strandInstr = some .fetchFault → exec .fetchFault s = .next (s.takeTrap 0x01 (w.setWidth 64) 0)))

/-- Words written out from the spec's examples decode to what they stand for, and reserved encodings are refused
(R25, R27, R46, R379). -/
def Obligations.WordsDecodeToTheirInstructions : Prop :=
  let p : Pre := { wp := false, wn := false, sp := false, sn := false, sy := false, g := 0 }
  decodeWords 0x00050001 none = .ok (.bprep p 2 1) ∧ decodeWords 0x00188800 none = .ok (.call p 1 1 0) ∧
  decodeWords 0x01EC1041 none = .ok (.rlcNext p 1 1) ∧ decodeWords 0x01ED4542 none = .ok (.rlcTest p 20 21) ∧
  decodeWords 0x009C5011 none = .ok (.movi p 5 17) ∧ decodeWords 0x008C61A0 none = .ok (.slli p 6 6 32) ∧
  decodeWords 0x006830C2 none = .ok (.or p 3 3 2) ∧ decodeWords 0x01F01141 none = .ok (.lnkStep p 1 5) ∧
  decodeWords 0x002C0148 none = .ok (.trap p 5) ∧
  decodeSq 0x1870000000000400 = .ok (.sqPut 0 1 1 1 1024) ∧ decodeSq 0x1C70004000100400 = .ok (.sqPutsig 0 1 1 1 0x4000 1 1024) ∧
  decodeSq 0x2000000000000001 = .ok (.sqWait 1) ∧
  decodeWords 0xF0000000 none = .bad .extensionFirst ∧ (decodeWords 0x01EC0044 none).instr? = none ∧
  (decodeWords 0x01EC5143 none).instr? = none ∧ decodeSq 0 = .bad .unassigned ∧ (decodeSq 0x0400000000000001).instr? = none

/-- Every well-formed instruction that has a word is read back from its bytes, whatever follows them, and whatever the
decoder reads is well formed and has the word that was read. -/
def Obligations.DecodingReadsBackEveryEncoding : Prop :=
  (∀ (i : Instr) (rest : List Byte), i.wf = true →
    (∀ w, encode i = .one w → decode (bytes32 w ++ rest) = (.ok i, rest)) ∧
    (∀ w x, encode i = .two w x → decode (bytes32 w ++ bytes32 x ++ rest) = (.ok i, rest)) ∧
    (∀ w, encode i = .sq w → decodeSq w = .ok i)) ∧
  (∀ (w : BitVec 32) (next : Option (BitVec 32)) (i : Instr), decodeWords w next = .ok i → i.wf = true ∧
    (encode i = .one w ∨ ∃ x, next = some x ∧ encode i = .two w x))

/-- The memory of the package keeps its canonical form through every step: rising addresses, nothing listed that
reads as what is not listed. The canonical form, and that an unlisted byte reads 0, are the model's representation
and choice (log entry 2). -/
def Obligations.EveryStepKeepsTheMemoryCanonical : Prop :=
  ∀ (s u : State), s.canonical = true → step s = .next u → u.canonical = true

/-- What RESET leaves (R19, R20, R82, R362): the package is in RESET with every on-package table empty, every strand
FREE, every port DARK at the register values that R362 gives, and the memory in its canonical form. CFG_GEN 0 in a
new flash and empty memories are the model's choices (log entries 2 and 3). -/
def Obligations.ResetState : Prop :=
  let s := State.reset
  s.pkg.st = .reset ∧ s.pkg.failCause = 0 ∧ s.pkg.cap = 3600 ∧ s.flash.cfgGen = 0 ∧ s.cores = [] ∧ s.groups = [] ∧ s.queues = [] ∧
  s.contexts = [] ∧ s.launches = [] ∧ s.waitTable = [] ∧ s.worldKeys = [] ∧ s.jbuf = [] ∧ s.reports = [] ∧ s.outbox = [] ∧
  s.attest = {} ∧ s.ptp = {} ∧ s.pool = {} ∧ s.hbm = {} ∧ s.canonical = true ∧ (∀ c k, (s.strandAt c k).life = .free) ∧
  (∀ p, (s.portAt p).st = .dark ∧ (s.portAt p).retry = 6 ∧ (s.portAt p).bmax = 12000 ∧ (s.portAt p).pworld = 0 ∧ (s.portAt p).rxlen = 0 ∧
    (s.portAt p).seq.st = .idle) ∧ (∀ q, (s.queueAt q).st = .disabled) ∧ (∀ n, (s.ctxAt n).st = .none)
end

