-- ==== Sys2Proof/Laws/Exec.lean ====
section
/-! SUPPORT. The meaning of each instruction, by its name (Machine/Dispatch.lean). -/

namespace Sys2Proof.Machine

theorem exec_bprep (pre : Pre) (b : BitVec 3) (o : BitVec 15) (σ : State) : exec (.bprep pre b o) σ = execBprep pre b o σ := rfl
theorem exec_bprepi (pre : Pre) (b a : BitVec 6) (σ : State) : exec (.bprepi pre b a) σ = execBprepi pre b a σ := rfl
theorem exec_bprepiMeta (pre : Pre) (b a : BitVec 6) (σ : State) : exec (.bprepiMeta pre b a) σ = execBprepiMeta pre b a σ := rfl
theorem exec_bget (pre : Pre) (d b : BitVec 6) (σ : State) : exec (.bget pre d b) σ = execBget pre d b σ := rfl
theorem exec_bgetMeta (pre : Pre) (d b : BitVec 6) (σ : State) : exec (.bgetMeta pre d b) σ = execBgetMeta pre d b σ := rfl
theorem exec_binv (pre : Pre) (b : BitVec 3) (σ : State) : exec (.binv pre b) σ = execBinv pre b σ := rfl
theorem exec_jmp (pre : Pre) (b : BitVec 3) (p : BitVec 4) (e : BitVec 1) (σ : State) : exec (.jmp pre b p e) σ = execJmp pre b p e σ := rfl
theorem exec_call (pre : Pre) (b : BitVec 3) (p : BitVec 4) (e : BitVec 1) (σ : State) : exec (.call pre b p e) σ = execCall pre b p e σ := rfl
theorem exec_lsetupReg (pre : Pre) (r : BitVec 1) (e : BitVec 2) (a : BitVec 6) (σ : State) : exec (.lsetupReg pre r e a) σ = execLsetupReg pre r e a σ := rfl
theorem exec_lsetupImm (pre : Pre) (r : BitVec 1) (e : BitVec 2) (i : BitVec 12) (σ : State) : exec (.lsetupImm pre r e i) σ = execLsetupImm pre r e i σ := rfl
theorem exec_lclose (pre : Pre) (σ : State) : exec (.lclose pre) σ = execLclose pre σ := rfl
theorem exec_lbreak (pre : Pre) (p : BitVec 4) (e : BitVec 1) (σ : State) : exec (.lbreak pre p e) σ = execLbreak pre p e σ := rfl
theorem exec_nop (pre : Pre) (σ : State) : exec (.nop pre) σ = execNop pre σ := rfl
theorem exec_ifence (pre : Pre) (σ : State) : exec (.ifence pre) σ = execIfence pre σ := rfl
theorem exec_sdone (pre : Pre) (σ : State) : exec (.sdone pre) σ = execSdone pre σ := rfl
theorem exec_trap (pre : Pre) (n : BitVec 6) (σ : State) : exec (.trap pre n) σ = execTrap pre n σ := rfl
theorem exec_brk (pre : Pre) (n : BitVec 6) (σ : State) : exec (.brk pre n) σ = execBrk pre n σ := rfl
theorem exec_eret (pre : Pre) (σ : State) : exec (.eret pre) σ = execEret pre σ := rfl
theorem exec_sysrd (pre : Pre) (d r : BitVec 6) (σ : State) : exec (.sysrd pre d r) σ = execSysrd pre d r σ := rfl
theorem exec_syswr (pre : Pre) (r a : BitVec 6) (σ : State) : exec (.syswr pre r a) σ = execSyswr pre r a σ := rfl
theorem exec_pcrd (pre : Pre) (d : BitVec 6) (c : BitVec 1) (i : BitVec 4) (σ : State) : exec (.pcrd pre d c i) σ = execPcrd pre d c i σ := rfl
theorem exec_yield (pre : Pre) (d : BitVec 6) (σ : State) : exec (.yield pre d) σ = execYield pre d σ := rfl
theorem exec_add (pre : Pre) (d a b : BitVec 6) (σ : State) : exec (.add pre d a b) σ = execAdd pre d a b σ := rfl
theorem exec_sub (pre : Pre) (d a b : BitVec 6) (σ : State) : exec (.sub pre d a b) σ = execSub pre d a b σ := rfl
theorem exec_mul (pre : Pre) (d a b : BitVec 6) (σ : State) : exec (.mul pre d a b) σ = execMul pre d a b σ := rfl
theorem exec_mulh (pre : Pre) (d a b : BitVec 6) (σ : State) : exec (.mulh pre d a b) σ = execMulh pre d a b σ := rfl
theorem exec_mulhu (pre : Pre) (d a b : BitVec 6) (σ : State) : exec (.mulhu pre d a b) σ = execMulhu pre d a b σ := rfl
theorem exec_min (pre : Pre) (d a b : BitVec 6) (σ : State) : exec (.min pre d a b) σ = execMin pre d a b σ := rfl
theorem exec_max (pre : Pre) (d a b : BitVec 6) (σ : State) : exec (.max pre d a b) σ = execMax pre d a b σ := rfl
theorem exec_minu (pre : Pre) (d a b : BitVec 6) (σ : State) : exec (.minu pre d a b) σ = execMinu pre d a b σ := rfl
theorem exec_maxu (pre : Pre) (d a b : BitVec 6) (σ : State) : exec (.maxu pre d a b) σ = execMaxu pre d a b σ := rfl
theorem exec_and (pre : Pre) (d a b : BitVec 6) (σ : State) : exec (.and pre d a b) σ = execAnd pre d a b σ := rfl
theorem exec_or (pre : Pre) (d a b : BitVec 6) (σ : State) : exec (.or pre d a b) σ = execOr pre d a b σ := rfl
theorem exec_xor (pre : Pre) (d a b : BitVec 6) (σ : State) : exec (.xor pre d a b) σ = execXor pre d a b σ := rfl
theorem exec_andn (pre : Pre) (d a b : BitVec 6) (σ : State) : exec (.andn pre d a b) σ = execAndn pre d a b σ := rfl
theorem exec_orn (pre : Pre) (d a b : BitVec 6) (σ : State) : exec (.orn pre d a b) σ = execOrn pre d a b σ := rfl
theorem exec_sll (pre : Pre) (d a b : BitVec 6) (σ : State) : exec (.sll pre d a b) σ = execSll pre d a b σ := rfl
theorem exec_srl (pre : Pre) (d a b : BitVec 6) (σ : State) : exec (.srl pre d a b) σ = execSrl pre d a b σ := rfl
theorem exec_sra (pre : Pre) (d a b : BitVec 6) (σ : State) : exec (.sra pre d a b) σ = execSra pre d a b σ := rfl
theorem exec_rotr (pre : Pre) (d a b : BitVec 6) (σ : State) : exec (.rotr pre d a b) σ = execRotr pre d a b σ := rfl
theorem exec_addi (pre : Pre) (d a i : BitVec 6) (σ : State) : exec (.addi pre d a i) σ = execAddi pre d a i σ := rfl
theorem exec_slli (pre : Pre) (d a i : BitVec 6) (σ : State) : exec (.slli pre d a i) σ = execSlli pre d a i σ := rfl
theorem exec_srli (pre : Pre) (d a i : BitVec 6) (σ : State) : exec (.srli pre d a i) σ = execSrli pre d a i σ := rfl
theorem exec_srai (pre : Pre) (d a i : BitVec 6) (σ : State) : exec (.srai pre d a i) σ = execSrai pre d a i σ := rfl
theorem exec_clz (pre : Pre) (d a : BitVec 6) (σ : State) : exec (.clz pre d a) σ = execClz pre d a σ := rfl
theorem exec_ctz (pre : Pre) (d a : BitVec 6) (σ : State) : exec (.ctz pre d a) σ = execCtz pre d a σ := rfl
theorem exec_popc (pre : Pre) (d a : BitVec 6) (σ : State) : exec (.popc pre d a) σ = execPopc pre d a σ := rfl
theorem exec_sextB (pre : Pre) (d a : BitVec 6) (σ : State) : exec (.sextB pre d a) σ = execSextB pre d a σ := rfl
theorem exec_sextH (pre : Pre) (d a : BitVec 6) (σ : State) : exec (.sextH pre d a) σ = execSextH pre d a σ := rfl
theorem exec_sextW (pre : Pre) (d a : BitVec 6) (σ : State) : exec (.sextW pre d a) σ = execSextW pre d a σ := rfl
theorem exec_zextB (pre : Pre) (d a : BitVec 6) (σ : State) : exec (.zextB pre d a) σ = execZextB pre d a σ := rfl
theorem exec_zextH (pre : Pre) (d a : BitVec 6) (σ : State) : exec (.zextH pre d a) σ = execZextH pre d a σ := rfl
theorem exec_zextW (pre : Pre) (d a : BitVec 6) (σ : State) : exec (.zextW pre d a) σ = execZextW pre d a σ := rfl
theorem exec_pget (pre : Pre) (d : BitVec 6) (σ : State) : exec (.pget pre d) σ = execPget pre d σ := rfl
theorem exec_pset (pre : Pre) (a : BitVec 6) (σ : State) : exec (.pset pre a) σ = execPset pre a σ := rfl
theorem exec_movi (pre : Pre) (d : BitVec 6) (i : BitVec 12) (σ : State) : exec (.movi pre d i) σ = execMovi pre d i σ := rfl
theorem exec_movhi (pre : Pre) (d : BitVec 6) (i : BitVec 12) (σ : State) : exec (.movhi pre d i) σ = execMovhi pre d i σ := rfl
theorem exec_cmp (pre : Pre) (c : BitVec 2) (p : BitVec 4) (a b : BitVec 6) (σ : State) : exec (.cmp pre c p a b) σ = execCmp pre c p a b σ := rfl
theorem exec_cmpUnsignedTest (pre : Pre) (c : BitVec 2) (p : BitVec 4) (a b : BitVec 6) (σ : State) : exec (.cmpUnsignedTest pre c p a b) σ = execCmpUnsignedTest pre c p a b σ := rfl
theorem exec_cmpi (pre : Pre) (c : BitVec 2) (p : BitVec 4) (a i : BitVec 6) (σ : State) : exec (.cmpi pre c p a i) σ = execCmpi pre c p a i σ := rfl
theorem exec_cmpiUnsignedTest (pre : Pre) (c : BitVec 2) (p : BitVec 4) (a i : BitVec 6) (σ : State) : exec (.cmpiUnsignedTest pre c p a i) σ = execCmpiUnsignedTest pre c p a i σ := rfl
theorem exec_pand (pre : Pre) (p : BitVec 4) (a b : BitVec 6) (σ : State) : exec (.pand pre p a b) σ = execPand pre p a b σ := rfl
theorem exec_por (pre : Pre) (p : BitVec 4) (a b : BitVec 6) (σ : State) : exec (.por pre p a b) σ = execPor pre p a b σ := rfl
theorem exec_pxor (pre : Pre) (p : BitVec 4) (a b : BitVec 6) (σ : State) : exec (.pxor pre p a b) σ = execPxor pre p a b σ := rfl
theorem exec_pandn (pre : Pre) (p : BitVec 4) (a b : BitVec 6) (σ : State) : exec (.pandn pre p a b) σ = execPandn pre p a b σ := rfl
theorem exec_lea (pre : Pre) (d b x : BitVec 6) (sc : BitVec 2) (disp : BitVec 20) (σ : State) : exec (.lea pre d b x sc disp) σ = execLea pre d b x sc disp σ := rfl
theorem exec_div (pre : Pre) (d a b : BitVec 6) (σ : State) : exec (.div pre d a b) σ = execDiv pre d a b σ := rfl
theorem exec_divu (pre : Pre) (d a b : BitVec 6) (σ : State) : exec (.divu pre d a b) σ = execDivu pre d a b σ := rfl
theorem exec_rem (pre : Pre) (d a b : BitVec 6) (σ : State) : exec (.rem pre d a b) σ = execRem pre d a b σ := rfl
theorem exec_remu (pre : Pre) (d a b : BitVec 6) (σ : State) : exec (.remu pre d a b) σ = execRemu pre d a b σ := rfl
theorem exec_sel (pre : Pre) (d a b : BitVec 6) (p : BitVec 4) (e : BitVec 1) (σ : State) : exec (.sel pre d a b p e) σ = execSel pre d a b p e σ := rfl
theorem exec_bfx (pre : Pre) (d a pos wm : BitVec 6) (σ : State) : exec (.bfx pre d a pos wm) σ = execBfx pre d a pos wm σ := rfl
theorem exec_bfxS (pre : Pre) (d a pos wm : BitVec 6) (σ : State) : exec (.bfxS pre d a pos wm) σ = execBfxS pre d a pos wm σ := rfl
theorem exec_bfi (pre : Pre) (d a b pos wm : BitVec 6) (σ : State) : exec (.bfi pre d a b pos wm) σ = execBfi pre d a b pos wm σ := rfl
theorem exec_ldlit (pre : Pre) (d : BitVec 6) (i : BitVec 12) (σ : State) : exec (.ldlit pre d i) σ = execLdlit pre d i σ := rfl
theorem exec_vadd (pre : Pre) (d a b : BitVec 6) (σ : State) : exec (.vadd pre d a b) σ = execVadd pre d a b σ := rfl
theorem exec_vsub (pre : Pre) (d a b : BitVec 6) (σ : State) : exec (.vsub pre d a b) σ = execVsub pre d a b σ := rfl
theorem exec_vmul (pre : Pre) (d a b : BitVec 6) (σ : State) : exec (.vmul pre d a b) σ = execVmul pre d a b σ := rfl
theorem exec_vfma (pre : Pre) (d a b : BitVec 6) (σ : State) : exec (.vfma pre d a b) σ = execVfma pre d a b σ := rfl
theorem exec_vfms (pre : Pre) (d a b : BitVec 6) (σ : State) : exec (.vfms pre d a b) σ = execVfms pre d a b σ := rfl
theorem exec_vfnma (pre : Pre) (d a b : BitVec 6) (σ : State) : exec (.vfnma pre d a b) σ = execVfnma pre d a b σ := rfl
theorem exec_vmin (pre : Pre) (d a b : BitVec 6) (σ : State) : exec (.vmin pre d a b) σ = execVmin pre d a b σ := rfl
theorem exec_vmax (pre : Pre) (d a b : BitVec 6) (σ : State) : exec (.vmax pre d a b) σ = execVmax pre d a b σ := rfl
theorem exec_vand (pre : Pre) (d a b : BitVec 6) (σ : State) : exec (.vand pre d a b) σ = execVand pre d a b σ := rfl
theorem exec_vor (pre : Pre) (d a b : BitVec 6) (σ : State) : exec (.vor pre d a b) σ = execVor pre d a b σ := rfl
theorem exec_vxor (pre : Pre) (d a b : BitVec 6) (σ : State) : exec (.vxor pre d a b) σ = execVxor pre d a b σ := rfl
theorem exec_vsll (pre : Pre) (d a b : BitVec 6) (σ : State) : exec (.vsll pre d a b) σ = execVsll pre d a b σ := rfl
theorem exec_vsrl (pre : Pre) (d a b : BitVec 6) (σ : State) : exec (.vsrl pre d a b) σ = execVsrl pre d a b σ := rfl
theorem exec_vsra (pre : Pre) (d a b : BitVec 6) (σ : State) : exec (.vsra pre d a b) σ = execVsra pre d a b σ := rfl
theorem exec_vcmp (pre : Pre) (c : BitVec 2) (m : BitVec 3) (a b : BitVec 6) (σ : State) : exec (.vcmp pre c m a b) σ = execVcmp pre c m a b σ := rfl
theorem exec_vsel (pre : Pre) (d a b : BitVec 6) (m : BitVec 3) (σ : State) : exec (.vsel pre d a b m) σ = execVsel pre d a b m σ := rfl
theorem exec_vcvtTo (pre : Pre) (d a : BitVec 6) (f : BitVec 4) (σ : State) : exec (.vcvtTo pre d a f) σ = execVcvtTo pre d a f σ := rfl
theorem exec_vcvtFrom (pre : Pre) (d a : BitVec 6) (f : BitVec 4) (σ : State) : exec (.vcvtFrom pre d a f) σ = execVcvtFrom pre d a f σ := rfl
theorem exec_vpack (pre : Pre) (d a : BitVec 6) (n : BitVec 2) (σ : State) : exec (.vpack pre d a n) σ = execVpack pre d a n σ := rfl
theorem exec_vunpack (pre : Pre) (d a : BitVec 6) (n : BitVec 2) (σ : State) : exec (.vunpack pre d a n) σ = execVunpack pre d a n σ := rfl
theorem exec_vmov (pre : Pre) (d a : BitVec 6) (σ : State) : exec (.vmov pre d a) σ = execVmov pre d a σ := rfl
theorem exec_vsplat (pre : Pre) (d a : BitVec 6) (σ : State) : exec (.vsplat pre d a) σ = execVsplat pre d a σ := rfl
theorem exec_vext (pre : Pre) (d a b : BitVec 6) (σ : State) : exec (.vext pre d a b) σ = execVext pre d a b σ := rfl
theorem exec_vins (pre : Pre) (d a b : BitVec 6) (σ : State) : exec (.vins pre d a b) σ = execVins pre d a b σ := rfl
theorem exec_vperm (pre : Pre) (d a b : BitVec 6) (σ : State) : exec (.vperm pre d a b) σ = execVperm pre d a b σ := rfl
theorem exec_vtrn (pre : Pre) (d a : BitVec 6) (n : BitVec 2) (σ : State) : exec (.vtrn pre d a n) σ = execVtrn pre d a n σ := rfl
theorem exec_vredSum (pre : Pre) (d a : BitVec 6) (σ : State) : exec (.vredSum pre d a) σ = execVredSum pre d a σ := rfl
theorem exec_vredMax (pre : Pre) (d a : BitVec 6) (σ : State) : exec (.vredMax pre d a) σ = execVredMax pre d a σ := rfl
theorem exec_vredMin (pre : Pre) (d a : BitVec 6) (σ : State) : exec (.vredMin pre d a) σ = execVredMin pre d a σ := rfl
theorem exec_vredAnd (pre : Pre) (d a : BitVec 6) (σ : State) : exec (.vredAnd pre d a) σ = execVredAnd pre d a σ := rfl
theorem exec_vredOr (pre : Pre) (d a : BitVec 6) (σ : State) : exec (.vredOr pre d a) σ = execVredOr pre d a σ := rfl
theorem exec_vscanSum (pre : Pre) (d a : BitVec 6) (σ : State) : exec (.vscanSum pre d a) σ = execVscanSum pre d a σ := rfl
theorem exec_vscanMax (pre : Pre) (d a : BitVec 6) (σ : State) : exec (.vscanMax pre d a) σ = execVscanMax pre d a σ := rfl
theorem exec_vscanMin (pre : Pre) (d a : BitVec 6) (σ : State) : exec (.vscanMin pre d a) σ = execVscanMin pre d a σ := rfl
theorem exec_vscanAnd (pre : Pre) (d a : BitVec 6) (σ : State) : exec (.vscanAnd pre d a) σ = execVscanAnd pre d a σ := rfl
theorem exec_vscanOr (pre : Pre) (d a : BitVec 6) (σ : State) : exec (.vscanOr pre d a) σ = execVscanOr pre d a σ := rfl
theorem exec_vfnExp2 (pre : Pre) (d a : BitVec 6) (σ : State) : exec (.vfnExp2 pre d a) σ = execVfnExp2 pre d a σ := rfl
theorem exec_vfnLog2 (pre : Pre) (d a : BitVec 6) (σ : State) : exec (.vfnLog2 pre d a) σ = execVfnLog2 pre d a σ := rfl
theorem exec_vfnRcp (pre : Pre) (d a : BitVec 6) (σ : State) : exec (.vfnRcp pre d a) σ = execVfnRcp pre d a σ := rfl
theorem exec_vfnRsqrt (pre : Pre) (d a : BitVec 6) (σ : State) : exec (.vfnRsqrt pre d a) σ = execVfnRsqrt pre d a σ := rfl
theorem exec_vfnSqrt (pre : Pre) (d a : BitVec 6) (σ : State) : exec (.vfnSqrt pre d a) σ = execVfnSqrt pre d a σ := rfl
theorem exec_mand (pre : Pre) (d a : BitVec 6) (b : BitVec 3) (σ : State) : exec (.mand pre d a b) σ = execMand pre d a b σ := rfl
theorem exec_mor (pre : Pre) (d a : BitVec 6) (b : BitVec 3) (σ : State) : exec (.mor pre d a b) σ = execMor pre d a b σ := rfl
theorem exec_mnot (pre : Pre) (d a : BitVec 6) (σ : State) : exec (.mnot pre d a) σ = execMnot pre d a σ := rfl
theorem exec_mpopc (pre : Pre) (d a : BitVec 6) (σ : State) : exec (.mpopc pre d a) σ = execMpopc pre d a σ := rfl
theorem exec_mfirst (pre : Pre) (d a : BitVec 6) (σ : State) : exec (.mfirst pre d a) σ = execMfirst pre d a σ := rfl
theorem exec_vcfg (pre : Pre) (d a : BitVec 6) (s : BitVec 5) (σ : State) : exec (.vcfg pre d a s) σ = execVcfg pre d a s σ := rfl
theorem exec_vldSOneWord (pre : Pre) (d b : BitVec 6) (e : BitVec 4) (σ : State) : exec (.vldSOneWord pre d b e) σ = execVldSOneWord pre d b e σ := rfl
theorem exec_vldSTwoWord (pre : Pre) (d b x : BitVec 6) (sc : BitVec 2) (disp : BitVec 20) (σ : State) : exec (.vldSTwoWord pre d b x sc disp) σ = execVldSTwoWord pre d b x sc disp σ := rfl
theorem exec_vstSOneWord (pre : Pre) (d b : BitVec 6) (e : BitVec 4) (σ : State) : exec (.vstSOneWord pre d b e) σ = execVstSOneWord pre d b e σ := rfl
theorem exec_vstSTwoWord (pre : Pre) (d b x : BitVec 6) (sc : BitVec 2) (disp : BitVec 20) (σ : State) : exec (.vstSTwoWord pre d b x sc disp) σ = execVstSTwoWord pre d b x sc disp σ := rfl
theorem exec_vgathS (pre : Pre) (d a b : BitVec 6) (σ : State) : exec (.vgathS pre d a b) σ = execVgathS pre d a b σ := rfl
theorem exec_vscatS (pre : Pre) (d a b : BitVec 6) (σ : State) : exec (.vscatS pre d a b) σ = execVscatS pre d a b σ := rfl
theorem exec_fpush (pre : Pre) (a : BitVec 6) (σ : State) : exec (.fpush pre a) σ = execFpush pre a σ := rfl
theorem exec_tstat (pre : Pre) (d : BitVec 6) (σ : State) : exec (.tstat pre d) σ = execTstat pre d σ := rfl
theorem exec_tstatClr (pre : Pre) (d a : BitVec 6) (σ : State) : exec (.tstatClr pre d a) σ = execTstatClr pre d a σ := rfl
theorem exec_tcfg (pre : Pre) (d a : BitVec 6) (ws wc ss sc : BitVec 4) (σ : State) : exec (.tcfg pre d a ws wc ss sc) σ = execTcfg pre d a ws wc ss sc σ := rfl
theorem exec_wload (pre : Pre) (d a b : BitVec 6) (ws wc ss sc : BitVec 4) (st : BitVec 10) (σ : State) : exec (.wload pre d a b ws wc ss sc st) σ = execWload pre d a b ws wc ss sc st σ := rfl
theorem exec_wswap (pre : Pre) (d : BitVec 6) (ws wc ss sc : BitVec 4) (σ : State) : exec (.wswap pre d ws wc ss sc) σ = execWswap pre d ws wc ss sc σ := rfl
theorem exec_tmma (pre : Pre) (d a b : BitVec 6) (ws wc ss sc : BitVec 4) (st : BitVec 10) (σ : State) : exec (.tmma pre d a b ws wc ss sc st) σ = execTmma pre d a b ws wc ss sc st σ := rfl
theorem exec_tmmaZ (pre : Pre) (d a b : BitVec 6) (ws wc ss sc : BitVec 4) (st : BitVec 10) (σ : State) : exec (.tmmaZ pre d a b ws wc ss sc st) σ = execTmmaZ pre d a b ws wc ss sc st σ := rfl
theorem exec_tzero (pre : Pre) (d : BitVec 6) (ws wc ss sc : BitVec 4) (σ : State) : exec (.tzero pre d ws wc ss sc) σ = execTzero pre d ws wc ss sc σ := rfl
theorem exec_tnorm (pre : Pre) (d : BitVec 6) (ws wc ss sc : BitVec 4) (σ : State) : exec (.tnorm pre d ws wc ss sc) σ = execTnorm pre d ws wc ss sc σ := rfl
theorem exec_tdrain (pre : Pre) (d a : BitVec 6) (ws wc ss sc : BitVec 4) (st : BitVec 10) (z : BitVec 1) (σ : State) : exec (.tdrain pre d a ws wc ss sc st z) σ = execTdrain pre d a ws wc ss sc st z σ := rfl
theorem exec_ldSOneWord (pre : Pre) (d b : BitVec 6) (e : BitVec 4) (σ : State) : exec (.ldSOneWord pre d b e) σ = execLdSOneWord pre d b e σ := rfl
theorem exec_ldSTwoWord (pre : Pre) (d b : BitVec 6) (sz : BitVec 2) (x : BitVec 6) (sc : BitVec 2) (disp : BitVec 20) (σ : State) : exec (.ldSTwoWord pre d b sz x sc disp) σ = execLdSTwoWord pre d b sz x sc disp σ := rfl
theorem exec_stSOneWord (pre : Pre) (d b : BitVec 6) (e : BitVec 4) (σ : State) : exec (.stSOneWord pre d b e) σ = execStSOneWord pre d b e σ := rfl
theorem exec_stSTwoWord (pre : Pre) (d b : BitVec 6) (sz : BitVec 2) (x : BitVec 6) (sc : BitVec 2) (disp : BitVec 20) (σ : State) : exec (.stSTwoWord pre d b sz x sc disp) σ = execStSTwoWord pre d b sz x sc disp σ := rfl
theorem exec_ldHOneWord (pre : Pre) (d b : BitVec 6) (r : BitVec 2) (e : BitVec 4) (σ : State) : exec (.ldHOneWord pre d b r e) σ = execLdHOneWord pre d b r e σ := rfl
theorem exec_ldHTwoWord (pre : Pre) (d b : BitVec 6) (r sz : BitVec 2) (x : BitVec 6) (sc : BitVec 2) (disp : BitVec 20) (σ : State) : exec (.ldHTwoWord pre d b r sz x sc disp) σ = execLdHTwoWord pre d b r sz x sc disp σ := rfl
theorem exec_stHOneWord (pre : Pre) (d b : BitVec 6) (r : BitVec 2) (e : BitVec 4) (σ : State) : exec (.stHOneWord pre d b r e) σ = execStHOneWord pre d b r e σ := rfl
theorem exec_stHTwoWord (pre : Pre) (d b : BitVec 6) (r sz : BitVec 2) (x : BitVec 6) (sc : BitVec 2) (disp : BitVec 20) (σ : State) : exec (.stHTwoWord pre d b r sz x sc disp) σ = execStHTwoWord pre d b r sz x sc disp σ := rfl
theorem exec_ldPOneWord (pre : Pre) (d : BitVec 6) (o : BitVec 2) (c : BitVec 4) (r : BitVec 2) (e : BitVec 4) (σ : State) : exec (.ldPOneWord pre d o c r e) σ = execLdPOneWord pre d o c r e σ := rfl
theorem exec_ldPTwoWord (pre : Pre) (d : BitVec 6) (o : BitVec 2) (c : BitVec 4) (r sz : BitVec 2) (x : BitVec 6) (sc : BitVec 2) (disp : BitVec 20) (σ : State) : exec (.ldPTwoWord pre d o c r sz x sc disp) σ = execLdPTwoWord pre d o c r sz x sc disp σ := rfl
theorem exec_stPOneWord (pre : Pre) (d : BitVec 6) (o : BitVec 2) (c : BitVec 4) (r : BitVec 2) (e : BitVec 4) (σ : State) : exec (.stPOneWord pre d o c r e) σ = execStPOneWord pre d o c r e σ := rfl
theorem exec_stPTwoWord (pre : Pre) (d : BitVec 6) (o : BitVec 2) (c : BitVec 4) (r sz : BitVec 2) (x : BitVec 6) (sc : BitVec 2) (disp : BitVec 20) (σ : State) : exec (.stPTwoWord pre d o c r sz x sc disp) σ = execStPTwoWord pre d o c r sz x sc disp σ := rfl
theorem exec_ldWOneWord (pre : Pre) (d b : BitVec 6) (r : BitVec 2) (e : BitVec 4) (σ : State) : exec (.ldWOneWord pre d b r e) σ = execLdWOneWord pre d b r e σ := rfl
theorem exec_ldWTwoWord (pre : Pre) (d b : BitVec 6) (r sz : BitVec 2) (x : BitVec 6) (sc : BitVec 2) (disp : BitVec 20) (σ : State) : exec (.ldWTwoWord pre d b r sz x sc disp) σ = execLdWTwoWord pre d b r sz x sc disp σ := rfl
theorem exec_amoS (pre : Pre) (d a b x : BitVec 6) (sc : BitVec 2) (op : BitVec 3) (ret sz : BitVec 1) (disp : BitVec 13) (σ : State) : exec (.amoS pre d a b x sc op ret sz disp) σ = execAmoS pre d a b x sc op ret sz disp σ := rfl
theorem exec_amoH (pre : Pre) (d a b x : BitVec 6) (sc : BitVec 2) (op : BitVec 3) (ret : BitVec 1) (ord : BitVec 2) (sz : BitVec 1) (disp : BitVec 13) (σ : State) : exec (.amoH pre d a b x sc op ret ord sz disp) σ = execAmoH pre d a b x sc op ret ord sz disp σ := rfl
theorem exec_amoP (pre : Pre) (d a b x : BitVec 6) (sc : BitVec 2) (op : BitVec 3) (ret : BitVec 1) (ord : BitVec 2) (sz : BitVec 1) (disp : BitVec 13) (σ : State) : exec (.amoP pre d a b x sc op ret ord sz disp) σ = execAmoP pre d a b x sc op ret ord sz disp σ := rfl
theorem exec_casH (pre : Pre) (d a b n x : BitVec 6) (ord : BitVec 2) (sz : BitVec 1) (disp : BitVec 13) (σ : State) : exec (.casH pre d a b n x ord sz disp) σ = execCasH pre d a b n x ord sz disp σ := rfl
theorem exec_casP (pre : Pre) (d a b n x : BitVec 6) (ord : BitVec 2) (sz : BitVec 1) (disp : BitVec 13) (σ : State) : exec (.casP pre d a b n x ord sz disp) σ = execCasP pre d a b n x ord sz disp σ := rfl
theorem exec_probeH (pre : Pre) (d b : BitVec 6) (k : BitVec 2) (x : BitVec 6) (sc : BitVec 2) (disp : BitVec 20) (σ : State) : exec (.probeH pre d b k x sc disp) σ = execProbeH pre d b k x sc disp σ := rfl
theorem exec_probeP (pre : Pre) (d : BitVec 6) (c : BitVec 4) (k : BitVec 2) (x : BitVec 6) (sc : BitVec 2) (disp : BitVec 20) (σ : State) : exec (.probeP pre d c k x sc disp) σ = execProbeP pre d c k x sc disp σ := rfl
theorem exec_pfP (pre : Pre) (d : BitVec 6) (c : BitVec 4) (r : BitVec 2) (x : BitVec 6) (sc : BitVec 2) (disp : BitVec 20) (σ : State) : exec (.pfP pre d c r x sc disp) σ = execPfP pre d c r x sc disp σ := rfl
theorem exec_capld (pre : Pre) (d a : BitVec 6) (i : BitVec 12) (σ : State) : exec (.capld pre d a i) σ = execCapld pre d a i σ := rfl
theorem exec_capderive (pre : Pre) (d a xo xl : BitVec 6) (rt : BitVec 4) (σ : State) : exec (.capderive pre d a xo xl rt) σ = execCapderive pre d a xo xl rt σ := rfl
theorem exec_capinfo (pre : Pre) (d a : BitVec 6) (s : BitVec 2) (σ : State) : exec (.capinfo pre d a s) σ = execCapinfo pre d a s σ := rfl
theorem exec_commit (pre : Pre) (σ : State) : exec (.commit pre) σ = execCommit pre σ := rfl
theorem exec_xfence (pre : Pre) (σ : State) : exec (.xfence pre) σ = execXfence pre σ := rfl
theorem exec_qfence (pre : Pre) (q : BitVec 3) (σ : State) : exec (.qfence pre q) σ = execQfence pre q σ := rfl
theorem exec_sfence (pre : Pre) (σ : State) : exec (.sfence pre) σ = execSfence pre σ := rfl
theorem exec_stCpaOneWord (pre : Pre) (d b : BitVec 6) (e : BitVec 4) (σ : State) : exec (.stCpaOneWord pre d b e) σ = execStCpaOneWord pre d b e σ := rfl
theorem exec_stCpaTwoWord (pre : Pre) (d b x : BitVec 6) (sc : BitVec 2) (disp : BitVec 20) (σ : State) : exec (.stCpaTwoWord pre d b x sc disp) σ = execStCpaTwoWord pre d b x sc disp σ := rfl
theorem exec_cdrain (pre : Pre) (c : BitVec 6) (σ : State) : exec (.cdrain pre c) σ = execCdrain pre c σ := rfl
theorem exec_ckick (pre : Pre) (c a : BitVec 6) (σ : State) : exec (.ckick pre c a) σ = execCkick pre c a σ := rfl
theorem exec_clink (pre : Pre) (c a : BitVec 6) (σ : State) : exec (.clink pre c a) σ = execClink pre c a σ := rfl
theorem exec_cresume (pre : Pre) (c a : BitVec 6) (σ : State) : exec (.cresume pre c a) σ = execCresume pre c a σ := rfl
theorem exec_cstat (pre : Pre) (d a : BitVec 6) (σ : State) : exec (.cstat pre d a) σ = execCstat pre d a σ := rfl
theorem exec_bar (pre : Pre) (j : BitVec 6) (σ : State) : exec (.bar pre j) σ = execBar pre j σ := rfl
theorem exec_barArr (pre : Pre) (d j : BitVec 6) (σ : State) : exec (.barArr pre d j) σ = execBarArr pre d j σ := rfl
theorem exec_barWait (pre : Pre) (a j : BitVec 6) (σ : State) : exec (.barWait pre a j) σ = execBarWait pre a j σ := rfl
theorem exec_barExp (pre : Pre) (a j : BitVec 6) (σ : State) : exec (.barExp pre a j) σ = execBarExp pre a j σ := rfl
theorem exec_tokpush (pre : Pre) (n : BitVec 6) (e : BitVec 2) (σ : State) : exec (.tokpush pre n e) σ = execTokpush pre n e σ := rfl
theorem exec_tokpop (pre : Pre) (n : BitVec 6) (e : BitVec 2) (σ : State) : exec (.tokpop pre n e) σ = execTokpop pre n e σ := rfl
theorem exec_ksig (pre : Pre) (k n : BitVec 6) (e : BitVec 2) (σ : State) : exec (.ksig pre k n e) σ = execKsig pre k n e σ := rfl
theorem exec_kwait (pre : Pre) (k n : BitVec 6) (e : BitVec 2) (σ : State) : exec (.kwait pre k n e) σ = execKwait pre k n e σ := rfl
theorem exec_cntWait (pre : Pre) (b a : BitVec 6) (σ : State) : exec (.cntWait pre b a) σ = execCntWait pre b a σ := rfl
theorem exec_cntAdd (pre : Pre) (b a : BitVec 6) (σ : State) : exec (.cntAdd pre b a) σ = execCntAdd pre b a σ := rfl
theorem exec_park (pre : Pre) (k a : BitVec 6) (σ : State) : exec (.park pre k a) σ = execPark pre k a σ := rfl
theorem exec_fset (pre : Pre) (b a : BitVec 6) (σ : State) : exec (.fset pre b a) σ = execFset pre b a σ := rfl
theorem exec_gid (pre : Pre) (d s : BitVec 6) (σ : State) : exec (.gid pre d s) σ = execGid pre d s σ := rfl
theorem exec_gsize (pre : Pre) (d s : BitVec 6) (σ : State) : exec (.gsize pre d s) σ = execGsize pre d s σ := rfl
theorem exec_gsplit (pre : Pre) (a : BitVec 6) (σ : State) : exec (.gsplit pre a) σ = execGsplit pre a σ := rfl
theorem exec_gyield (pre : Pre) (d : BitVec 6) (σ : State) : exec (.gyield pre d) σ = execGyield pre d σ := rfl
theorem exec_gexit (pre : Pre) (σ : State) : exec (.gexit pre) σ = execGexit pre σ := rfl
theorem exec_qpop (pre : Pre) (d a : BitVec 6) (σ : State) : exec (.qpop pre d a) σ = execQpop pre d a σ := rfl
theorem exec_qpush (pre : Pre) (b a : BitVec 6) (σ : State) : exec (.qpush pre b a) σ = execQpush pre b a σ := rfl
theorem exec_qtry (pre : Pre) (d a : BitVec 6) (σ : State) : exec (.qtry pre d a) σ = execQtry pre d a σ := rfl
theorem exec_qclose (pre : Pre) (b a : BitVec 6) (σ : State) : exec (.qclose pre b a) σ = execQclose pre b a σ := rfl
theorem exec_pid (pre : Pre) (d s : BitVec 6) (σ : State) : exec (.pid pre d s) σ = execPid pre d s σ := rfl
theorem exec_enq (pre : Pre) (p : BitVec 4) (a : BitVec 6) (σ : State) : exec (.enq pre p a) σ = execEnq pre p a σ := rfl
theorem exec_rlcRun (pre : Pre) (a : BitVec 6) (σ : State) : exec (.rlcRun pre a) σ = execRlcRun pre a σ := rfl
theorem exec_rlcNext (pre : Pre) (n k : BitVec 6) (σ : State) : exec (.rlcNext pre n k) σ = execRlcNext pre n k σ := rfl
theorem exec_rlcTest (pre : Pre) (d a : BitVec 6) (σ : State) : exec (.rlcTest pre d a) σ = execRlcTest pre d a σ := rfl
theorem exec_rlcStat (pre : Pre) (d s : BitVec 6) (σ : State) : exec (.rlcStat pre d s) σ = execRlcStat pre d s σ := rfl
theorem exec_rlcEnd (pre : Pre) (σ : State) : exec (.rlcEnd pre) σ = execRlcEnd pre σ := rfl
theorem exec_lnkStart (pre : Pre) (d a : BitVec 6) (σ : State) : exec (.lnkStart pre d a) σ = execLnkStart pre d a σ := rfl
theorem exec_lnkStep (pre : Pre) (n a : BitVec 6) (σ : State) : exec (.lnkStep pre n a) σ = execLnkStep pre n a σ := rfl
theorem exec_lnkWait (pre : Pre) (a : BitVec 6) (σ : State) : exec (.lnkWait pre a) σ = execLnkWait pre a σ := rfl
theorem exec_lnkStat (pre : Pre) (d a : BitVec 6) (σ : State) : exec (.lnkStat pre d a) σ = execLnkStat pre d a σ := rfl
theorem exec_sqNop (σ : State) : exec .sqNop σ = execSqNop σ := rfl
theorem exec_sqCfg (gi : BitVec 2) (f : BitVec 4) (v : BitVec 48) (σ : State) : exec (.sqCfg gi f v) σ = execSqCfg gi f v σ := rfl
theorem exec_sqLoop (k : BitVec 2) (n : BitVec 32) (σ : State) : exec (.sqLoop k n) σ = execSqLoop k n σ := rfl
theorem exec_sqEndl (k : BitVec 2) (m : BitVec 4) (σ : State) : exec (.sqEndl k m) σ = execSqEndl k m σ := rfl
theorem exec_sqGet (gl gr : BitVec 2) (bl br : BitVec 1) (n : BitVec 20) (σ : State) : exec (.sqGet gl gr bl br n) σ = execSqGet gl gr bl br n σ := rfl
theorem exec_sqPut (gl gr : BitVec 2) (bl br : BitVec 1) (n : BitVec 20) (σ : State) : exec (.sqPut gl gr bl br n) σ = execSqPut gl gr bl br n σ := rfl
theorem exec_sqPutsig (gl gr : BitVec 2) (bl br : BitVec 1) (o : BitVec 24) (dec : BitVec 4) (n : BitVec 20) (σ : State) : exec (.sqPutsig gl gr bl br o dec n) σ = execSqPutsig gl gr bl br o dec n σ := rfl
theorem exec_sqWait (n : BitVec 16) (σ : State) : exec (.sqWait n) σ = execSqWait n σ := rfl
theorem exec_sqPost (n : BitVec 16) (σ : State) : exec (.sqPost n) σ = execSqPost n σ := rfl
theorem exec_sqFence (σ : State) : exec .sqFence σ = execSqFence σ := rfl
theorem exec_sqEv (v : BitVec 16) (σ : State) : exec (.sqEv v) σ = execSqEv v σ := rfl
theorem exec_sqHalt (σ : State) : exec .sqHalt σ = execSqHalt σ := rfl
theorem exec_cntWaitReread (c k : Nat) (σ : State) : exec (.cntWaitReread c k) σ = execCntWaitReread c k σ := rfl
theorem exec_gsplitRendezvous (grp : Nat) (σ : State) : exec (.gsplitRendezvous grp) σ = execGsplitRendezvous grp σ := rfl
theorem exec_sequencerWaitEnd (port : Nat) (σ : State) : exec (.sequencerWaitEnd port) σ = execSequencerWaitEnd port σ := rfl
theorem exec_sequencerWordFetch (port : Nat) (σ : State) : exec (.sequencerWordFetch port) σ = execSequencerWordFetch port σ := rfl
theorem exec_strandWaitSatisfied (c k : Nat) (σ : State) : exec (.strandWaitSatisfied c k) σ = execStrandWaitSatisfied c k σ := rfl
theorem exec_syncRendezvous (c : Nat) (σ : State) : exec (.syncRendezvous c) σ = execSyncRendezvous c σ := rfl
theorem exec_frondGroupRestart (grp : Nat) (σ : State) : exec (.frondGroupRestart grp) σ = execFrondGroupRestart grp σ := rfl
theorem exec_launchEnd (launch : Nat) (σ : State) : exec (.launchEnd launch) σ = execLaunchEnd launch σ := rfl
theorem exec_btrPrefetchDone (c k b : Nat) (σ : State) : exec (.btrPrefetchDone c k b) σ = execBtrPrefetchDone c k b σ := rfl
theorem exec_copyFaultTaken (c k : Nat) (σ : State) : exec (.copyFaultTaken c k) σ = execCopyFaultTaken c k σ := rfl
theorem exec_instructionBreakpoint (c k : Nat) (σ : State) : exec (.instructionBreakpoint c k) σ = execInstructionBreakpoint c k σ := rfl
theorem exec_watchpoint (c k : Nat) (σ : State) : exec (.watchpoint c k) σ = execWatchpoint c k σ := rfl
theorem exec_strandStopTimeout (c k : Nat) (σ : State) : exec (.strandStopTimeout c k) σ = execStrandStopTimeout c k σ := rfl
theorem exec_vectorEntryStart (c first : Nat) (second : Option Nat) (σ : State) : exec (.vectorEntryStart c first second) σ = execVectorEntryStart c first second σ := rfl
theorem exec_vectorEntryComplete (c k : Nat) (σ : State) : exec (.vectorEntryComplete c k) σ = execVectorEntryComplete c k σ := rfl
theorem exec_matrixCommandStart (c : Nat) (σ : State) : exec (.matrixCommandStart c) σ = execMatrixCommandStart c σ := rfl
theorem exec_matrixCommandComplete (c n : Nat) (σ : State) : exec (.matrixCommandComplete c n) σ = execMatrixCommandComplete c n σ := rfl
theorem exec_matrixEntryRetire (c : Nat) (σ : State) : exec (.matrixEntryRetire c) σ = execMatrixEntryRetire c σ := rfl
theorem exec_copyQueueHandover (c : Nat) (σ : State) : exec (.copyQueueHandover c) σ = execCopyQueueHandover c σ := rfl
theorem exec_transferStart (c ch : Nat) (σ : State) : exec (.transferStart c ch) σ = execTransferStart c ch σ := rfl
theorem exec_transferElementLand (c ch n elem : Nat) (σ : State) : exec (.transferElementLand c ch n elem) σ = execTransferElementLand c ch n elem σ := rfl
theorem exec_transferSignal (c ch : Nat) (σ : State) : exec (.transferSignal c ch) σ = execTransferSignal c ch σ := rfl
theorem exec_chainEntryFetch (c ch : Nat) (σ : State) : exec (.chainEntryFetch c ch) σ = execChainEntryFetch c ch σ := rfl
theorem exec_chainEntryReady (c ch : Nat) (σ : State) : exec (.chainEntryReady c ch) σ = execChainEntryReady c ch σ := rfl
theorem exec_boundaryComplete (grp n : Nat) (σ : State) : exec (.boundaryComplete grp n) σ = execBoundaryComplete grp n σ := rfl
theorem exec_taskRetire (grp : Nat) (σ : State) : exec (.taskRetire grp) σ = execTaskRetire grp σ := rfl
theorem exec_groupPlace (launch : Nat) (cores : List Nat) (σ : State) : exec (.groupPlace launch cores) σ = execGroupPlace launch cores σ := rfl
theorem exec_groupLoaded (grp : Nat) (σ : State) : exec (.groupLoaded grp) σ = execGroupLoaded grp σ := rfl
theorem exec_preemptionRequest (grp : Nat) (rows : List (List Nat)) (σ : State) : exec (.preemptionRequest grp rows) σ = execPreemptionRequest grp rows σ := rfl
theorem exec_groupSaved (grp : Nat) (σ : State) : exec (.groupSaved grp) σ = execGroupSaved grp σ := rfl
theorem exec_groupResume (grp : Nat) (cores : List Nat) (σ : State) : exec (.groupResume grp cores) σ = execGroupResume grp cores σ := rfl
theorem exec_groupRetire (grp : Nat) (σ : State) : exec (.groupRetire grp) σ = execGroupRetire grp σ := rfl
theorem exec_tileScan (c item : Nat) (σ : State) : exec (.tileScan c item) σ = execTileScan c item σ := rfl
theorem exec_pieceClaim (c piece : Nat) (σ : State) : exec (.pieceClaim c piece) σ = execPieceClaim c piece σ := rfl
theorem exec_pieceReadback (grp rank : Nat) (σ : State) : exec (.pieceReadback grp rank) σ = execPieceReadback grp rank σ := rfl
theorem exec_frondRebalance (launch : Nat) (σ : State) : exec (.frondRebalance launch) σ = execFrondRebalance launch σ := rfl
theorem exec_feedItemEnter (launch : Nat) (σ : State) : exec (.feedItemEnter launch) σ = execFeedItemEnter launch σ := rfl
theorem exec_powerGood (σ : State) : exec .powerGood σ = execPowerGood σ := rfl
theorem exec_identityDerived (seed : BitVec 768) (σ : State) : exec (.identityDerived seed) σ = execIdentityDerived seed σ := rfl
theorem exec_pufFail (σ : State) : exec .pufFail σ = execPufFail σ := rfl
theorem exec_configurationLoaded (σ : State) : exec .configurationLoaded σ = execConfigurationLoaded σ := rfl
theorem exec_configurationFail (σ : State) : exec .configurationFail σ = execConfigurationFail σ := rfl
theorem exec_sessionTimeout (σ : State) : exec .sessionTimeout σ = execSessionTimeout σ := rfl
theorem exec_pkgCtlDrain (via : Via) (deadline : BitVec 32) (σ : State) : exec (.pkgCtlDrain via deadline) σ = execPkgCtlDrain via deadline σ := rfl
theorem exec_pkgCtlResume (via : Via) (σ : State) : exec (.pkgCtlResume via) σ = execPkgCtlResume via σ := rfl
theorem exec_pkgCtlReset (via : Via) (σ : State) : exec (.pkgCtlReset via) σ = execPkgCtlReset via σ := rfl
theorem exec_pkgPwrWrite (via : Via) (v : BitVec 64) (σ : State) : exec (.pkgPwrWrite via v) σ = execPkgPwrWrite via v σ := rfl
theorem exec_drainDeadline (σ : State) : exec .drainDeadline σ = execDrainDeadline σ := rfl
theorem exec_fatalPackageError (σ : State) : exec .fatalPackageError σ = execFatalPackageError σ := rfl
theorem exec_qlaunchWrite (via : Via) (q off : Nat) (bytes : List Byte) (σ : State) : exec (.qlaunchWrite via q off bytes) σ = execQlaunchWrite via q off bytes σ := rfl
theorem exec_qtailWrite (via : Via) (q : Nat) (v : BitVec 64) (σ : State) : exec (.qtailWrite via q v) σ = execQtailWrite via q v σ := rfl
theorem exec_qctlEnable (via : Via) (q : Nat) (σ : State) : exec (.qctlEnable via q) σ = execQctlEnable via q σ := rfl
theorem exec_qctlStop (via : Via) (q : Nat) (σ : State) : exec (.qctlStop via q) σ = execQctlStop via q σ := rfl
theorem exec_qctlDisable (via : Via) (q : Nat) (σ : State) : exec (.qctlDisable via q) σ = execQctlDisable via q σ := rfl
theorem exec_qctlResync (via : Via) (q : Nat) (σ : State) : exec (.qctlResync via q) σ = execQctlResync via q σ := rfl
theorem exec_qctlRekeyed (via : Via) (q : Nat) (σ : State) : exec (.qctlRekeyed via q) σ = execQctlRekeyed via q σ := rfl
theorem exec_qdescWrite (via : Via) (q word : Nat) (v : BitVec 64) (σ : State) : exec (.qdescWrite via q word v) σ = execQdescWrite via q word v σ := rfl
theorem exec_sporeConsume (q : Nat) (σ : State) : exec (.sporeConsume q) σ = execSporeConsume q σ := rfl
theorem exec_sporeRelease (q : Nat) (σ : State) : exec (.sporeRelease q) σ = execSporeRelease q σ := rfl
theorem exec_ctxctlCreate (via : Via) (ctx : Nat) (σ : State) : exec (.ctxctlCreate via ctx) σ = execCtxctlCreate via ctx σ := rfl
theorem exec_ctxctlCodeload (via : Via) (ctx : Nat) (σ : State) : exec (.ctxctlCodeload via ctx) σ = execCtxctlCodeload via ctx σ := rfl
theorem exec_codeloadComplete (ctx : Nat) (σ : State) : exec (.codeloadComplete ctx) σ = execCodeloadComplete ctx σ := rfl
theorem exec_ctxctlInval (via : Via) (ctx : Nat) (σ : State) : exec (.ctxctlInval via ctx) σ = execCtxctlInval via ctx σ := rfl
theorem exec_invalComplete (ctx : Nat) (σ : State) : exec (.invalComplete ctx) σ = execInvalComplete ctx σ := rfl
theorem exec_ctxctlEnd (via : Via) (ctx : Nat) (σ : State) : exec (.ctxctlEnd via ctx) σ = execCtxctlEnd via ctx σ := rfl
theorem exec_ctxctlBind (via : Via) (ctx : Nat) (world : BitVec 8) (σ : State) : exec (.ctxctlBind via ctx world) σ = execCtxctlBind via ctx world σ := rfl
theorem exec_ctxreqRead (via : Via) (ctx : Nat) (σ : State) : exec (.ctxreqRead via ctx) σ = execCtxreqRead via ctx σ := rfl
theorem exec_ctxrspWrite (via : Via) (ctx : Nat) (v : BitVec 64) (σ : State) : exec (.ctxrspWrite via ctx v) σ = execCtxrspWrite via ctx v σ := rfl
theorem exec_keywWrite (via : Via) (ctx : Nat) (key : BitVec 256) (σ : State) : exec (.keywWrite via ctx key) σ = execKeywWrite via ctx key σ := rfl
theorem exec_keyqnWrite (via : Via) (ctx : Nat) (v : BitVec 64) (σ : State) : exec (.keyqnWrite via ctx v) σ = execKeyqnWrite via ctx v σ := rfl
theorem exec_dctlHalt (via : Via) (c k : Nat) (brkh : Bool) (σ : State) : exec (.dctlHalt via c k brkh) σ = execDctlHalt via c k brkh σ := rfl
theorem exec_dctlResume (via : Via) (c k : Nat) (brkh : Bool) (σ : State) : exec (.dctlResume via c k brkh) σ = execDctlResume via c k brkh σ := rfl
theorem exec_dctlStep (via : Via) (c k : Nat) (brkh : Bool) (σ : State) : exec (.dctlStep via c k brkh) σ = execDctlStep via c k brkh σ := rfl
theorem exec_dstateWrite (via : Via) (c off : Nat) (v : BitVec 64) (σ : State) : exec (.dstateWrite via c off v) σ = execDstateWrite via c off v σ := rfl
theorem exec_atctlWrite (via : Via) (v : BitVec 64) (σ : State) : exec (.atctlWrite via v) σ = execAtctlWrite via v σ := rfl
theorem exec_attestationDone (σ : State) : exec .attestationDone σ = execAttestationDone σ := rfl
theorem exec_flashUpdate (recovery : Bool) (image : Image) (σ : State) : exec (.flashUpdate recovery image) σ = execFlashUpdate recovery image σ := rfl
theorem exec_registerWrite (via : Via) (off : Nat) (v : BitVec 64) (σ : State) : exec (.registerWrite via off v) σ = execRegisterWrite via off v σ := rfl
theorem exec_ucieDown (die : Nat) (σ : State) : exec (.ucieDown die) σ = execUcieDown die σ := rfl
theorem exec_ucieUp (die : Nat) (σ : State) : exec (.ucieUp die) σ = execUcieUp die σ := rfl
theorem exec_configReadbackPass (bad : List Nat) (copyGood : Bool) (σ : State) : exec (.configReadbackPass bad copyGood) σ = execConfigReadbackPass bad copyGood σ := rfl
theorem exec_hbmHourlyCount (stack count : Nat) (σ : State) : exec (.hbmHourlyCount stack count) σ = execHbmHourlyCount stack count σ := rfl
theorem exec_vgHourlyMeasure (die margin : Nat) (σ : State) : exec (.vgHourlyMeasure die margin) σ = execVgHourlyMeasure die margin σ := rfl
theorem exec_hbmScrub (stack line : Nat) (correctable : Bool) (σ : State) : exec (.hbmScrub stack line correctable) σ = execHbmScrub stack line correctable σ := rfl
theorem exec_laserBiasSample (port lane : Nat) (bias : BitVec 16) (σ : State) : exec (.laserBiasSample port lane bias) σ = execLaserBiasSample port lane bias σ := rfl
theorem exec_laserRetire (port : Nat) (lanes : BitVec 16) (σ : State) : exec (.laserRetire port lanes) σ = execLaserRetire port lanes σ := rfl
theorem exec_laserRetClear (via : Via) (port lane : Nat) (σ : State) : exec (.laserRetClear via port lane) σ = execLaserRetClear via port lane σ := rfl
theorem exec_ptpMessage (msg : PtpMsg) (σ : State) : exec (.ptpMessage msg) σ = execPtpMessage msg σ := rfl
theorem exec_syncMissed (σ : State) : exec .syncMissed σ = execSyncMissed σ := rfl
theorem exec_session (token : BitVec 64) (σ : State) : exec (.session token) σ = execSession token σ := rfl
theorem exec_readData (tag : Nat) (status : BitVec 8) (expiry : Nat) (bytes : List Byte) (poison : List Nat) (σ : State) : exec (.readData tag status expiry bytes poison) σ = execReadData tag status expiry bytes poison σ := rfl
theorem exec_writeAck (tag : Nat) (status : BitVec 8) (σ : State) : exec (.writeAck tag status) σ = execWriteAck tag status σ := rfl
theorem exec_atomicResult (tag : Nat) (status : BitVec 8) (old : BitVec 64) (σ : State) : exec (.atomicResult tag status old) σ = execAtomicResult tag status old σ := rfl
theorem exec_renewResponse (tag : Nat) (status : BitVec 8) (expiry : Nat) (σ : State) : exec (.renewResponse tag status expiry) σ = execRenewResponse tag status expiry σ := rfl
theorem exec_revoke (obj : BitVec 48) (page : Nat) (σ : State) : exec (.revoke obj page) σ = execRevoke obj page σ := rfl
theorem exec_revokeDrained (obj : BitVec 48) (page : Nat) (σ : State) : exec (.revokeDrained obj page) σ = execRevokeDrained obj page σ := rfl
theorem exec_leaseExpiry (obj : BitVec 48) (page : Nat) (σ : State) : exec (.leaseExpiry obj page) σ = execLeaseExpiry obj page σ := rfl
theorem exec_leaseRenewal (obj : BitVec 48) (page : Nat) (σ : State) : exec (.leaseRenewal obj page) σ = execLeaseRenewal obj page σ := rfl
theorem exec_frameReclaim (obj : BitVec 48) (page : Nat) (σ : State) : exec (.frameReclaim obj page) σ = execFrameReclaim obj page σ := rfl
theorem exec_prefetchWalk (q : Nat) (σ : State) : exec (.prefetchWalk q) σ = execPrefetchWalk q σ := rfl
theorem exec_put (port tag off : Nat) (world : BitVec 8) (bytes : List Byte) (σ : State) : exec (.put port tag off world bytes) σ = execPut port tag off world bytes σ := rfl
theorem exec_putsig (port tag off : Nat) (world : BitVec 8) (bytes : List Byte) (counter : Nat) (dec : BitVec 16) (σ : State) : exec (.putsig port tag off world bytes counter dec) σ = execPutsig port tag off world bytes counter dec σ := rfl
theorem exec_putAck (tag : Nat) (status : BitVec 8) (σ : State) : exec (.putAck tag status) σ = execPutAck tag status σ := rfl
theorem exec_remoteTimeout (tag : Nat) (σ : State) : exec (.remoteTimeout tag) σ = execRemoteTimeout tag σ := rfl
theorem exec_retryBackoff (tag port : Nat) (σ : State) : exec (.retryBackoff tag port) σ = execRetryBackoff tag port σ := rfl
theorem exec_pctlEnable (via : Via) (port : Nat) (trate : BitVec 2) (σ : State) : exec (.pctlEnable via port trate) σ = execPctlEnable via port trate σ := rfl
theorem exec_pctlDisable (via : Via) (port : Nat) (σ : State) : exec (.pctlDisable via port) σ = execPctlDisable via port σ := rfl
theorem exec_pctlRetrain (via : Via) (port : Nat) (trate : BitVec 2) (σ : State) : exec (.pctlRetrain via port trate) σ = execPctlRetrain via port trate σ := rfl
theorem exec_pctlBypass (via : Via) (port : Nat) (σ : State) : exec (.pctlBypass via port) σ = execPctlBypass via port σ := rfl
theorem exec_pctlUnbypass (via : Via) (port : Nat) (σ : State) : exec (.pctlUnbypass via port) σ = execPctlUnbypass via port σ := rfl
theorem exec_offer (port : Nat) (msg : TrainMsg) (σ : State) : exec (.offer port msg) σ = execOffer port msg σ := rfl
theorem exec_accept (port : Nat) (msg : TrainMsg) (σ : State) : exec (.accept port msg) σ = execAccept port msg σ := rfl
theorem exec_ready (port : Nat) (msg : TrainMsg) (σ : State) : exec (.ready port msg) σ = execReady port msg σ := rfl
theorem exec_retrainReq (port : Nat) (msg : TrainMsg) (σ : State) : exec (.retrainReq port msg) σ = execRetrainReq port msg σ := rfl
theorem exec_restripe (port : Nat) (msg : TrainMsg) (σ : State) : exec (.restripe port msg) σ = execRestripe port msg σ := rfl
theorem exec_trainTimeout (port : Nat) (σ : State) : exec (.trainTimeout port) σ = execTrainTimeout port σ := rfl
theorem exec_lossOfLight (port : Nat) (lanes : BitVec 16) (σ : State) : exec (.lossOfLight port lanes) σ = execLossOfLight port lanes σ := rfl
theorem exec_dataFlit (port : Nat) (bytes : List Byte) (σ : State) : exec (.dataFlit port bytes) σ = execDataFlit port bytes σ := rfl
theorem exec_idleFlit (port : Nat) (bytes : List Byte) (σ : State) : exec (.idleFlit port bytes) σ = execIdleFlit port bytes σ := rfl
theorem exec_nak (port : Nat) (bytes : List Byte) (σ : State) : exec (.nak port bytes) σ = execNak port bytes σ := rfl
theorem exec_ackTimer (port : Nat) (σ : State) : exec (.ackTimer port) σ = execAckTimer port σ := rfl
theorem exec_replayTimeout (port : Nat) (σ : State) : exec (.replayTimeout port) σ = execReplayTimeout port σ := rfl
theorem exec_powerLoss (σ : State) : exec .powerLoss σ = execPowerLoss σ := rfl
theorem exec_illegalEncoding (σ : State) : exec .illegalEncoding σ = execIllegalEncoding σ := rfl
theorem exec_fetchFault (σ : State) : exec .fetchFault σ = execFetchFault σ := rfl
theorem exec_codewordLockGained (port lane : Nat) (σ : State) : exec (.codewordLockGained port lane) σ = execCodewordLockGained port lane σ := rfl
theorem exec_delayReqInterval (σ : State) : exec .delayReqInterval σ = execDelayReqInterval σ := rfl
theorem exec_announceReceiptTimeout (master : Nat) (σ : State) : exec (.announceReceiptTimeout master) σ = execAnnounceReceiptTimeout master σ := rfl
theorem exec_lasingMinute (port lane : Nat) (σ : State) : exec (.lasingMinute port lane) σ = execLasingMinute port lane σ := rfl

end Sys2Proof.Machine
end

