-- ==== Sys2Proof/Laws/Flit.lean ====
section
/-! SUPPORT. What a receiver makes of the flits that a sender builds (spec/18_link.md R364). -/

namespace Sys2Proof.Machine

/-- A number's bytes are as many as asked. -/
@[simp] theorem length_bytesLE (n v : Nat) : (bytesLE n v).length = n := by
  induction n generalizing v with
  | zero => rfl
  | succ n ih => simp [bytesLE, ih]

/-- A number reads back from its bytes. -/
theorem natLE_bytesLE (n v : Nat) (h : v < 2 ^ (8 * n)) : natLE (bytesLE n v) = v := by
  induction n generalizing v with
  | zero => simp at h; subst h; rfl
  | succ n ih =>
    have hd : v / 256 < 2 ^ (8 * n) := by
      rw [Nat.div_lt_iff_lt_mul (by decide)]
      have : (2 : Nat) ^ (8 * (n + 1)) = 2 ^ (8 * n) * 256 := by rw [Nat.mul_add, Nat.pow_add]
      omega
    simp only [bytesLE, natLE, ih _ hd, BitVec.toNat_ofNat]
    omega

/-- A header's number has 128 bits. -/
theorem FlitHead.num_lt (h : FlitHead) : h.num < 2 ^ 128 := by
  have h1 := h.opc.isLt
  have h2 := h.pmask.isLt
  have h3 : h.ackv.toNat < 2 := by cases h.ackv <;> decide
  have h4 : h.first.toNat < 2 := by cases h.first <;> decide
  have h5 : h.last.toNat < 2 := by cases h.last <;> decide
  unfold FlitHead.num
  omega

/-- A word's eight bytes read back as its number. -/
theorem natLE_word (w : Word) : natLE (bytesLE 8 w.toNat) = w.toNat := natLE_bytesLE 8 _ w.isLt

/-- A flit arrives as it was built. -/
theorem receiveFlit_flitBytes (h : FlitHead) (data : List Byte) (hof : FlitHead.of (BitVec.ofNat 128 h.num) = some h) :
    receiveFlit (flitBytes h data) = .good h (((data ++ List.replicate 256 0).take 256).take h.plen) := by
  have hl : ((data ++ List.replicate 256 (0 : Byte)).take 256).length = 256 := by
    rw [List.length_take, List.length_append, List.length_replicate]; omega
  generalize hb : (data ++ List.replicate 256 (0 : Byte)).take 256 = body at hl
  have hh : (bytesLE 16 h.num).length = 16 := length_bytesLE _ _
  have e1 : (flitBytes h data).take 16 = bytesLE 16 h.num := by
    simp only [flitBytes, hb, List.append_assoc, List.take_append, hh]
    rw [List.take_of_length_le (by omega)]; simp
  have e2 : (flitBytes h data).take 272 = bytesLE 16 h.num ++ body := by
    simp only [flitBytes, hb]
    rw [List.take_append_of_le_length (by simp [hl])]
    exact List.take_of_length_le (by simp [hl])
  have e3 : (flitBytes h data).drop 272 = bytesLE 8 (crc64 (bytesLE 16 h.num)).toNat ++
      bytesLE 8 (crc64 (bytesLE 16 h.num ++ body)).toNat := by
    simp only [flitBytes, hb]
    exact List.drop_left' (by simp [hl])
  have e4 : ((flitBytes h data).drop 272).take 8 = bytesLE 8 (crc64 (bytesLE 16 h.num)).toNat := by
    rw [e3]; exact List.take_left' (by simp)
  have e5 : (flitBytes h data).drop 280 = bytesLE 8 (crc64 (bytesLE 16 h.num ++ body)).toNat := by
    have : (flitBytes h data).drop 280 = ((flitBytes h data).drop 272).drop 8 := by rw [List.drop_drop]
    rw [this, e3]; exact List.drop_left' (by simp)
  have e6 : (flitBytes h data).length = 288 := by
    simp only [flitBytes, hb, List.length_append, length_bytesLE, hl]
  have e7 : natLE (bytesLE 16 h.num) = h.num := natLE_bytesLE 16 _ h.num_lt
  have e8 : (bytesLE 16 h.num ++ body).drop 16 = body := List.drop_left' (by simp)
  simp only [receiveFlit, e1, e2, e4, e5, e6, e7, e8, natLE_word, hof]
  simp

/-- A flit whose `FCRC` is off by one bit. -/
def spoilt (h : FlitHead) (data : List Byte) : List Byte :=
  (flitBytes h data).take 280 ++ bytesLE 8 (crc64 ((flitBytes h data).take 272) ^^^ 1#64).toNat

/-- Of a flit whose `FCRC` fails only the acknowledgement is taken. -/
theorem receiveFlit_spoilt (h : FlitHead) (data : List Byte) :
    receiveFlit (spoilt h data) = .bad (ackOf (BitVec.ofNat 128 h.num)) := by
  have e6 : (flitBytes h data).length = 288 := by
    simp only [flitBytes, List.length_append, length_bytesLE, List.length_take, List.length_replicate]; omega
  have ht : ((flitBytes h data).take 280).length = 280 := by rw [List.length_take, e6]; rfl
  have e0 : (flitBytes h data).take 16 = bytesLE 16 h.num := by
    simp only [flitBytes, List.append_assoc]
    exact List.take_left' (length_bytesLE 16 _)
  have e1 : (spoilt h data).take 16 = bytesLE 16 h.num := by
    rw [spoilt, List.take_append_of_le_length (by omega), List.take_take]; exact e0
  have e2 : (spoilt h data).take 272 = (flitBytes h data).take 272 := by
    rw [spoilt, List.take_append_of_le_length (by omega), List.take_take]; rfl
  have e5 : (spoilt h data).drop 280 = bytesLE 8 (crc64 ((flitBytes h data).take 272) ^^^ 1#64).toNat := List.drop_left' ht
  have e4 : ((spoilt h data).drop 272).take 8 = bytesLE 8 (crc64 (bytesLE 16 h.num)).toNat := by
    rw [spoilt, List.drop_append_of_le_length (by omega), List.take_left' (by rw [List.length_drop, ht]), List.drop_take]
    simp only [flitBytes]
    rw [List.drop_left' (by
      simp only [List.length_append, length_bytesLE, List.length_take, List.length_replicate]; omega)]
    exact List.take_left' (length_bytesLE 8 _)
  have e7 : (spoilt h data).length = 288 := by rw [spoilt, List.length_append, ht, length_bytesLE]
  have e8 : natLE (bytesLE 16 h.num) = h.num := natLE_bytesLE 16 _ h.num_lt
  have e9 : ((crc64 ((flitBytes h data).take 272) ^^^ 1#64).toNat != (crc64 ((flitBytes h data).take 272)).toNat) = true := by
    refine bne_iff_ne.2 (fun e => ?_)
    have e := congrArg (fun v : Word => v.getLsbD 0) (BitVec.eq_of_toNat_eq e)
    rw [BitVec.getLsbD_xor] at e
    revert e
    cases (crc64 ((flitBytes h data).take 272)).getLsbD 0 <;> decide
  simp only [receiveFlit, e1, e2, e4, e5, e7, e8, natLE_word, e9, if_true]
  simp

end Sys2Proof.Machine
end

