-- ==== Sys2Proof/Laws/Table.lean ====
section
/-! SUPPORT. The laws of sparse tables: reading after writing, and that every operation keeps the keys rising and the
canonical form. -/

namespace Sys2Proof

variable {α : Type}

/-! Reading after writing. -/

theorem Tbl.get_erase_self (d : α) (t : Tbl α) (k : Nat) : (t.erase k).get d k = d := by
  induction t with
  | nil => rfl
  | cons e t ih =>
    obtain ⟨k', v⟩ := e
    by_cases h : k = k' <;> simp [Tbl.erase, Tbl.get, h, ih]
    simpa [h] using ih

theorem Tbl.get_erase_ne (d : α) (t : Tbl α) {j k : Nat} (h : j ≠ k) : (t.erase k).get d j = t.get d j := by
  induction t with
  | nil => rfl
  | cons e t ih =>
    obtain ⟨k', v⟩ := e
    by_cases hk : k = k'
    · subst hk; simp [Tbl.erase, Tbl.get, h, ih]
    · by_cases hj : j = k' <;> simp [Tbl.erase, Tbl.get, hk, hj, ih]

theorem Tbl.get_insert_ne (d : α) (t : Tbl α) {j k : Nat} (v : α) (h : j ≠ k) :
    (t.insert k v).get d j = t.get d j := by
  induction t with
  | nil => simp [Tbl.insert, Tbl.get, h]
  | cons e t ih =>
    obtain ⟨k', v'⟩ := e
    by_cases hk : k < k'
    · simp [Tbl.insert, Tbl.get, hk, h]
    · by_cases hj : j = k' <;> simp [Tbl.insert, Tbl.get, hk, hj, ih]

/-- A new key reads as the value put. -/
theorem Tbl.get_insert_self (d : α) (t : Tbl α) (k : Nat) (v : α) (h : ∀ e ∈ t, e.1 ≠ k) :
    (t.insert k v).get d k = v := by
  induction t with
  | nil => simp [Tbl.insert, Tbl.get]
  | cons e t ih =>
    obtain ⟨k', v'⟩ := e
    have hk : k' ≠ k := h (k', v') (by simp)
    have ht : ∀ e ∈ t, e.1 ≠ k := fun e he => h e (by simp [he])
    by_cases hlt : k < k'
    · simp [Tbl.insert, Tbl.get, hlt]
    · simp [Tbl.insert, Tbl.get, hlt, Ne.symm hk, ih ht]

theorem Tbl.ne_of_mem_erase (t : Tbl α) (k : Nat) : ∀ e ∈ t.erase k, e.1 ≠ k := by
  induction t with
  | nil => simp [Tbl.erase]
  | cons e t ih =>
    obtain ⟨k', v⟩ := e
    by_cases h : k = k'
    · subst h; simpa [Tbl.erase] using ih
    · simp only [Tbl.erase, h, if_false, List.mem_cons]
      rintro e (rfl | he)
      · exact fun hk => h hk.symm
      · exact ih e he

theorem Tbl.mem_of_mem_erase (t : Tbl α) (k : Nat) : ∀ e ∈ t.erase k, e ∈ t := by
  induction t with
  | nil => simp [Tbl.erase]
  | cons e t ih =>
    obtain ⟨k', v⟩ := e
    by_cases h : k = k'
    · simp only [Tbl.erase, h, if_true]
      exact fun e he => List.mem_cons_of_mem _ (ih e (by rw [h]; exact he))
    · simp only [Tbl.erase, h, if_false, List.mem_cons]
      rintro e (rfl | he)
      · exact .inl rfl
      · exact .inr (ih e he)

@[simp] theorem Tbl.get_set_self [DecidableEq α] (d : α) (t : Tbl α) (k : Nat) (v : α) : (t.set d k v).get d k = v := by
  unfold Tbl.set
  split
  · next h => rw [h, Tbl.get_erase_self]
  · exact Tbl.get_insert_self d _ k v (Tbl.ne_of_mem_erase t k)

theorem Tbl.get_set_ne [DecidableEq α] (d : α) (t : Tbl α) {j k : Nat} (v : α) (h : j ≠ k) :
    (t.set d k v).get d j = t.get d j := by
  unfold Tbl.set
  split
  · exact Tbl.get_erase_ne d t h
  · rw [Tbl.get_insert_ne d _ v h, Tbl.get_erase_ne d t h]

theorem Tbl.get_set [DecidableEq α] (d : α) (t : Tbl α) (j k : Nat) (v : α) :
    (t.set d k v).get d j = if j = k then v else t.get d j := by
  by_cases h : j = k
  · subst h; simp
  · simp [h, Tbl.get_set_ne d t v h]

theorem Tbl.get_put [DecidableEq α] (d : α) (t : Tbl α) (j k : Nat) (v : α) :
    (t.put k v).get d j = if j = k then v else t.get d j := by
  by_cases h : j = k
  · subst h
    simp [Tbl.put, Tbl.get_insert_self d _ j v (Tbl.ne_of_mem_erase t j)]
  · simp [h, Tbl.put, Tbl.get_insert_ne d _ v h, Tbl.get_erase_ne d t h]

theorem Tbl.find?_erase_self (t : Tbl α) (k : Nat) : Tbl.find? (t.erase k) k = none := by
  induction t with
  | nil => rfl
  | cons e t ih =>
    obtain ⟨k', v⟩ := e
    by_cases h : k = k' <;> simp [Tbl.erase, Tbl.find?, h, ih]
    simpa [h] using ih

theorem Tbl.find?_erase_ne (t : Tbl α) {j k : Nat} (h : j ≠ k) : Tbl.find? (t.erase k) j = Tbl.find? t j := by
  induction t with
  | nil => rfl
  | cons e t ih =>
    obtain ⟨k', v⟩ := e
    by_cases hk : k = k'
    · subst hk; simp [Tbl.erase, Tbl.find?, h, ih]
    · by_cases hj : j = k' <;> simp [Tbl.erase, Tbl.find?, hk, hj, ih]

theorem Tbl.find?_insert_ne (t : Tbl α) {j k : Nat} (v : α) (h : j ≠ k) :
    Tbl.find? (Tbl.insert t k v) j = Tbl.find? t j := by
  induction t with
  | nil => simp [Tbl.insert, Tbl.find?, h]
  | cons e t ih =>
    obtain ⟨k', v'⟩ := e
    by_cases hk : k < k'
    · simp [Tbl.insert, Tbl.find?, hk, h]
    · by_cases hj : j = k' <;> simp [Tbl.insert, Tbl.find?, hk, hj, ih]

theorem Tbl.find?_insert_self (t : Tbl α) (k : Nat) (v : α) (h : ∀ e ∈ t, e.1 ≠ k) :
    Tbl.find? (Tbl.insert t k v) k = some v := by
  induction t with
  | nil => simp [Tbl.insert, Tbl.find?]
  | cons e t ih =>
    obtain ⟨k', v'⟩ := e
    have hk : k' ≠ k := h (k', v') (by simp)
    have ht : ∀ e ∈ t, e.1 ≠ k := fun e he => h e (by simp [he])
    by_cases hlt : k < k'
    · simp [Tbl.insert, Tbl.find?, hlt]
    · simp [Tbl.insert, Tbl.find?, hlt, Ne.symm hk, ih ht]

@[simp] theorem Tbl.find?_put_self (t : Tbl α) (k : Nat) (v : α) : Tbl.find? (t.put k v) k = some v :=
  Tbl.find?_insert_self _ k v (Tbl.ne_of_mem_erase t k)

theorem Tbl.find?_put_ne (t : Tbl α) {j k : Nat} (v : α) (h : j ≠ k) : Tbl.find? (t.put k v) j = Tbl.find? t j := by
  simp [Tbl.put, Tbl.find?_insert_ne _ v h, Tbl.find?_erase_ne t h]

theorem Tbl.find?_upd_self (t : Tbl α) (k : Nat) (f : α → α) : Tbl.find? (t.upd k f) k = (Tbl.find? t k).map f := by
  unfold Tbl.upd
  cases h : Tbl.find? t k with
  | none => simpa using h
  | some v => simp

theorem Tbl.find?_upd_ne (t : Tbl α) {j k : Nat} (f : α → α) (h : j ≠ k) :
    Tbl.find? (t.upd k f) j = Tbl.find? t j := by
  unfold Tbl.upd
  cases hk : Tbl.find? t k with
  | none => rfl
  | some v => exact Tbl.find?_put_ne t _ h

/-! Rising keys. -/

/-- Every key is above a bound. -/
def Tbl.above (b : Nat) (t : Tbl α) : Prop := ∀ e ∈ t, b < e.1

theorem Tbl.sorted_cons (k : Nat) (v : α) (t : Tbl α) :
    Tbl.sorted ((k, v) :: t) = true ↔ Tbl.above k t ∧ t.sorted = true := by
  induction t generalizing k v with
  | nil => simp [Tbl.sorted, Tbl.above]
  | cons e t ih =>
    obtain ⟨k', v'⟩ := e
    simp only [Tbl.sorted, Bool.and_eq_true, decide_eq_true_eq]
    constructor
    · rintro ⟨h1, h2⟩
      refine ⟨?_, h2⟩
      have h3 := ((ih k' v').mp h2).1
      intro e he
      rcases List.mem_cons.mp he with rfl | he
      · exact h1
      · exact Nat.lt_trans h1 (h3 e he)
    · rintro ⟨h1, h2⟩
      exact ⟨h1 (k', v') (by simp), h2⟩

theorem Tbl.sorted_erase (t : Tbl α) (k : Nat) (h : t.sorted = true) : (t.erase k).sorted = true := by
  induction t with
  | nil => simp [Tbl.erase, Tbl.sorted]
  | cons e t ih =>
    obtain ⟨k', v⟩ := e
    obtain ⟨h1, h2⟩ := (Tbl.sorted_cons k' v t).mp h
    by_cases hk : k = k'
    · simpa [Tbl.erase, hk] using (by simpa [hk] using ih h2)
    · simp only [Tbl.erase, hk, if_false]
      exact (Tbl.sorted_cons k' v _).mpr ⟨fun e he => h1 e (Tbl.mem_of_mem_erase t k e he), ih h2⟩

theorem Tbl.mem_insert (t : Tbl α) (k : Nat) (v : α) : ∀ e, e ∈ t.insert k v ↔ e = (k, v) ∨ e ∈ t := by
  induction t with
  | nil => simp [Tbl.insert]
  | cons e t ih =>
    obtain ⟨k', v'⟩ := e
    intro x
    by_cases hk : k < k'
    · simp [Tbl.insert, hk]
    · simp only [Tbl.insert, hk, if_false, List.mem_cons, ih x]
      constructor
      · rintro (h | h | h) <;> simp [h]
      · rintro (h | h | h) <;> simp [h]

theorem Tbl.sorted_insert (t : Tbl α) (k : Nat) (v : α) (h : t.sorted = true) (hk : ∀ e ∈ t, e.1 ≠ k) :
    (Tbl.insert t k v).sorted = true := by
  induction t with
  | nil => simp [Tbl.insert, Tbl.sorted]
  | cons e t ih =>
    obtain ⟨k', v'⟩ := e
    obtain ⟨h1, h2⟩ := (Tbl.sorted_cons k' v' t).mp h
    have hne : k' ≠ k := hk (k', v') (by simp)
    by_cases hlt : k < k'
    · simp only [Tbl.insert, hlt, if_true]
      refine (Tbl.sorted_cons k v _).mpr ⟨?_, h⟩
      intro e he
      rcases List.mem_cons.mp he with rfl | he
      · exact hlt
      · exact Nat.lt_trans hlt (h1 e he)
    · simp only [Tbl.insert, hlt, if_false]
      refine (Tbl.sorted_cons k' v' _).mpr ⟨?_, ih h2 (fun e he => hk e (by simp [he]))⟩
      intro e he
      rcases (Tbl.mem_insert t k v e).mp he with rfl | he
      · show k' < k
        omega
      · exact h1 e he

theorem Tbl.sorted_set [DecidableEq α] (d : α) (t : Tbl α) (k : Nat) (v : α) (h : t.sorted = true) :
    (t.set d k v).sorted = true := by
  unfold Tbl.set
  split
  · exact Tbl.sorted_erase t k h
  · exact Tbl.sorted_insert _ k v (Tbl.sorted_erase t k h) (Tbl.ne_of_mem_erase t k)

theorem Tbl.sorted_put (t : Tbl α) (k : Nat) (v : α) (h : t.sorted = true) : (t.put k v).sorted = true :=
  Tbl.sorted_insert _ k v (Tbl.sorted_erase t k h) (Tbl.ne_of_mem_erase t k)

/-! The canonical form. -/

theorem Tbl.canonical_nil [DecidableEq α] (d : α) : Tbl.canonical d ([] : Tbl α) = true := by
  simp [Tbl.canonical, Tbl.sorted]

theorem Tbl.canonical_set [DecidableEq α] (d : α) (t : Tbl α) (k : Nat) (v : α) (h : Tbl.canonical d t = true) :
    Tbl.canonical d (t.set d k v) = true := by
  simp only [Tbl.canonical, Bool.and_eq_true, List.all_eq_true, decide_eq_true_eq] at h ⊢
  refine ⟨Tbl.sorted_set d t k v h.1, ?_⟩
  unfold Tbl.set
  split
  · exact fun e he => h.2 e (Tbl.mem_of_mem_erase t k e he)
  · next hv =>
    intro e he
    rcases (Tbl.mem_insert _ k v e).mp he with rfl | he
    · exact hv
    · exact h.2 e (Tbl.mem_of_mem_erase t k e he)

theorem Tbl.canonical_setRange [DecidableEq α] (d : α) (t : Tbl α) (k : Nat) (vs : List α)
    (h : Tbl.canonical d t = true) : Tbl.canonical d (t.setRange d k vs) = true := by
  induction vs generalizing t k with
  | nil => exact h
  | cons v vs ih => exact ih _ _ (Tbl.canonical_set d t k v h)

theorem Tbl.canonical_foldl_set [DecidableEq α] {β : Type} (d : α) (l : List β) (f : β → Nat) (g : β → α) (t : Tbl α)
    (h : Tbl.canonical d t = true) : Tbl.canonical d (l.foldl (fun t b => t.set d (f b) (g b)) t) = true := by
  induction l generalizing t with
  | nil => exact h
  | cons b l ih => exact ih _ (Tbl.canonical_set d t (f b) (g b) h)

/-- A range written reads back, and nothing else changes. -/
theorem Tbl.get_setRange [DecidableEq α] (d : α) (t : Tbl α) (k : Nat) (vs : List α) (j : Nat) :
    (t.setRange d k vs).get d j = if k ≤ j ∧ j < k + vs.length then vs.getD (j - k) d else t.get d j := by
  induction vs generalizing t k with
  | nil =>
    rw [if_neg (by simp only [List.length_nil]; omega)]
    rfl
  | cons v vs ih =>
    simp only [Tbl.setRange, ih, List.length_cons]
    by_cases h : k ≤ j ∧ j < k + (vs.length + 1)
    · by_cases hk : j = k
      · subst hk
        simp [show ¬ (j + 1 ≤ j) by omega]
      · have h1 : k + 1 ≤ j ∧ j < k + 1 + vs.length := by omega
        have h2 : j - k = (j - (k + 1)) + 1 := by omega
        simp [h, h1, h2]
    · have h1 : ¬ (k + 1 ≤ j ∧ j < k + 1 + vs.length) := by omega
      have h2 : j ≠ k := by omega
      simp only [h, h1, if_false]
      exact Tbl.get_set_ne d t v h2

end Sys2Proof
end

