-- ==== Sys2Proof/Laws/State.lean ====
section
/-! SUPPORT. One lemma for every field and every update of the state, of a core and of a strand. -/

namespace Sys2Proof.Machine

@[simp] theorem State.setCore_schedule (s : State) (c : Nat) (v : Core) : (s.setCore c v).schedule = s.schedule := rfl
@[simp] theorem State.setCore_core (s : State) (c : Nat) (v : Core) : (s.setCore c v).core = s.core := rfl
@[simp] theorem State.setCore_strand (s : State) (c : Nat) (v : Core) : (s.setCore c v).strand = s.strand := rfl
@[simp] theorem State.setCore_port (s : State) (c : Nat) (v : Core) : (s.setCore c v).port = s.port := rfl
@[simp] theorem State.setCore_seqTurn (s : State) (c : Nat) (v : Core) : (s.setCore c v).seqTurn = s.seqTurn := rfl
@[simp] theorem State.setCore_free (s : State) (c : Nat) (v : Core) : (s.setCore c v).free = s.free := rfl
@[simp] theorem State.setCore_nextId (s : State) (c : Nat) (v : Core) : (s.setCore c v).nextId = s.nextId := rfl
@[simp] theorem State.setCore_pkg (s : State) (c : Nat) (v : Core) : (s.setCore c v).pkg = s.pkg := rfl
@[simp] theorem State.setCore_flash (s : State) (c : Nat) (v : Core) : (s.setCore c v).flash = s.flash := rfl
@[simp] theorem State.setCore_groups (s : State) (c : Nat) (v : Core) : (s.setCore c v).groups = s.groups := rfl
@[simp] theorem State.setCore_launches (s : State) (c : Nat) (v : Core) : (s.setCore c v).launches = s.launches := rfl
@[simp] theorem State.setCore_queues (s : State) (c : Nat) (v : Core) : (s.setCore c v).queues = s.queues := rfl
@[simp] theorem State.setCore_contexts (s : State) (c : Nat) (v : Core) : (s.setCore c v).contexts = s.contexts := rfl
@[simp] theorem State.setCore_worldKeys (s : State) (c : Nat) (v : Core) : (s.setCore c v).worldKeys = s.worldKeys := rfl
@[simp] theorem State.setCore_pool (s : State) (c : Nat) (v : Core) : (s.setCore c v).pool = s.pool := rfl
@[simp] theorem State.setCore_ports (s : State) (c : Nat) (v : Core) : (s.setCore c v).ports = s.ports := rfl
@[simp] theorem State.setCore_puf (s : State) (c : Nat) (v : Core) : (s.setCore c v).puf = s.puf := rfl
@[simp] theorem State.setCore_switches (s : State) (c : Nat) (v : Core) : (s.setCore c v).switches = s.switches := rfl
@[simp] theorem State.setCore_hbm (s : State) (c : Nat) (v : Core) : (s.setCore c v).hbm = s.hbm := rfl
@[simp] theorem State.setCore_sealed (s : State) (c : Nat) (v : Core) : (s.setCore c v).sealed = s.sealed := rfl
@[simp] theorem State.setCore_weights (s : State) (c : Nat) (v : Core) : (s.setCore c v).weights = s.weights := rfl
@[simp] theorem State.setCore_host (s : State) (c : Nat) (v : Core) : (s.setCore c v).host = s.host := rfl
@[simp] theorem State.setCore_history (s : State) (c : Nat) (v : Core) : (s.setCore c v).history = s.history := rfl
@[simp] theorem State.setCore_commits (s : State) (c : Nat) (v : Core) : (s.setCore c v).commits = s.commits := rfl
@[simp] theorem State.setCore_marks (s : State) (c : Nat) (v : Core) : (s.setCore c v).marks = s.marks := rfl
@[simp] theorem State.setCore_waitTable (s : State) (c : Nat) (v : Core) : (s.setCore c v).waitTable = s.waitTable := rfl
@[simp] theorem State.setCore_ring (s : State) (c : Nat) (v : Core) : (s.setCore c v).ring = s.ring := rfl
@[simp] theorem State.setCore_ptp (s : State) (c : Nat) (v : Core) : (s.setCore c v).ptp = s.ptp := rfl
@[simp] theorem State.setCore_completions (s : State) (c : Nat) (v : Core) : (s.setCore c v).completions = s.completions := rfl
@[simp] theorem State.setCore_attest (s : State) (c : Nat) (v : Core) : (s.setCore c v).attest = s.attest := rfl
@[simp] theorem State.setCore_hbmHealth (s : State) (c : Nat) (v : Core) : (s.setCore c v).hbmHealth = s.hbmHealth := rfl
@[simp] theorem State.setCore_vgHealth (s : State) (c : Nat) (v : Core) : (s.setCore c v).vgHealth = s.vgHealth := rfl
@[simp] theorem State.setCore_scrubCount (s : State) (c : Nat) (v : Core) : (s.setCore c v).scrubCount = s.scrubCount := rfl
@[simp] theorem State.setCore_outbox (s : State) (c : Nat) (v : Core) : (s.setCore c v).outbox = s.outbox := rfl
@[simp] theorem State.setCore_jbuf (s : State) (c : Nat) (v : Core) : (s.setCore c v).jbuf = s.jbuf := rfl
@[simp] theorem State.setCore_reports (s : State) (c : Nat) (v : Core) : (s.setCore c v).reports = s.reports := rfl
@[simp] theorem State.setCore_order (s : State) (c : Nat) (v : Core) : (s.setCore c v).order = s.order := rfl
@[simp] theorem State.setQueue_schedule (s : State) (q : Nat) (v : Queue) : (s.setQueue q v).schedule = s.schedule := rfl
@[simp] theorem State.setQueue_core (s : State) (q : Nat) (v : Queue) : (s.setQueue q v).core = s.core := rfl
@[simp] theorem State.setQueue_strand (s : State) (q : Nat) (v : Queue) : (s.setQueue q v).strand = s.strand := rfl
@[simp] theorem State.setQueue_port (s : State) (q : Nat) (v : Queue) : (s.setQueue q v).port = s.port := rfl
@[simp] theorem State.setQueue_seqTurn (s : State) (q : Nat) (v : Queue) : (s.setQueue q v).seqTurn = s.seqTurn := rfl
@[simp] theorem State.setQueue_free (s : State) (q : Nat) (v : Queue) : (s.setQueue q v).free = s.free := rfl
@[simp] theorem State.setQueue_nextId (s : State) (q : Nat) (v : Queue) : (s.setQueue q v).nextId = s.nextId := rfl
@[simp] theorem State.setQueue_pkg (s : State) (q : Nat) (v : Queue) : (s.setQueue q v).pkg = s.pkg := rfl
@[simp] theorem State.setQueue_flash (s : State) (q : Nat) (v : Queue) : (s.setQueue q v).flash = s.flash := rfl
@[simp] theorem State.setQueue_cores (s : State) (q : Nat) (v : Queue) : (s.setQueue q v).cores = s.cores := rfl
@[simp] theorem State.setQueue_groups (s : State) (q : Nat) (v : Queue) : (s.setQueue q v).groups = s.groups := rfl
@[simp] theorem State.setQueue_launches (s : State) (q : Nat) (v : Queue) : (s.setQueue q v).launches = s.launches := rfl
@[simp] theorem State.setQueue_contexts (s : State) (q : Nat) (v : Queue) : (s.setQueue q v).contexts = s.contexts := rfl
@[simp] theorem State.setQueue_worldKeys (s : State) (q : Nat) (v : Queue) : (s.setQueue q v).worldKeys = s.worldKeys := rfl
@[simp] theorem State.setQueue_pool (s : State) (q : Nat) (v : Queue) : (s.setQueue q v).pool = s.pool := rfl
@[simp] theorem State.setQueue_ports (s : State) (q : Nat) (v : Queue) : (s.setQueue q v).ports = s.ports := rfl
@[simp] theorem State.setQueue_puf (s : State) (q : Nat) (v : Queue) : (s.setQueue q v).puf = s.puf := rfl
@[simp] theorem State.setQueue_switches (s : State) (q : Nat) (v : Queue) : (s.setQueue q v).switches = s.switches := rfl
@[simp] theorem State.setQueue_hbm (s : State) (q : Nat) (v : Queue) : (s.setQueue q v).hbm = s.hbm := rfl
@[simp] theorem State.setQueue_sealed (s : State) (q : Nat) (v : Queue) : (s.setQueue q v).sealed = s.sealed := rfl
@[simp] theorem State.setQueue_weights (s : State) (q : Nat) (v : Queue) : (s.setQueue q v).weights = s.weights := rfl
@[simp] theorem State.setQueue_host (s : State) (q : Nat) (v : Queue) : (s.setQueue q v).host = s.host := rfl
@[simp] theorem State.setQueue_history (s : State) (q : Nat) (v : Queue) : (s.setQueue q v).history = s.history := rfl
@[simp] theorem State.setQueue_commits (s : State) (q : Nat) (v : Queue) : (s.setQueue q v).commits = s.commits := rfl
@[simp] theorem State.setQueue_marks (s : State) (q : Nat) (v : Queue) : (s.setQueue q v).marks = s.marks := rfl
@[simp] theorem State.setQueue_waitTable (s : State) (q : Nat) (v : Queue) : (s.setQueue q v).waitTable = s.waitTable := rfl
@[simp] theorem State.setQueue_ring (s : State) (q : Nat) (v : Queue) : (s.setQueue q v).ring = s.ring := rfl
@[simp] theorem State.setQueue_ptp (s : State) (q : Nat) (v : Queue) : (s.setQueue q v).ptp = s.ptp := rfl
@[simp] theorem State.setQueue_completions (s : State) (q : Nat) (v : Queue) : (s.setQueue q v).completions = s.completions := rfl
@[simp] theorem State.setQueue_attest (s : State) (q : Nat) (v : Queue) : (s.setQueue q v).attest = s.attest := rfl
@[simp] theorem State.setQueue_hbmHealth (s : State) (q : Nat) (v : Queue) : (s.setQueue q v).hbmHealth = s.hbmHealth := rfl
@[simp] theorem State.setQueue_vgHealth (s : State) (q : Nat) (v : Queue) : (s.setQueue q v).vgHealth = s.vgHealth := rfl
@[simp] theorem State.setQueue_scrubCount (s : State) (q : Nat) (v : Queue) : (s.setQueue q v).scrubCount = s.scrubCount := rfl
@[simp] theorem State.setQueue_outbox (s : State) (q : Nat) (v : Queue) : (s.setQueue q v).outbox = s.outbox := rfl
@[simp] theorem State.setQueue_jbuf (s : State) (q : Nat) (v : Queue) : (s.setQueue q v).jbuf = s.jbuf := rfl
@[simp] theorem State.setQueue_reports (s : State) (q : Nat) (v : Queue) : (s.setQueue q v).reports = s.reports := rfl
@[simp] theorem State.setQueue_order (s : State) (q : Nat) (v : Queue) : (s.setQueue q v).order = s.order := rfl
@[simp] theorem State.setCtx_schedule (s : State) (n : Nat) (v : Context) : (s.setCtx n v).schedule = s.schedule := rfl
@[simp] theorem State.setCtx_core (s : State) (n : Nat) (v : Context) : (s.setCtx n v).core = s.core := rfl
@[simp] theorem State.setCtx_strand (s : State) (n : Nat) (v : Context) : (s.setCtx n v).strand = s.strand := rfl
@[simp] theorem State.setCtx_port (s : State) (n : Nat) (v : Context) : (s.setCtx n v).port = s.port := rfl
@[simp] theorem State.setCtx_seqTurn (s : State) (n : Nat) (v : Context) : (s.setCtx n v).seqTurn = s.seqTurn := rfl
@[simp] theorem State.setCtx_free (s : State) (n : Nat) (v : Context) : (s.setCtx n v).free = s.free := rfl
@[simp] theorem State.setCtx_nextId (s : State) (n : Nat) (v : Context) : (s.setCtx n v).nextId = s.nextId := rfl
@[simp] theorem State.setCtx_pkg (s : State) (n : Nat) (v : Context) : (s.setCtx n v).pkg = s.pkg := rfl
@[simp] theorem State.setCtx_flash (s : State) (n : Nat) (v : Context) : (s.setCtx n v).flash = s.flash := rfl
@[simp] theorem State.setCtx_cores (s : State) (n : Nat) (v : Context) : (s.setCtx n v).cores = s.cores := rfl
@[simp] theorem State.setCtx_groups (s : State) (n : Nat) (v : Context) : (s.setCtx n v).groups = s.groups := rfl
@[simp] theorem State.setCtx_launches (s : State) (n : Nat) (v : Context) : (s.setCtx n v).launches = s.launches := rfl
@[simp] theorem State.setCtx_queues (s : State) (n : Nat) (v : Context) : (s.setCtx n v).queues = s.queues := rfl
@[simp] theorem State.setCtx_worldKeys (s : State) (n : Nat) (v : Context) : (s.setCtx n v).worldKeys = s.worldKeys := rfl
@[simp] theorem State.setCtx_pool (s : State) (n : Nat) (v : Context) : (s.setCtx n v).pool = s.pool := rfl
@[simp] theorem State.setCtx_ports (s : State) (n : Nat) (v : Context) : (s.setCtx n v).ports = s.ports := rfl
@[simp] theorem State.setCtx_puf (s : State) (n : Nat) (v : Context) : (s.setCtx n v).puf = s.puf := rfl
@[simp] theorem State.setCtx_switches (s : State) (n : Nat) (v : Context) : (s.setCtx n v).switches = s.switches := rfl
@[simp] theorem State.setCtx_hbm (s : State) (n : Nat) (v : Context) : (s.setCtx n v).hbm = s.hbm := rfl
@[simp] theorem State.setCtx_sealed (s : State) (n : Nat) (v : Context) : (s.setCtx n v).sealed = s.sealed := rfl
@[simp] theorem State.setCtx_weights (s : State) (n : Nat) (v : Context) : (s.setCtx n v).weights = s.weights := rfl
@[simp] theorem State.setCtx_host (s : State) (n : Nat) (v : Context) : (s.setCtx n v).host = s.host := rfl
@[simp] theorem State.setCtx_history (s : State) (n : Nat) (v : Context) : (s.setCtx n v).history = s.history := rfl
@[simp] theorem State.setCtx_commits (s : State) (n : Nat) (v : Context) : (s.setCtx n v).commits = s.commits := rfl
@[simp] theorem State.setCtx_marks (s : State) (n : Nat) (v : Context) : (s.setCtx n v).marks = s.marks := rfl
@[simp] theorem State.setCtx_waitTable (s : State) (n : Nat) (v : Context) : (s.setCtx n v).waitTable = s.waitTable := rfl
@[simp] theorem State.setCtx_ring (s : State) (n : Nat) (v : Context) : (s.setCtx n v).ring = s.ring := rfl
@[simp] theorem State.setCtx_ptp (s : State) (n : Nat) (v : Context) : (s.setCtx n v).ptp = s.ptp := rfl
@[simp] theorem State.setCtx_completions (s : State) (n : Nat) (v : Context) : (s.setCtx n v).completions = s.completions := rfl
@[simp] theorem State.setCtx_attest (s : State) (n : Nat) (v : Context) : (s.setCtx n v).attest = s.attest := rfl
@[simp] theorem State.setCtx_hbmHealth (s : State) (n : Nat) (v : Context) : (s.setCtx n v).hbmHealth = s.hbmHealth := rfl
@[simp] theorem State.setCtx_vgHealth (s : State) (n : Nat) (v : Context) : (s.setCtx n v).vgHealth = s.vgHealth := rfl
@[simp] theorem State.setCtx_scrubCount (s : State) (n : Nat) (v : Context) : (s.setCtx n v).scrubCount = s.scrubCount := rfl
@[simp] theorem State.setCtx_outbox (s : State) (n : Nat) (v : Context) : (s.setCtx n v).outbox = s.outbox := rfl
@[simp] theorem State.setCtx_jbuf (s : State) (n : Nat) (v : Context) : (s.setCtx n v).jbuf = s.jbuf := rfl
@[simp] theorem State.setCtx_reports (s : State) (n : Nat) (v : Context) : (s.setCtx n v).reports = s.reports := rfl
@[simp] theorem State.setCtx_order (s : State) (n : Nat) (v : Context) : (s.setCtx n v).order = s.order := rfl
@[simp] theorem State.setPort_schedule (s : State) (p : Nat) (v : Port) : (s.setPort p v).schedule = s.schedule := rfl
@[simp] theorem State.setPort_core (s : State) (p : Nat) (v : Port) : (s.setPort p v).core = s.core := rfl
@[simp] theorem State.setPort_strand (s : State) (p : Nat) (v : Port) : (s.setPort p v).strand = s.strand := rfl
@[simp] theorem State.setPort_port (s : State) (p : Nat) (v : Port) : (s.setPort p v).port = s.port := rfl
@[simp] theorem State.setPort_seqTurn (s : State) (p : Nat) (v : Port) : (s.setPort p v).seqTurn = s.seqTurn := rfl
@[simp] theorem State.setPort_free (s : State) (p : Nat) (v : Port) : (s.setPort p v).free = s.free := rfl
@[simp] theorem State.setPort_nextId (s : State) (p : Nat) (v : Port) : (s.setPort p v).nextId = s.nextId := rfl
@[simp] theorem State.setPort_pkg (s : State) (p : Nat) (v : Port) : (s.setPort p v).pkg = s.pkg := rfl
@[simp] theorem State.setPort_flash (s : State) (p : Nat) (v : Port) : (s.setPort p v).flash = s.flash := rfl
@[simp] theorem State.setPort_cores (s : State) (p : Nat) (v : Port) : (s.setPort p v).cores = s.cores := rfl
@[simp] theorem State.setPort_groups (s : State) (p : Nat) (v : Port) : (s.setPort p v).groups = s.groups := rfl
@[simp] theorem State.setPort_launches (s : State) (p : Nat) (v : Port) : (s.setPort p v).launches = s.launches := rfl
@[simp] theorem State.setPort_queues (s : State) (p : Nat) (v : Port) : (s.setPort p v).queues = s.queues := rfl
@[simp] theorem State.setPort_contexts (s : State) (p : Nat) (v : Port) : (s.setPort p v).contexts = s.contexts := rfl
@[simp] theorem State.setPort_worldKeys (s : State) (p : Nat) (v : Port) : (s.setPort p v).worldKeys = s.worldKeys := rfl
@[simp] theorem State.setPort_pool (s : State) (p : Nat) (v : Port) : (s.setPort p v).pool = s.pool := rfl
@[simp] theorem State.setPort_puf (s : State) (p : Nat) (v : Port) : (s.setPort p v).puf = s.puf := rfl
@[simp] theorem State.setPort_switches (s : State) (p : Nat) (v : Port) : (s.setPort p v).switches = s.switches := rfl
@[simp] theorem State.setPort_hbm (s : State) (p : Nat) (v : Port) : (s.setPort p v).hbm = s.hbm := rfl
@[simp] theorem State.setPort_sealed (s : State) (p : Nat) (v : Port) : (s.setPort p v).sealed = s.sealed := rfl
@[simp] theorem State.setPort_weights (s : State) (p : Nat) (v : Port) : (s.setPort p v).weights = s.weights := rfl
@[simp] theorem State.setPort_host (s : State) (p : Nat) (v : Port) : (s.setPort p v).host = s.host := rfl
@[simp] theorem State.setPort_history (s : State) (p : Nat) (v : Port) : (s.setPort p v).history = s.history := rfl
@[simp] theorem State.setPort_commits (s : State) (p : Nat) (v : Port) : (s.setPort p v).commits = s.commits := rfl
@[simp] theorem State.setPort_marks (s : State) (p : Nat) (v : Port) : (s.setPort p v).marks = s.marks := rfl
@[simp] theorem State.setPort_waitTable (s : State) (p : Nat) (v : Port) : (s.setPort p v).waitTable = s.waitTable := rfl
@[simp] theorem State.setPort_ring (s : State) (p : Nat) (v : Port) : (s.setPort p v).ring = s.ring := rfl
@[simp] theorem State.setPort_ptp (s : State) (p : Nat) (v : Port) : (s.setPort p v).ptp = s.ptp := rfl
@[simp] theorem State.setPort_completions (s : State) (p : Nat) (v : Port) : (s.setPort p v).completions = s.completions := rfl
@[simp] theorem State.setPort_attest (s : State) (p : Nat) (v : Port) : (s.setPort p v).attest = s.attest := rfl
@[simp] theorem State.setPort_hbmHealth (s : State) (p : Nat) (v : Port) : (s.setPort p v).hbmHealth = s.hbmHealth := rfl
@[simp] theorem State.setPort_vgHealth (s : State) (p : Nat) (v : Port) : (s.setPort p v).vgHealth = s.vgHealth := rfl
@[simp] theorem State.setPort_scrubCount (s : State) (p : Nat) (v : Port) : (s.setPort p v).scrubCount = s.scrubCount := rfl
@[simp] theorem State.setPort_outbox (s : State) (p : Nat) (v : Port) : (s.setPort p v).outbox = s.outbox := rfl
@[simp] theorem State.setPort_jbuf (s : State) (p : Nat) (v : Port) : (s.setPort p v).jbuf = s.jbuf := rfl
@[simp] theorem State.setPort_reports (s : State) (p : Nat) (v : Port) : (s.setPort p v).reports = s.reports := rfl
@[simp] theorem State.setPort_order (s : State) (p : Nat) (v : Port) : (s.setPort p v).order = s.order := rfl
@[simp] theorem State.modGroup_schedule (s : State) (g : Nat) (f : Group → Group) : (s.modGroup g f).schedule = s.schedule := rfl
@[simp] theorem State.modGroup_core (s : State) (g : Nat) (f : Group → Group) : (s.modGroup g f).core = s.core := rfl
@[simp] theorem State.modGroup_strand (s : State) (g : Nat) (f : Group → Group) : (s.modGroup g f).strand = s.strand := rfl
@[simp] theorem State.modGroup_port (s : State) (g : Nat) (f : Group → Group) : (s.modGroup g f).port = s.port := rfl
@[simp] theorem State.modGroup_seqTurn (s : State) (g : Nat) (f : Group → Group) : (s.modGroup g f).seqTurn = s.seqTurn := rfl
@[simp] theorem State.modGroup_free (s : State) (g : Nat) (f : Group → Group) : (s.modGroup g f).free = s.free := rfl
@[simp] theorem State.modGroup_nextId (s : State) (g : Nat) (f : Group → Group) : (s.modGroup g f).nextId = s.nextId := rfl
@[simp] theorem State.modGroup_pkg (s : State) (g : Nat) (f : Group → Group) : (s.modGroup g f).pkg = s.pkg := rfl
@[simp] theorem State.modGroup_flash (s : State) (g : Nat) (f : Group → Group) : (s.modGroup g f).flash = s.flash := rfl
@[simp] theorem State.modGroup_cores (s : State) (g : Nat) (f : Group → Group) : (s.modGroup g f).cores = s.cores := rfl
@[simp] theorem State.modGroup_launches (s : State) (g : Nat) (f : Group → Group) : (s.modGroup g f).launches = s.launches := rfl
@[simp] theorem State.modGroup_queues (s : State) (g : Nat) (f : Group → Group) : (s.modGroup g f).queues = s.queues := rfl
@[simp] theorem State.modGroup_contexts (s : State) (g : Nat) (f : Group → Group) : (s.modGroup g f).contexts = s.contexts := rfl
@[simp] theorem State.modGroup_worldKeys (s : State) (g : Nat) (f : Group → Group) : (s.modGroup g f).worldKeys = s.worldKeys := rfl
@[simp] theorem State.modGroup_pool (s : State) (g : Nat) (f : Group → Group) : (s.modGroup g f).pool = s.pool := rfl
@[simp] theorem State.modGroup_ports (s : State) (g : Nat) (f : Group → Group) : (s.modGroup g f).ports = s.ports := rfl
@[simp] theorem State.modGroup_puf (s : State) (g : Nat) (f : Group → Group) : (s.modGroup g f).puf = s.puf := rfl
@[simp] theorem State.modGroup_switches (s : State) (g : Nat) (f : Group → Group) : (s.modGroup g f).switches = s.switches := rfl
@[simp] theorem State.modGroup_hbm (s : State) (g : Nat) (f : Group → Group) : (s.modGroup g f).hbm = s.hbm := rfl
@[simp] theorem State.modGroup_sealed (s : State) (g : Nat) (f : Group → Group) : (s.modGroup g f).sealed = s.sealed := rfl
@[simp] theorem State.modGroup_weights (s : State) (g : Nat) (f : Group → Group) : (s.modGroup g f).weights = s.weights := rfl
@[simp] theorem State.modGroup_host (s : State) (g : Nat) (f : Group → Group) : (s.modGroup g f).host = s.host := rfl
@[simp] theorem State.modGroup_history (s : State) (g : Nat) (f : Group → Group) : (s.modGroup g f).history = s.history := rfl
@[simp] theorem State.modGroup_commits (s : State) (g : Nat) (f : Group → Group) : (s.modGroup g f).commits = s.commits := rfl
@[simp] theorem State.modGroup_marks (s : State) (g : Nat) (f : Group → Group) : (s.modGroup g f).marks = s.marks := rfl
@[simp] theorem State.modGroup_waitTable (s : State) (g : Nat) (f : Group → Group) : (s.modGroup g f).waitTable = s.waitTable := rfl
@[simp] theorem State.modGroup_ring (s : State) (g : Nat) (f : Group → Group) : (s.modGroup g f).ring = s.ring := rfl
@[simp] theorem State.modGroup_ptp (s : State) (g : Nat) (f : Group → Group) : (s.modGroup g f).ptp = s.ptp := rfl
@[simp] theorem State.modGroup_completions (s : State) (g : Nat) (f : Group → Group) : (s.modGroup g f).completions = s.completions := rfl
@[simp] theorem State.modGroup_attest (s : State) (g : Nat) (f : Group → Group) : (s.modGroup g f).attest = s.attest := rfl
@[simp] theorem State.modGroup_hbmHealth (s : State) (g : Nat) (f : Group → Group) : (s.modGroup g f).hbmHealth = s.hbmHealth := rfl
@[simp] theorem State.modGroup_vgHealth (s : State) (g : Nat) (f : Group → Group) : (s.modGroup g f).vgHealth = s.vgHealth := rfl
@[simp] theorem State.modGroup_scrubCount (s : State) (g : Nat) (f : Group → Group) : (s.modGroup g f).scrubCount = s.scrubCount := rfl
@[simp] theorem State.modGroup_outbox (s : State) (g : Nat) (f : Group → Group) : (s.modGroup g f).outbox = s.outbox := rfl
@[simp] theorem State.modGroup_jbuf (s : State) (g : Nat) (f : Group → Group) : (s.modGroup g f).jbuf = s.jbuf := rfl
@[simp] theorem State.modGroup_reports (s : State) (g : Nat) (f : Group → Group) : (s.modGroup g f).reports = s.reports := rfl
@[simp] theorem State.modGroup_order (s : State) (g : Nat) (f : Group → Group) : (s.modGroup g f).order = s.order := rfl
@[simp] theorem State.modLaunch_schedule (s : State) (l : Nat) (f : Launch → Launch) : (s.modLaunch l f).schedule = s.schedule := rfl
@[simp] theorem State.modLaunch_core (s : State) (l : Nat) (f : Launch → Launch) : (s.modLaunch l f).core = s.core := rfl
@[simp] theorem State.modLaunch_strand (s : State) (l : Nat) (f : Launch → Launch) : (s.modLaunch l f).strand = s.strand := rfl
@[simp] theorem State.modLaunch_port (s : State) (l : Nat) (f : Launch → Launch) : (s.modLaunch l f).port = s.port := rfl
@[simp] theorem State.modLaunch_seqTurn (s : State) (l : Nat) (f : Launch → Launch) : (s.modLaunch l f).seqTurn = s.seqTurn := rfl
@[simp] theorem State.modLaunch_free (s : State) (l : Nat) (f : Launch → Launch) : (s.modLaunch l f).free = s.free := rfl
@[simp] theorem State.modLaunch_nextId (s : State) (l : Nat) (f : Launch → Launch) : (s.modLaunch l f).nextId = s.nextId := rfl
@[simp] theorem State.modLaunch_pkg (s : State) (l : Nat) (f : Launch → Launch) : (s.modLaunch l f).pkg = s.pkg := rfl
@[simp] theorem State.modLaunch_flash (s : State) (l : Nat) (f : Launch → Launch) : (s.modLaunch l f).flash = s.flash := rfl
@[simp] theorem State.modLaunch_cores (s : State) (l : Nat) (f : Launch → Launch) : (s.modLaunch l f).cores = s.cores := rfl
@[simp] theorem State.modLaunch_groups (s : State) (l : Nat) (f : Launch → Launch) : (s.modLaunch l f).groups = s.groups := rfl
@[simp] theorem State.modLaunch_queues (s : State) (l : Nat) (f : Launch → Launch) : (s.modLaunch l f).queues = s.queues := rfl
@[simp] theorem State.modLaunch_contexts (s : State) (l : Nat) (f : Launch → Launch) : (s.modLaunch l f).contexts = s.contexts := rfl
@[simp] theorem State.modLaunch_worldKeys (s : State) (l : Nat) (f : Launch → Launch) : (s.modLaunch l f).worldKeys = s.worldKeys := rfl
@[simp] theorem State.modLaunch_pool (s : State) (l : Nat) (f : Launch → Launch) : (s.modLaunch l f).pool = s.pool := rfl
@[simp] theorem State.modLaunch_ports (s : State) (l : Nat) (f : Launch → Launch) : (s.modLaunch l f).ports = s.ports := rfl
@[simp] theorem State.modLaunch_puf (s : State) (l : Nat) (f : Launch → Launch) : (s.modLaunch l f).puf = s.puf := rfl
@[simp] theorem State.modLaunch_switches (s : State) (l : Nat) (f : Launch → Launch) : (s.modLaunch l f).switches = s.switches := rfl
@[simp] theorem State.modLaunch_hbm (s : State) (l : Nat) (f : Launch → Launch) : (s.modLaunch l f).hbm = s.hbm := rfl
@[simp] theorem State.modLaunch_sealed (s : State) (l : Nat) (f : Launch → Launch) : (s.modLaunch l f).sealed = s.sealed := rfl
@[simp] theorem State.modLaunch_weights (s : State) (l : Nat) (f : Launch → Launch) : (s.modLaunch l f).weights = s.weights := rfl
@[simp] theorem State.modLaunch_host (s : State) (l : Nat) (f : Launch → Launch) : (s.modLaunch l f).host = s.host := rfl
@[simp] theorem State.modLaunch_history (s : State) (l : Nat) (f : Launch → Launch) : (s.modLaunch l f).history = s.history := rfl
@[simp] theorem State.modLaunch_commits (s : State) (l : Nat) (f : Launch → Launch) : (s.modLaunch l f).commits = s.commits := rfl
@[simp] theorem State.modLaunch_marks (s : State) (l : Nat) (f : Launch → Launch) : (s.modLaunch l f).marks = s.marks := rfl
@[simp] theorem State.modLaunch_waitTable (s : State) (l : Nat) (f : Launch → Launch) : (s.modLaunch l f).waitTable = s.waitTable := rfl
@[simp] theorem State.modLaunch_ring (s : State) (l : Nat) (f : Launch → Launch) : (s.modLaunch l f).ring = s.ring := rfl
@[simp] theorem State.modLaunch_ptp (s : State) (l : Nat) (f : Launch → Launch) : (s.modLaunch l f).ptp = s.ptp := rfl
@[simp] theorem State.modLaunch_completions (s : State) (l : Nat) (f : Launch → Launch) : (s.modLaunch l f).completions = s.completions := rfl
@[simp] theorem State.modLaunch_attest (s : State) (l : Nat) (f : Launch → Launch) : (s.modLaunch l f).attest = s.attest := rfl
@[simp] theorem State.modLaunch_hbmHealth (s : State) (l : Nat) (f : Launch → Launch) : (s.modLaunch l f).hbmHealth = s.hbmHealth := rfl
@[simp] theorem State.modLaunch_vgHealth (s : State) (l : Nat) (f : Launch → Launch) : (s.modLaunch l f).vgHealth = s.vgHealth := rfl
@[simp] theorem State.modLaunch_scrubCount (s : State) (l : Nat) (f : Launch → Launch) : (s.modLaunch l f).scrubCount = s.scrubCount := rfl
@[simp] theorem State.modLaunch_outbox (s : State) (l : Nat) (f : Launch → Launch) : (s.modLaunch l f).outbox = s.outbox := rfl
@[simp] theorem State.modLaunch_jbuf (s : State) (l : Nat) (f : Launch → Launch) : (s.modLaunch l f).jbuf = s.jbuf := rfl
@[simp] theorem State.modLaunch_reports (s : State) (l : Nat) (f : Launch → Launch) : (s.modLaunch l f).reports = s.reports := rfl
@[simp] theorem State.modLaunch_order (s : State) (l : Nat) (f : Launch → Launch) : (s.modLaunch l f).order = s.order := rfl
@[simp] theorem State.hostWrite_schedule (s : State) (a : Nat) (bs : List Byte) : (s.hostWrite a bs).schedule = s.schedule := rfl
@[simp] theorem State.hostWrite_core (s : State) (a : Nat) (bs : List Byte) : (s.hostWrite a bs).core = s.core := rfl
@[simp] theorem State.hostWrite_strand (s : State) (a : Nat) (bs : List Byte) : (s.hostWrite a bs).strand = s.strand := rfl
@[simp] theorem State.hostWrite_port (s : State) (a : Nat) (bs : List Byte) : (s.hostWrite a bs).port = s.port := rfl
@[simp] theorem State.hostWrite_seqTurn (s : State) (a : Nat) (bs : List Byte) : (s.hostWrite a bs).seqTurn = s.seqTurn := rfl
@[simp] theorem State.hostWrite_free (s : State) (a : Nat) (bs : List Byte) : (s.hostWrite a bs).free = s.free := rfl
@[simp] theorem State.hostWrite_nextId (s : State) (a : Nat) (bs : List Byte) : (s.hostWrite a bs).nextId = s.nextId := rfl
@[simp] theorem State.hostWrite_pkg (s : State) (a : Nat) (bs : List Byte) : (s.hostWrite a bs).pkg = s.pkg := rfl
@[simp] theorem State.hostWrite_flash (s : State) (a : Nat) (bs : List Byte) : (s.hostWrite a bs).flash = s.flash := rfl
@[simp] theorem State.hostWrite_cores (s : State) (a : Nat) (bs : List Byte) : (s.hostWrite a bs).cores = s.cores := rfl
@[simp] theorem State.hostWrite_groups (s : State) (a : Nat) (bs : List Byte) : (s.hostWrite a bs).groups = s.groups := rfl
@[simp] theorem State.hostWrite_launches (s : State) (a : Nat) (bs : List Byte) : (s.hostWrite a bs).launches = s.launches := rfl
@[simp] theorem State.hostWrite_queues (s : State) (a : Nat) (bs : List Byte) : (s.hostWrite a bs).queues = s.queues := rfl
@[simp] theorem State.hostWrite_contexts (s : State) (a : Nat) (bs : List Byte) : (s.hostWrite a bs).contexts = s.contexts := rfl
@[simp] theorem State.hostWrite_worldKeys (s : State) (a : Nat) (bs : List Byte) : (s.hostWrite a bs).worldKeys = s.worldKeys := rfl
@[simp] theorem State.hostWrite_pool (s : State) (a : Nat) (bs : List Byte) : (s.hostWrite a bs).pool = s.pool := rfl
@[simp] theorem State.hostWrite_ports (s : State) (a : Nat) (bs : List Byte) : (s.hostWrite a bs).ports = s.ports := rfl
@[simp] theorem State.hostWrite_puf (s : State) (a : Nat) (bs : List Byte) : (s.hostWrite a bs).puf = s.puf := rfl
@[simp] theorem State.hostWrite_switches (s : State) (a : Nat) (bs : List Byte) : (s.hostWrite a bs).switches = s.switches := rfl
@[simp] theorem State.hostWrite_hbm (s : State) (a : Nat) (bs : List Byte) : (s.hostWrite a bs).hbm = s.hbm := rfl
@[simp] theorem State.hostWrite_sealed (s : State) (a : Nat) (bs : List Byte) : (s.hostWrite a bs).sealed = s.sealed := rfl
@[simp] theorem State.hostWrite_weights (s : State) (a : Nat) (bs : List Byte) : (s.hostWrite a bs).weights = s.weights := rfl
@[simp] theorem State.hostWrite_history (s : State) (a : Nat) (bs : List Byte) : (s.hostWrite a bs).history = s.history := rfl
@[simp] theorem State.hostWrite_commits (s : State) (a : Nat) (bs : List Byte) : (s.hostWrite a bs).commits = s.commits := rfl
@[simp] theorem State.hostWrite_marks (s : State) (a : Nat) (bs : List Byte) : (s.hostWrite a bs).marks = s.marks := rfl
@[simp] theorem State.hostWrite_waitTable (s : State) (a : Nat) (bs : List Byte) : (s.hostWrite a bs).waitTable = s.waitTable := rfl
@[simp] theorem State.hostWrite_ring (s : State) (a : Nat) (bs : List Byte) : (s.hostWrite a bs).ring = s.ring := rfl
@[simp] theorem State.hostWrite_ptp (s : State) (a : Nat) (bs : List Byte) : (s.hostWrite a bs).ptp = s.ptp := rfl
@[simp] theorem State.hostWrite_completions (s : State) (a : Nat) (bs : List Byte) : (s.hostWrite a bs).completions = s.completions := rfl
@[simp] theorem State.hostWrite_attest (s : State) (a : Nat) (bs : List Byte) : (s.hostWrite a bs).attest = s.attest := rfl
@[simp] theorem State.hostWrite_hbmHealth (s : State) (a : Nat) (bs : List Byte) : (s.hostWrite a bs).hbmHealth = s.hbmHealth := rfl
@[simp] theorem State.hostWrite_vgHealth (s : State) (a : Nat) (bs : List Byte) : (s.hostWrite a bs).vgHealth = s.vgHealth := rfl
@[simp] theorem State.hostWrite_scrubCount (s : State) (a : Nat) (bs : List Byte) : (s.hostWrite a bs).scrubCount = s.scrubCount := rfl
@[simp] theorem State.hostWrite_outbox (s : State) (a : Nat) (bs : List Byte) : (s.hostWrite a bs).outbox = s.outbox := rfl
@[simp] theorem State.hostWrite_jbuf (s : State) (a : Nat) (bs : List Byte) : (s.hostWrite a bs).jbuf = s.jbuf := rfl
@[simp] theorem State.hostWrite_reports (s : State) (a : Nat) (bs : List Byte) : (s.hostWrite a bs).reports = s.reports := rfl
@[simp] theorem State.hostWrite_order (s : State) (a : Nat) (bs : List Byte) : (s.hostWrite a bs).order = s.order := rfl
@[simp] theorem State.send_schedule (s : State) (m : Sent) : (s.send m).schedule = s.schedule := rfl
@[simp] theorem State.send_core (s : State) (m : Sent) : (s.send m).core = s.core := rfl
@[simp] theorem State.send_strand (s : State) (m : Sent) : (s.send m).strand = s.strand := rfl
@[simp] theorem State.send_port (s : State) (m : Sent) : (s.send m).port = s.port := rfl
@[simp] theorem State.send_seqTurn (s : State) (m : Sent) : (s.send m).seqTurn = s.seqTurn := rfl
@[simp] theorem State.send_free (s : State) (m : Sent) : (s.send m).free = s.free := rfl
@[simp] theorem State.send_nextId (s : State) (m : Sent) : (s.send m).nextId = s.nextId := rfl
@[simp] theorem State.send_pkg (s : State) (m : Sent) : (s.send m).pkg = s.pkg := rfl
@[simp] theorem State.send_flash (s : State) (m : Sent) : (s.send m).flash = s.flash := rfl
@[simp] theorem State.send_cores (s : State) (m : Sent) : (s.send m).cores = s.cores := rfl
@[simp] theorem State.send_groups (s : State) (m : Sent) : (s.send m).groups = s.groups := rfl
@[simp] theorem State.send_launches (s : State) (m : Sent) : (s.send m).launches = s.launches := rfl
@[simp] theorem State.send_queues (s : State) (m : Sent) : (s.send m).queues = s.queues := rfl
@[simp] theorem State.send_contexts (s : State) (m : Sent) : (s.send m).contexts = s.contexts := rfl
@[simp] theorem State.send_worldKeys (s : State) (m : Sent) : (s.send m).worldKeys = s.worldKeys := rfl
@[simp] theorem State.send_pool (s : State) (m : Sent) : (s.send m).pool = s.pool := rfl
@[simp] theorem State.send_ports (s : State) (m : Sent) : (s.send m).ports = s.ports := rfl
@[simp] theorem State.send_puf (s : State) (m : Sent) : (s.send m).puf = s.puf := rfl
@[simp] theorem State.send_switches (s : State) (m : Sent) : (s.send m).switches = s.switches := rfl
@[simp] theorem State.send_hbm (s : State) (m : Sent) : (s.send m).hbm = s.hbm := rfl
@[simp] theorem State.send_sealed (s : State) (m : Sent) : (s.send m).sealed = s.sealed := rfl
@[simp] theorem State.send_weights (s : State) (m : Sent) : (s.send m).weights = s.weights := rfl
@[simp] theorem State.send_host (s : State) (m : Sent) : (s.send m).host = s.host := rfl
@[simp] theorem State.send_history (s : State) (m : Sent) : (s.send m).history = s.history := rfl
@[simp] theorem State.send_commits (s : State) (m : Sent) : (s.send m).commits = s.commits := rfl
@[simp] theorem State.send_marks (s : State) (m : Sent) : (s.send m).marks = s.marks := rfl
@[simp] theorem State.send_waitTable (s : State) (m : Sent) : (s.send m).waitTable = s.waitTable := rfl
@[simp] theorem State.send_ring (s : State) (m : Sent) : (s.send m).ring = s.ring := rfl
@[simp] theorem State.send_ptp (s : State) (m : Sent) : (s.send m).ptp = s.ptp := rfl
@[simp] theorem State.send_completions (s : State) (m : Sent) : (s.send m).completions = s.completions := rfl
@[simp] theorem State.send_attest (s : State) (m : Sent) : (s.send m).attest = s.attest := rfl
@[simp] theorem State.send_hbmHealth (s : State) (m : Sent) : (s.send m).hbmHealth = s.hbmHealth := rfl
@[simp] theorem State.send_vgHealth (s : State) (m : Sent) : (s.send m).vgHealth = s.vgHealth := rfl
@[simp] theorem State.send_scrubCount (s : State) (m : Sent) : (s.send m).scrubCount = s.scrubCount := rfl
@[simp] theorem State.send_jbuf (s : State) (m : Sent) : (s.send m).jbuf = s.jbuf := rfl
@[simp] theorem State.send_reports (s : State) (m : Sent) : (s.send m).reports = s.reports := rfl
@[simp] theorem State.send_order (s : State) (m : Sent) : (s.send m).order = s.order := rfl
@[simp] theorem State.soon_core (s : State) (ms : List Mover) : (s.soon ms).core = s.core := rfl
@[simp] theorem State.soon_strand (s : State) (ms : List Mover) : (s.soon ms).strand = s.strand := rfl
@[simp] theorem State.soon_port (s : State) (ms : List Mover) : (s.soon ms).port = s.port := rfl
@[simp] theorem State.soon_seqTurn (s : State) (ms : List Mover) : (s.soon ms).seqTurn = s.seqTurn := rfl
@[simp] theorem State.soon_free (s : State) (ms : List Mover) : (s.soon ms).free = s.free := rfl
@[simp] theorem State.soon_nextId (s : State) (ms : List Mover) : (s.soon ms).nextId = s.nextId := rfl
@[simp] theorem State.soon_pkg (s : State) (ms : List Mover) : (s.soon ms).pkg = s.pkg := rfl
@[simp] theorem State.soon_flash (s : State) (ms : List Mover) : (s.soon ms).flash = s.flash := rfl
@[simp] theorem State.soon_cores (s : State) (ms : List Mover) : (s.soon ms).cores = s.cores := rfl
@[simp] theorem State.soon_groups (s : State) (ms : List Mover) : (s.soon ms).groups = s.groups := rfl
@[simp] theorem State.soon_launches (s : State) (ms : List Mover) : (s.soon ms).launches = s.launches := rfl
@[simp] theorem State.soon_queues (s : State) (ms : List Mover) : (s.soon ms).queues = s.queues := rfl
@[simp] theorem State.soon_contexts (s : State) (ms : List Mover) : (s.soon ms).contexts = s.contexts := rfl
@[simp] theorem State.soon_worldKeys (s : State) (ms : List Mover) : (s.soon ms).worldKeys = s.worldKeys := rfl
@[simp] theorem State.soon_pool (s : State) (ms : List Mover) : (s.soon ms).pool = s.pool := rfl
@[simp] theorem State.soon_ports (s : State) (ms : List Mover) : (s.soon ms).ports = s.ports := rfl
@[simp] theorem State.soon_puf (s : State) (ms : List Mover) : (s.soon ms).puf = s.puf := rfl
@[simp] theorem State.soon_switches (s : State) (ms : List Mover) : (s.soon ms).switches = s.switches := rfl
@[simp] theorem State.soon_hbm (s : State) (ms : List Mover) : (s.soon ms).hbm = s.hbm := rfl
@[simp] theorem State.soon_sealed (s : State) (ms : List Mover) : (s.soon ms).sealed = s.sealed := rfl
@[simp] theorem State.soon_weights (s : State) (ms : List Mover) : (s.soon ms).weights = s.weights := rfl
@[simp] theorem State.soon_host (s : State) (ms : List Mover) : (s.soon ms).host = s.host := rfl
@[simp] theorem State.soon_history (s : State) (ms : List Mover) : (s.soon ms).history = s.history := rfl
@[simp] theorem State.soon_commits (s : State) (ms : List Mover) : (s.soon ms).commits = s.commits := rfl
@[simp] theorem State.soon_marks (s : State) (ms : List Mover) : (s.soon ms).marks = s.marks := rfl
@[simp] theorem State.soon_waitTable (s : State) (ms : List Mover) : (s.soon ms).waitTable = s.waitTable := rfl
@[simp] theorem State.soon_ring (s : State) (ms : List Mover) : (s.soon ms).ring = s.ring := rfl
@[simp] theorem State.soon_ptp (s : State) (ms : List Mover) : (s.soon ms).ptp = s.ptp := rfl
@[simp] theorem State.soon_completions (s : State) (ms : List Mover) : (s.soon ms).completions = s.completions := rfl
@[simp] theorem State.soon_attest (s : State) (ms : List Mover) : (s.soon ms).attest = s.attest := rfl
@[simp] theorem State.soon_hbmHealth (s : State) (ms : List Mover) : (s.soon ms).hbmHealth = s.hbmHealth := rfl
@[simp] theorem State.soon_vgHealth (s : State) (ms : List Mover) : (s.soon ms).vgHealth = s.vgHealth := rfl
@[simp] theorem State.soon_scrubCount (s : State) (ms : List Mover) : (s.soon ms).scrubCount = s.scrubCount := rfl
@[simp] theorem State.soon_outbox (s : State) (ms : List Mover) : (s.soon ms).outbox = s.outbox := rfl
@[simp] theorem State.soon_jbuf (s : State) (ms : List Mover) : (s.soon ms).jbuf = s.jbuf := rfl
@[simp] theorem State.soon_reports (s : State) (ms : List Mover) : (s.soon ms).reports = s.reports := rfl
@[simp] theorem State.soon_order (s : State) (ms : List Mover) : (s.soon ms).order = s.order := rfl
@[simp] theorem State.modCore_schedule (s : State) (c : Nat) (f : Core → Core) : (s.modCore c f).schedule = s.schedule := rfl
@[simp] theorem State.modCore_core (s : State) (c : Nat) (f : Core → Core) : (s.modCore c f).core = s.core := rfl
@[simp] theorem State.modCore_strand (s : State) (c : Nat) (f : Core → Core) : (s.modCore c f).strand = s.strand := rfl
@[simp] theorem State.modCore_port (s : State) (c : Nat) (f : Core → Core) : (s.modCore c f).port = s.port := rfl
@[simp] theorem State.modCore_seqTurn (s : State) (c : Nat) (f : Core → Core) : (s.modCore c f).seqTurn = s.seqTurn := rfl
@[simp] theorem State.modCore_free (s : State) (c : Nat) (f : Core → Core) : (s.modCore c f).free = s.free := rfl
@[simp] theorem State.modCore_nextId (s : State) (c : Nat) (f : Core → Core) : (s.modCore c f).nextId = s.nextId := rfl
@[simp] theorem State.modCore_pkg (s : State) (c : Nat) (f : Core → Core) : (s.modCore c f).pkg = s.pkg := rfl
@[simp] theorem State.modCore_flash (s : State) (c : Nat) (f : Core → Core) : (s.modCore c f).flash = s.flash := rfl
@[simp] theorem State.modCore_groups (s : State) (c : Nat) (f : Core → Core) : (s.modCore c f).groups = s.groups := rfl
@[simp] theorem State.modCore_launches (s : State) (c : Nat) (f : Core → Core) : (s.modCore c f).launches = s.launches := rfl
@[simp] theorem State.modCore_queues (s : State) (c : Nat) (f : Core → Core) : (s.modCore c f).queues = s.queues := rfl
@[simp] theorem State.modCore_contexts (s : State) (c : Nat) (f : Core → Core) : (s.modCore c f).contexts = s.contexts := rfl
@[simp] theorem State.modCore_worldKeys (s : State) (c : Nat) (f : Core → Core) : (s.modCore c f).worldKeys = s.worldKeys := rfl
@[simp] theorem State.modCore_pool (s : State) (c : Nat) (f : Core → Core) : (s.modCore c f).pool = s.pool := rfl
@[simp] theorem State.modCore_ports (s : State) (c : Nat) (f : Core → Core) : (s.modCore c f).ports = s.ports := rfl
@[simp] theorem State.modCore_puf (s : State) (c : Nat) (f : Core → Core) : (s.modCore c f).puf = s.puf := rfl
@[simp] theorem State.modCore_switches (s : State) (c : Nat) (f : Core → Core) : (s.modCore c f).switches = s.switches := rfl
@[simp] theorem State.modCore_hbm (s : State) (c : Nat) (f : Core → Core) : (s.modCore c f).hbm = s.hbm := rfl
@[simp] theorem State.modCore_sealed (s : State) (c : Nat) (f : Core → Core) : (s.modCore c f).sealed = s.sealed := rfl
@[simp] theorem State.modCore_weights (s : State) (c : Nat) (f : Core → Core) : (s.modCore c f).weights = s.weights := rfl
@[simp] theorem State.modCore_host (s : State) (c : Nat) (f : Core → Core) : (s.modCore c f).host = s.host := rfl
@[simp] theorem State.modCore_history (s : State) (c : Nat) (f : Core → Core) : (s.modCore c f).history = s.history := rfl
@[simp] theorem State.modCore_commits (s : State) (c : Nat) (f : Core → Core) : (s.modCore c f).commits = s.commits := rfl
@[simp] theorem State.modCore_marks (s : State) (c : Nat) (f : Core → Core) : (s.modCore c f).marks = s.marks := rfl
@[simp] theorem State.modCore_waitTable (s : State) (c : Nat) (f : Core → Core) : (s.modCore c f).waitTable = s.waitTable := rfl
@[simp] theorem State.modCore_ring (s : State) (c : Nat) (f : Core → Core) : (s.modCore c f).ring = s.ring := rfl
@[simp] theorem State.modCore_ptp (s : State) (c : Nat) (f : Core → Core) : (s.modCore c f).ptp = s.ptp := rfl
@[simp] theorem State.modCore_completions (s : State) (c : Nat) (f : Core → Core) : (s.modCore c f).completions = s.completions := rfl
@[simp] theorem State.modCore_attest (s : State) (c : Nat) (f : Core → Core) : (s.modCore c f).attest = s.attest := rfl
@[simp] theorem State.modCore_hbmHealth (s : State) (c : Nat) (f : Core → Core) : (s.modCore c f).hbmHealth = s.hbmHealth := rfl
@[simp] theorem State.modCore_vgHealth (s : State) (c : Nat) (f : Core → Core) : (s.modCore c f).vgHealth = s.vgHealth := rfl
@[simp] theorem State.modCore_scrubCount (s : State) (c : Nat) (f : Core → Core) : (s.modCore c f).scrubCount = s.scrubCount := rfl
@[simp] theorem State.modCore_outbox (s : State) (c : Nat) (f : Core → Core) : (s.modCore c f).outbox = s.outbox := rfl
@[simp] theorem State.modCore_jbuf (s : State) (c : Nat) (f : Core → Core) : (s.modCore c f).jbuf = s.jbuf := rfl
@[simp] theorem State.modCore_reports (s : State) (c : Nat) (f : Core → Core) : (s.modCore c f).reports = s.reports := rfl
@[simp] theorem State.modCore_order (s : State) (c : Nat) (f : Core → Core) : (s.modCore c f).order = s.order := rfl
@[simp] theorem State.setStrand_schedule (s : State) (c k : Nat) (v : Strand) : (s.setStrand c k v).schedule = s.schedule := rfl
@[simp] theorem State.setStrand_core (s : State) (c k : Nat) (v : Strand) : (s.setStrand c k v).core = s.core := rfl
@[simp] theorem State.setStrand_strand (s : State) (c k : Nat) (v : Strand) : (s.setStrand c k v).strand = s.strand := rfl
@[simp] theorem State.setStrand_port (s : State) (c k : Nat) (v : Strand) : (s.setStrand c k v).port = s.port := rfl
@[simp] theorem State.setStrand_seqTurn (s : State) (c k : Nat) (v : Strand) : (s.setStrand c k v).seqTurn = s.seqTurn := rfl
@[simp] theorem State.setStrand_free (s : State) (c k : Nat) (v : Strand) : (s.setStrand c k v).free = s.free := rfl
@[simp] theorem State.setStrand_nextId (s : State) (c k : Nat) (v : Strand) : (s.setStrand c k v).nextId = s.nextId := rfl
@[simp] theorem State.setStrand_pkg (s : State) (c k : Nat) (v : Strand) : (s.setStrand c k v).pkg = s.pkg := rfl
@[simp] theorem State.setStrand_flash (s : State) (c k : Nat) (v : Strand) : (s.setStrand c k v).flash = s.flash := rfl
@[simp] theorem State.setStrand_groups (s : State) (c k : Nat) (v : Strand) : (s.setStrand c k v).groups = s.groups := rfl
@[simp] theorem State.setStrand_launches (s : State) (c k : Nat) (v : Strand) : (s.setStrand c k v).launches = s.launches := rfl
@[simp] theorem State.setStrand_queues (s : State) (c k : Nat) (v : Strand) : (s.setStrand c k v).queues = s.queues := rfl
@[simp] theorem State.setStrand_contexts (s : State) (c k : Nat) (v : Strand) : (s.setStrand c k v).contexts = s.contexts := rfl
@[simp] theorem State.setStrand_worldKeys (s : State) (c k : Nat) (v : Strand) : (s.setStrand c k v).worldKeys = s.worldKeys := rfl
@[simp] theorem State.setStrand_pool (s : State) (c k : Nat) (v : Strand) : (s.setStrand c k v).pool = s.pool := rfl
@[simp] theorem State.setStrand_ports (s : State) (c k : Nat) (v : Strand) : (s.setStrand c k v).ports = s.ports := rfl
@[simp] theorem State.setStrand_puf (s : State) (c k : Nat) (v : Strand) : (s.setStrand c k v).puf = s.puf := rfl
@[simp] theorem State.setStrand_switches (s : State) (c k : Nat) (v : Strand) : (s.setStrand c k v).switches = s.switches := rfl
@[simp] theorem State.setStrand_hbm (s : State) (c k : Nat) (v : Strand) : (s.setStrand c k v).hbm = s.hbm := rfl
@[simp] theorem State.setStrand_sealed (s : State) (c k : Nat) (v : Strand) : (s.setStrand c k v).sealed = s.sealed := rfl
@[simp] theorem State.setStrand_weights (s : State) (c k : Nat) (v : Strand) : (s.setStrand c k v).weights = s.weights := rfl
@[simp] theorem State.setStrand_host (s : State) (c k : Nat) (v : Strand) : (s.setStrand c k v).host = s.host := rfl
@[simp] theorem State.setStrand_history (s : State) (c k : Nat) (v : Strand) : (s.setStrand c k v).history = s.history := rfl
@[simp] theorem State.setStrand_commits (s : State) (c k : Nat) (v : Strand) : (s.setStrand c k v).commits = s.commits := rfl
@[simp] theorem State.setStrand_marks (s : State) (c k : Nat) (v : Strand) : (s.setStrand c k v).marks = s.marks := rfl
@[simp] theorem State.setStrand_waitTable (s : State) (c k : Nat) (v : Strand) : (s.setStrand c k v).waitTable = s.waitTable := rfl
@[simp] theorem State.setStrand_ring (s : State) (c k : Nat) (v : Strand) : (s.setStrand c k v).ring = s.ring := rfl
@[simp] theorem State.setStrand_ptp (s : State) (c k : Nat) (v : Strand) : (s.setStrand c k v).ptp = s.ptp := rfl
@[simp] theorem State.setStrand_completions (s : State) (c k : Nat) (v : Strand) : (s.setStrand c k v).completions = s.completions := rfl
@[simp] theorem State.setStrand_attest (s : State) (c k : Nat) (v : Strand) : (s.setStrand c k v).attest = s.attest := rfl
@[simp] theorem State.setStrand_hbmHealth (s : State) (c k : Nat) (v : Strand) : (s.setStrand c k v).hbmHealth = s.hbmHealth := rfl
@[simp] theorem State.setStrand_vgHealth (s : State) (c k : Nat) (v : Strand) : (s.setStrand c k v).vgHealth = s.vgHealth := rfl
@[simp] theorem State.setStrand_scrubCount (s : State) (c k : Nat) (v : Strand) : (s.setStrand c k v).scrubCount = s.scrubCount := rfl
@[simp] theorem State.setStrand_outbox (s : State) (c k : Nat) (v : Strand) : (s.setStrand c k v).outbox = s.outbox := rfl
@[simp] theorem State.setStrand_jbuf (s : State) (c k : Nat) (v : Strand) : (s.setStrand c k v).jbuf = s.jbuf := rfl
@[simp] theorem State.setStrand_reports (s : State) (c k : Nat) (v : Strand) : (s.setStrand c k v).reports = s.reports := rfl
@[simp] theorem State.setStrand_order (s : State) (c k : Nat) (v : Strand) : (s.setStrand c k v).order = s.order := rfl
@[simp] theorem State.modStrand_schedule (s : State) (c k : Nat) (f : Strand → Strand) : (s.modStrand c k f).schedule = s.schedule := rfl
@[simp] theorem State.modStrand_core (s : State) (c k : Nat) (f : Strand → Strand) : (s.modStrand c k f).core = s.core := rfl
@[simp] theorem State.modStrand_strand (s : State) (c k : Nat) (f : Strand → Strand) : (s.modStrand c k f).strand = s.strand := rfl
@[simp] theorem State.modStrand_port (s : State) (c k : Nat) (f : Strand → Strand) : (s.modStrand c k f).port = s.port := rfl
@[simp] theorem State.modStrand_seqTurn (s : State) (c k : Nat) (f : Strand → Strand) : (s.modStrand c k f).seqTurn = s.seqTurn := rfl
@[simp] theorem State.modStrand_free (s : State) (c k : Nat) (f : Strand → Strand) : (s.modStrand c k f).free = s.free := rfl
@[simp] theorem State.modStrand_nextId (s : State) (c k : Nat) (f : Strand → Strand) : (s.modStrand c k f).nextId = s.nextId := rfl
@[simp] theorem State.modStrand_pkg (s : State) (c k : Nat) (f : Strand → Strand) : (s.modStrand c k f).pkg = s.pkg := rfl
@[simp] theorem State.modStrand_flash (s : State) (c k : Nat) (f : Strand → Strand) : (s.modStrand c k f).flash = s.flash := rfl
@[simp] theorem State.modStrand_groups (s : State) (c k : Nat) (f : Strand → Strand) : (s.modStrand c k f).groups = s.groups := rfl
@[simp] theorem State.modStrand_launches (s : State) (c k : Nat) (f : Strand → Strand) : (s.modStrand c k f).launches = s.launches := rfl
@[simp] theorem State.modStrand_queues (s : State) (c k : Nat) (f : Strand → Strand) : (s.modStrand c k f).queues = s.queues := rfl
@[simp] theorem State.modStrand_contexts (s : State) (c k : Nat) (f : Strand → Strand) : (s.modStrand c k f).contexts = s.contexts := rfl
@[simp] theorem State.modStrand_worldKeys (s : State) (c k : Nat) (f : Strand → Strand) : (s.modStrand c k f).worldKeys = s.worldKeys := rfl
@[simp] theorem State.modStrand_pool (s : State) (c k : Nat) (f : Strand → Strand) : (s.modStrand c k f).pool = s.pool := rfl
@[simp] theorem State.modStrand_ports (s : State) (c k : Nat) (f : Strand → Strand) : (s.modStrand c k f).ports = s.ports := rfl
@[simp] theorem State.modStrand_puf (s : State) (c k : Nat) (f : Strand → Strand) : (s.modStrand c k f).puf = s.puf := rfl
@[simp] theorem State.modStrand_switches (s : State) (c k : Nat) (f : Strand → Strand) : (s.modStrand c k f).switches = s.switches := rfl
@[simp] theorem State.modStrand_hbm (s : State) (c k : Nat) (f : Strand → Strand) : (s.modStrand c k f).hbm = s.hbm := rfl
@[simp] theorem State.modStrand_sealed (s : State) (c k : Nat) (f : Strand → Strand) : (s.modStrand c k f).sealed = s.sealed := rfl
@[simp] theorem State.modStrand_weights (s : State) (c k : Nat) (f : Strand → Strand) : (s.modStrand c k f).weights = s.weights := rfl
@[simp] theorem State.modStrand_host (s : State) (c k : Nat) (f : Strand → Strand) : (s.modStrand c k f).host = s.host := rfl
@[simp] theorem State.modStrand_history (s : State) (c k : Nat) (f : Strand → Strand) : (s.modStrand c k f).history = s.history := rfl
@[simp] theorem State.modStrand_commits (s : State) (c k : Nat) (f : Strand → Strand) : (s.modStrand c k f).commits = s.commits := rfl
@[simp] theorem State.modStrand_marks (s : State) (c k : Nat) (f : Strand → Strand) : (s.modStrand c k f).marks = s.marks := rfl
@[simp] theorem State.modStrand_waitTable (s : State) (c k : Nat) (f : Strand → Strand) : (s.modStrand c k f).waitTable = s.waitTable := rfl
@[simp] theorem State.modStrand_ring (s : State) (c k : Nat) (f : Strand → Strand) : (s.modStrand c k f).ring = s.ring := rfl
@[simp] theorem State.modStrand_ptp (s : State) (c k : Nat) (f : Strand → Strand) : (s.modStrand c k f).ptp = s.ptp := rfl
@[simp] theorem State.modStrand_completions (s : State) (c k : Nat) (f : Strand → Strand) : (s.modStrand c k f).completions = s.completions := rfl
@[simp] theorem State.modStrand_attest (s : State) (c k : Nat) (f : Strand → Strand) : (s.modStrand c k f).attest = s.attest := rfl
@[simp] theorem State.modStrand_hbmHealth (s : State) (c k : Nat) (f : Strand → Strand) : (s.modStrand c k f).hbmHealth = s.hbmHealth := rfl
@[simp] theorem State.modStrand_vgHealth (s : State) (c k : Nat) (f : Strand → Strand) : (s.modStrand c k f).vgHealth = s.vgHealth := rfl
@[simp] theorem State.modStrand_scrubCount (s : State) (c k : Nat) (f : Strand → Strand) : (s.modStrand c k f).scrubCount = s.scrubCount := rfl
@[simp] theorem State.modStrand_outbox (s : State) (c k : Nat) (f : Strand → Strand) : (s.modStrand c k f).outbox = s.outbox := rfl
@[simp] theorem State.modStrand_jbuf (s : State) (c k : Nat) (f : Strand → Strand) : (s.modStrand c k f).jbuf = s.jbuf := rfl
@[simp] theorem State.modStrand_reports (s : State) (c k : Nat) (f : Strand → Strand) : (s.modStrand c k f).reports = s.reports := rfl
@[simp] theorem State.modStrand_order (s : State) (c k : Nat) (f : Strand → Strand) : (s.modStrand c k f).order = s.order := rfl
@[simp] theorem State.setMe_schedule (s : State) (v : Strand) : (s.setMe v).schedule = s.schedule := rfl
@[simp] theorem State.setMe_core (s : State) (v : Strand) : (s.setMe v).core = s.core := rfl
@[simp] theorem State.setMe_strand (s : State) (v : Strand) : (s.setMe v).strand = s.strand := rfl
@[simp] theorem State.setMe_port (s : State) (v : Strand) : (s.setMe v).port = s.port := rfl
@[simp] theorem State.setMe_seqTurn (s : State) (v : Strand) : (s.setMe v).seqTurn = s.seqTurn := rfl
@[simp] theorem State.setMe_free (s : State) (v : Strand) : (s.setMe v).free = s.free := rfl
@[simp] theorem State.setMe_nextId (s : State) (v : Strand) : (s.setMe v).nextId = s.nextId := rfl
@[simp] theorem State.setMe_pkg (s : State) (v : Strand) : (s.setMe v).pkg = s.pkg := rfl
@[simp] theorem State.setMe_flash (s : State) (v : Strand) : (s.setMe v).flash = s.flash := rfl
@[simp] theorem State.setMe_groups (s : State) (v : Strand) : (s.setMe v).groups = s.groups := rfl
@[simp] theorem State.setMe_launches (s : State) (v : Strand) : (s.setMe v).launches = s.launches := rfl
@[simp] theorem State.setMe_queues (s : State) (v : Strand) : (s.setMe v).queues = s.queues := rfl
@[simp] theorem State.setMe_contexts (s : State) (v : Strand) : (s.setMe v).contexts = s.contexts := rfl
@[simp] theorem State.setMe_worldKeys (s : State) (v : Strand) : (s.setMe v).worldKeys = s.worldKeys := rfl
@[simp] theorem State.setMe_pool (s : State) (v : Strand) : (s.setMe v).pool = s.pool := rfl
@[simp] theorem State.setMe_ports (s : State) (v : Strand) : (s.setMe v).ports = s.ports := rfl
@[simp] theorem State.setMe_puf (s : State) (v : Strand) : (s.setMe v).puf = s.puf := rfl
@[simp] theorem State.setMe_switches (s : State) (v : Strand) : (s.setMe v).switches = s.switches := rfl
@[simp] theorem State.setMe_hbm (s : State) (v : Strand) : (s.setMe v).hbm = s.hbm := rfl
@[simp] theorem State.setMe_sealed (s : State) (v : Strand) : (s.setMe v).sealed = s.sealed := rfl
@[simp] theorem State.setMe_weights (s : State) (v : Strand) : (s.setMe v).weights = s.weights := rfl
@[simp] theorem State.setMe_host (s : State) (v : Strand) : (s.setMe v).host = s.host := rfl
@[simp] theorem State.setMe_history (s : State) (v : Strand) : (s.setMe v).history = s.history := rfl
@[simp] theorem State.setMe_commits (s : State) (v : Strand) : (s.setMe v).commits = s.commits := rfl
@[simp] theorem State.setMe_marks (s : State) (v : Strand) : (s.setMe v).marks = s.marks := rfl
@[simp] theorem State.setMe_waitTable (s : State) (v : Strand) : (s.setMe v).waitTable = s.waitTable := rfl
@[simp] theorem State.setMe_ring (s : State) (v : Strand) : (s.setMe v).ring = s.ring := rfl
@[simp] theorem State.setMe_ptp (s : State) (v : Strand) : (s.setMe v).ptp = s.ptp := rfl
@[simp] theorem State.setMe_completions (s : State) (v : Strand) : (s.setMe v).completions = s.completions := rfl
@[simp] theorem State.setMe_attest (s : State) (v : Strand) : (s.setMe v).attest = s.attest := rfl
@[simp] theorem State.setMe_hbmHealth (s : State) (v : Strand) : (s.setMe v).hbmHealth = s.hbmHealth := rfl
@[simp] theorem State.setMe_vgHealth (s : State) (v : Strand) : (s.setMe v).vgHealth = s.vgHealth := rfl
@[simp] theorem State.setMe_scrubCount (s : State) (v : Strand) : (s.setMe v).scrubCount = s.scrubCount := rfl
@[simp] theorem State.setMe_outbox (s : State) (v : Strand) : (s.setMe v).outbox = s.outbox := rfl
@[simp] theorem State.setMe_jbuf (s : State) (v : Strand) : (s.setMe v).jbuf = s.jbuf := rfl
@[simp] theorem State.setMe_reports (s : State) (v : Strand) : (s.setMe v).reports = s.reports := rfl
@[simp] theorem State.setMe_order (s : State) (v : Strand) : (s.setMe v).order = s.order := rfl
@[simp] theorem State.modMe_schedule (s : State) (f : Strand → Strand) : (s.modMe f).schedule = s.schedule := rfl
@[simp] theorem State.modMe_core (s : State) (f : Strand → Strand) : (s.modMe f).core = s.core := rfl
@[simp] theorem State.modMe_strand (s : State) (f : Strand → Strand) : (s.modMe f).strand = s.strand := rfl
@[simp] theorem State.modMe_port (s : State) (f : Strand → Strand) : (s.modMe f).port = s.port := rfl
@[simp] theorem State.modMe_seqTurn (s : State) (f : Strand → Strand) : (s.modMe f).seqTurn = s.seqTurn := rfl
@[simp] theorem State.modMe_free (s : State) (f : Strand → Strand) : (s.modMe f).free = s.free := rfl
@[simp] theorem State.modMe_nextId (s : State) (f : Strand → Strand) : (s.modMe f).nextId = s.nextId := rfl
@[simp] theorem State.modMe_pkg (s : State) (f : Strand → Strand) : (s.modMe f).pkg = s.pkg := rfl
@[simp] theorem State.modMe_flash (s : State) (f : Strand → Strand) : (s.modMe f).flash = s.flash := rfl
@[simp] theorem State.modMe_groups (s : State) (f : Strand → Strand) : (s.modMe f).groups = s.groups := rfl
@[simp] theorem State.modMe_launches (s : State) (f : Strand → Strand) : (s.modMe f).launches = s.launches := rfl
@[simp] theorem State.modMe_queues (s : State) (f : Strand → Strand) : (s.modMe f).queues = s.queues := rfl
@[simp] theorem State.modMe_contexts (s : State) (f : Strand → Strand) : (s.modMe f).contexts = s.contexts := rfl
@[simp] theorem State.modMe_worldKeys (s : State) (f : Strand → Strand) : (s.modMe f).worldKeys = s.worldKeys := rfl
@[simp] theorem State.modMe_pool (s : State) (f : Strand → Strand) : (s.modMe f).pool = s.pool := rfl
@[simp] theorem State.modMe_ports (s : State) (f : Strand → Strand) : (s.modMe f).ports = s.ports := rfl
@[simp] theorem State.modMe_puf (s : State) (f : Strand → Strand) : (s.modMe f).puf = s.puf := rfl
@[simp] theorem State.modMe_switches (s : State) (f : Strand → Strand) : (s.modMe f).switches = s.switches := rfl
@[simp] theorem State.modMe_hbm (s : State) (f : Strand → Strand) : (s.modMe f).hbm = s.hbm := rfl
@[simp] theorem State.modMe_sealed (s : State) (f : Strand → Strand) : (s.modMe f).sealed = s.sealed := rfl
@[simp] theorem State.modMe_weights (s : State) (f : Strand → Strand) : (s.modMe f).weights = s.weights := rfl
@[simp] theorem State.modMe_host (s : State) (f : Strand → Strand) : (s.modMe f).host = s.host := rfl
@[simp] theorem State.modMe_history (s : State) (f : Strand → Strand) : (s.modMe f).history = s.history := rfl
@[simp] theorem State.modMe_commits (s : State) (f : Strand → Strand) : (s.modMe f).commits = s.commits := rfl
@[simp] theorem State.modMe_marks (s : State) (f : Strand → Strand) : (s.modMe f).marks = s.marks := rfl
@[simp] theorem State.modMe_waitTable (s : State) (f : Strand → Strand) : (s.modMe f).waitTable = s.waitTable := rfl
@[simp] theorem State.modMe_ring (s : State) (f : Strand → Strand) : (s.modMe f).ring = s.ring := rfl
@[simp] theorem State.modMe_ptp (s : State) (f : Strand → Strand) : (s.modMe f).ptp = s.ptp := rfl
@[simp] theorem State.modMe_completions (s : State) (f : Strand → Strand) : (s.modMe f).completions = s.completions := rfl
@[simp] theorem State.modMe_attest (s : State) (f : Strand → Strand) : (s.modMe f).attest = s.attest := rfl
@[simp] theorem State.modMe_hbmHealth (s : State) (f : Strand → Strand) : (s.modMe f).hbmHealth = s.hbmHealth := rfl
@[simp] theorem State.modMe_vgHealth (s : State) (f : Strand → Strand) : (s.modMe f).vgHealth = s.vgHealth := rfl
@[simp] theorem State.modMe_scrubCount (s : State) (f : Strand → Strand) : (s.modMe f).scrubCount = s.scrubCount := rfl
@[simp] theorem State.modMe_outbox (s : State) (f : Strand → Strand) : (s.modMe f).outbox = s.outbox := rfl
@[simp] theorem State.modMe_jbuf (s : State) (f : Strand → Strand) : (s.modMe f).jbuf = s.jbuf := rfl
@[simp] theorem State.modMe_reports (s : State) (f : Strand → Strand) : (s.modMe f).reports = s.reports := rfl
@[simp] theorem State.modMe_order (s : State) (f : Strand → Strand) : (s.modMe f).order = s.order := rfl
@[simp] theorem State.modQueue_schedule (s : State) (q : Nat) (f : Queue → Queue) : (s.modQueue q f).schedule = s.schedule := rfl
@[simp] theorem State.modQueue_core (s : State) (q : Nat) (f : Queue → Queue) : (s.modQueue q f).core = s.core := rfl
@[simp] theorem State.modQueue_strand (s : State) (q : Nat) (f : Queue → Queue) : (s.modQueue q f).strand = s.strand := rfl
@[simp] theorem State.modQueue_port (s : State) (q : Nat) (f : Queue → Queue) : (s.modQueue q f).port = s.port := rfl
@[simp] theorem State.modQueue_seqTurn (s : State) (q : Nat) (f : Queue → Queue) : (s.modQueue q f).seqTurn = s.seqTurn := rfl
@[simp] theorem State.modQueue_free (s : State) (q : Nat) (f : Queue → Queue) : (s.modQueue q f).free = s.free := rfl
@[simp] theorem State.modQueue_nextId (s : State) (q : Nat) (f : Queue → Queue) : (s.modQueue q f).nextId = s.nextId := rfl
@[simp] theorem State.modQueue_pkg (s : State) (q : Nat) (f : Queue → Queue) : (s.modQueue q f).pkg = s.pkg := rfl
@[simp] theorem State.modQueue_flash (s : State) (q : Nat) (f : Queue → Queue) : (s.modQueue q f).flash = s.flash := rfl
@[simp] theorem State.modQueue_cores (s : State) (q : Nat) (f : Queue → Queue) : (s.modQueue q f).cores = s.cores := rfl
@[simp] theorem State.modQueue_groups (s : State) (q : Nat) (f : Queue → Queue) : (s.modQueue q f).groups = s.groups := rfl
@[simp] theorem State.modQueue_launches (s : State) (q : Nat) (f : Queue → Queue) : (s.modQueue q f).launches = s.launches := rfl
@[simp] theorem State.modQueue_contexts (s : State) (q : Nat) (f : Queue → Queue) : (s.modQueue q f).contexts = s.contexts := rfl
@[simp] theorem State.modQueue_worldKeys (s : State) (q : Nat) (f : Queue → Queue) : (s.modQueue q f).worldKeys = s.worldKeys := rfl
@[simp] theorem State.modQueue_pool (s : State) (q : Nat) (f : Queue → Queue) : (s.modQueue q f).pool = s.pool := rfl
@[simp] theorem State.modQueue_ports (s : State) (q : Nat) (f : Queue → Queue) : (s.modQueue q f).ports = s.ports := rfl
@[simp] theorem State.modQueue_puf (s : State) (q : Nat) (f : Queue → Queue) : (s.modQueue q f).puf = s.puf := rfl
@[simp] theorem State.modQueue_switches (s : State) (q : Nat) (f : Queue → Queue) : (s.modQueue q f).switches = s.switches := rfl
@[simp] theorem State.modQueue_hbm (s : State) (q : Nat) (f : Queue → Queue) : (s.modQueue q f).hbm = s.hbm := rfl
@[simp] theorem State.modQueue_sealed (s : State) (q : Nat) (f : Queue → Queue) : (s.modQueue q f).sealed = s.sealed := rfl
@[simp] theorem State.modQueue_weights (s : State) (q : Nat) (f : Queue → Queue) : (s.modQueue q f).weights = s.weights := rfl
@[simp] theorem State.modQueue_host (s : State) (q : Nat) (f : Queue → Queue) : (s.modQueue q f).host = s.host := rfl
@[simp] theorem State.modQueue_history (s : State) (q : Nat) (f : Queue → Queue) : (s.modQueue q f).history = s.history := rfl
@[simp] theorem State.modQueue_commits (s : State) (q : Nat) (f : Queue → Queue) : (s.modQueue q f).commits = s.commits := rfl
@[simp] theorem State.modQueue_marks (s : State) (q : Nat) (f : Queue → Queue) : (s.modQueue q f).marks = s.marks := rfl
@[simp] theorem State.modQueue_waitTable (s : State) (q : Nat) (f : Queue → Queue) : (s.modQueue q f).waitTable = s.waitTable := rfl
@[simp] theorem State.modQueue_ring (s : State) (q : Nat) (f : Queue → Queue) : (s.modQueue q f).ring = s.ring := rfl
@[simp] theorem State.modQueue_ptp (s : State) (q : Nat) (f : Queue → Queue) : (s.modQueue q f).ptp = s.ptp := rfl
@[simp] theorem State.modQueue_completions (s : State) (q : Nat) (f : Queue → Queue) : (s.modQueue q f).completions = s.completions := rfl
@[simp] theorem State.modQueue_attest (s : State) (q : Nat) (f : Queue → Queue) : (s.modQueue q f).attest = s.attest := rfl
@[simp] theorem State.modQueue_hbmHealth (s : State) (q : Nat) (f : Queue → Queue) : (s.modQueue q f).hbmHealth = s.hbmHealth := rfl
@[simp] theorem State.modQueue_vgHealth (s : State) (q : Nat) (f : Queue → Queue) : (s.modQueue q f).vgHealth = s.vgHealth := rfl
@[simp] theorem State.modQueue_scrubCount (s : State) (q : Nat) (f : Queue → Queue) : (s.modQueue q f).scrubCount = s.scrubCount := rfl
@[simp] theorem State.modQueue_outbox (s : State) (q : Nat) (f : Queue → Queue) : (s.modQueue q f).outbox = s.outbox := rfl
@[simp] theorem State.modQueue_jbuf (s : State) (q : Nat) (f : Queue → Queue) : (s.modQueue q f).jbuf = s.jbuf := rfl
@[simp] theorem State.modQueue_reports (s : State) (q : Nat) (f : Queue → Queue) : (s.modQueue q f).reports = s.reports := rfl
@[simp] theorem State.modQueue_order (s : State) (q : Nat) (f : Queue → Queue) : (s.modQueue q f).order = s.order := rfl
@[simp] theorem State.modCtx_schedule (s : State) (n : Nat) (f : Context → Context) : (s.modCtx n f).schedule = s.schedule := rfl
@[simp] theorem State.modCtx_core (s : State) (n : Nat) (f : Context → Context) : (s.modCtx n f).core = s.core := rfl
@[simp] theorem State.modCtx_strand (s : State) (n : Nat) (f : Context → Context) : (s.modCtx n f).strand = s.strand := rfl
@[simp] theorem State.modCtx_port (s : State) (n : Nat) (f : Context → Context) : (s.modCtx n f).port = s.port := rfl
@[simp] theorem State.modCtx_seqTurn (s : State) (n : Nat) (f : Context → Context) : (s.modCtx n f).seqTurn = s.seqTurn := rfl
@[simp] theorem State.modCtx_free (s : State) (n : Nat) (f : Context → Context) : (s.modCtx n f).free = s.free := rfl
@[simp] theorem State.modCtx_nextId (s : State) (n : Nat) (f : Context → Context) : (s.modCtx n f).nextId = s.nextId := rfl
@[simp] theorem State.modCtx_pkg (s : State) (n : Nat) (f : Context → Context) : (s.modCtx n f).pkg = s.pkg := rfl
@[simp] theorem State.modCtx_flash (s : State) (n : Nat) (f : Context → Context) : (s.modCtx n f).flash = s.flash := rfl
@[simp] theorem State.modCtx_cores (s : State) (n : Nat) (f : Context → Context) : (s.modCtx n f).cores = s.cores := rfl
@[simp] theorem State.modCtx_groups (s : State) (n : Nat) (f : Context → Context) : (s.modCtx n f).groups = s.groups := rfl
@[simp] theorem State.modCtx_launches (s : State) (n : Nat) (f : Context → Context) : (s.modCtx n f).launches = s.launches := rfl
@[simp] theorem State.modCtx_queues (s : State) (n : Nat) (f : Context → Context) : (s.modCtx n f).queues = s.queues := rfl
@[simp] theorem State.modCtx_worldKeys (s : State) (n : Nat) (f : Context → Context) : (s.modCtx n f).worldKeys = s.worldKeys := rfl
@[simp] theorem State.modCtx_pool (s : State) (n : Nat) (f : Context → Context) : (s.modCtx n f).pool = s.pool := rfl
@[simp] theorem State.modCtx_ports (s : State) (n : Nat) (f : Context → Context) : (s.modCtx n f).ports = s.ports := rfl
@[simp] theorem State.modCtx_puf (s : State) (n : Nat) (f : Context → Context) : (s.modCtx n f).puf = s.puf := rfl
@[simp] theorem State.modCtx_switches (s : State) (n : Nat) (f : Context → Context) : (s.modCtx n f).switches = s.switches := rfl
@[simp] theorem State.modCtx_hbm (s : State) (n : Nat) (f : Context → Context) : (s.modCtx n f).hbm = s.hbm := rfl
@[simp] theorem State.modCtx_sealed (s : State) (n : Nat) (f : Context → Context) : (s.modCtx n f).sealed = s.sealed := rfl
@[simp] theorem State.modCtx_weights (s : State) (n : Nat) (f : Context → Context) : (s.modCtx n f).weights = s.weights := rfl
@[simp] theorem State.modCtx_host (s : State) (n : Nat) (f : Context → Context) : (s.modCtx n f).host = s.host := rfl
@[simp] theorem State.modCtx_history (s : State) (n : Nat) (f : Context → Context) : (s.modCtx n f).history = s.history := rfl
@[simp] theorem State.modCtx_commits (s : State) (n : Nat) (f : Context → Context) : (s.modCtx n f).commits = s.commits := rfl
@[simp] theorem State.modCtx_marks (s : State) (n : Nat) (f : Context → Context) : (s.modCtx n f).marks = s.marks := rfl
@[simp] theorem State.modCtx_waitTable (s : State) (n : Nat) (f : Context → Context) : (s.modCtx n f).waitTable = s.waitTable := rfl
@[simp] theorem State.modCtx_ring (s : State) (n : Nat) (f : Context → Context) : (s.modCtx n f).ring = s.ring := rfl
@[simp] theorem State.modCtx_ptp (s : State) (n : Nat) (f : Context → Context) : (s.modCtx n f).ptp = s.ptp := rfl
@[simp] theorem State.modCtx_completions (s : State) (n : Nat) (f : Context → Context) : (s.modCtx n f).completions = s.completions := rfl
@[simp] theorem State.modCtx_attest (s : State) (n : Nat) (f : Context → Context) : (s.modCtx n f).attest = s.attest := rfl
@[simp] theorem State.modCtx_hbmHealth (s : State) (n : Nat) (f : Context → Context) : (s.modCtx n f).hbmHealth = s.hbmHealth := rfl
@[simp] theorem State.modCtx_vgHealth (s : State) (n : Nat) (f : Context → Context) : (s.modCtx n f).vgHealth = s.vgHealth := rfl
@[simp] theorem State.modCtx_scrubCount (s : State) (n : Nat) (f : Context → Context) : (s.modCtx n f).scrubCount = s.scrubCount := rfl
@[simp] theorem State.modCtx_outbox (s : State) (n : Nat) (f : Context → Context) : (s.modCtx n f).outbox = s.outbox := rfl
@[simp] theorem State.modCtx_jbuf (s : State) (n : Nat) (f : Context → Context) : (s.modCtx n f).jbuf = s.jbuf := rfl
@[simp] theorem State.modCtx_reports (s : State) (n : Nat) (f : Context → Context) : (s.modCtx n f).reports = s.reports := rfl
@[simp] theorem State.modCtx_order (s : State) (n : Nat) (f : Context → Context) : (s.modCtx n f).order = s.order := rfl
@[simp] theorem State.modPort_schedule (s : State) (p : Nat) (f : Port → Port) : (s.modPort p f).schedule = s.schedule := rfl
@[simp] theorem State.modPort_core (s : State) (p : Nat) (f : Port → Port) : (s.modPort p f).core = s.core := rfl
@[simp] theorem State.modPort_strand (s : State) (p : Nat) (f : Port → Port) : (s.modPort p f).strand = s.strand := rfl
@[simp] theorem State.modPort_port (s : State) (p : Nat) (f : Port → Port) : (s.modPort p f).port = s.port := rfl
@[simp] theorem State.modPort_seqTurn (s : State) (p : Nat) (f : Port → Port) : (s.modPort p f).seqTurn = s.seqTurn := rfl
@[simp] theorem State.modPort_free (s : State) (p : Nat) (f : Port → Port) : (s.modPort p f).free = s.free := rfl
@[simp] theorem State.modPort_nextId (s : State) (p : Nat) (f : Port → Port) : (s.modPort p f).nextId = s.nextId := rfl
@[simp] theorem State.modPort_pkg (s : State) (p : Nat) (f : Port → Port) : (s.modPort p f).pkg = s.pkg := rfl
@[simp] theorem State.modPort_flash (s : State) (p : Nat) (f : Port → Port) : (s.modPort p f).flash = s.flash := rfl
@[simp] theorem State.modPort_cores (s : State) (p : Nat) (f : Port → Port) : (s.modPort p f).cores = s.cores := rfl
@[simp] theorem State.modPort_groups (s : State) (p : Nat) (f : Port → Port) : (s.modPort p f).groups = s.groups := rfl
@[simp] theorem State.modPort_launches (s : State) (p : Nat) (f : Port → Port) : (s.modPort p f).launches = s.launches := rfl
@[simp] theorem State.modPort_queues (s : State) (p : Nat) (f : Port → Port) : (s.modPort p f).queues = s.queues := rfl
@[simp] theorem State.modPort_contexts (s : State) (p : Nat) (f : Port → Port) : (s.modPort p f).contexts = s.contexts := rfl
@[simp] theorem State.modPort_worldKeys (s : State) (p : Nat) (f : Port → Port) : (s.modPort p f).worldKeys = s.worldKeys := rfl
@[simp] theorem State.modPort_pool (s : State) (p : Nat) (f : Port → Port) : (s.modPort p f).pool = s.pool := rfl
@[simp] theorem State.modPort_puf (s : State) (p : Nat) (f : Port → Port) : (s.modPort p f).puf = s.puf := rfl
@[simp] theorem State.modPort_switches (s : State) (p : Nat) (f : Port → Port) : (s.modPort p f).switches = s.switches := rfl
@[simp] theorem State.modPort_hbm (s : State) (p : Nat) (f : Port → Port) : (s.modPort p f).hbm = s.hbm := rfl
@[simp] theorem State.modPort_sealed (s : State) (p : Nat) (f : Port → Port) : (s.modPort p f).sealed = s.sealed := rfl
@[simp] theorem State.modPort_weights (s : State) (p : Nat) (f : Port → Port) : (s.modPort p f).weights = s.weights := rfl
@[simp] theorem State.modPort_host (s : State) (p : Nat) (f : Port → Port) : (s.modPort p f).host = s.host := rfl
@[simp] theorem State.modPort_history (s : State) (p : Nat) (f : Port → Port) : (s.modPort p f).history = s.history := rfl
@[simp] theorem State.modPort_commits (s : State) (p : Nat) (f : Port → Port) : (s.modPort p f).commits = s.commits := rfl
@[simp] theorem State.modPort_marks (s : State) (p : Nat) (f : Port → Port) : (s.modPort p f).marks = s.marks := rfl
@[simp] theorem State.modPort_waitTable (s : State) (p : Nat) (f : Port → Port) : (s.modPort p f).waitTable = s.waitTable := rfl
@[simp] theorem State.modPort_ring (s : State) (p : Nat) (f : Port → Port) : (s.modPort p f).ring = s.ring := rfl
@[simp] theorem State.modPort_ptp (s : State) (p : Nat) (f : Port → Port) : (s.modPort p f).ptp = s.ptp := rfl
@[simp] theorem State.modPort_completions (s : State) (p : Nat) (f : Port → Port) : (s.modPort p f).completions = s.completions := rfl
@[simp] theorem State.modPort_attest (s : State) (p : Nat) (f : Port → Port) : (s.modPort p f).attest = s.attest := rfl
@[simp] theorem State.modPort_hbmHealth (s : State) (p : Nat) (f : Port → Port) : (s.modPort p f).hbmHealth = s.hbmHealth := rfl
@[simp] theorem State.modPort_vgHealth (s : State) (p : Nat) (f : Port → Port) : (s.modPort p f).vgHealth = s.vgHealth := rfl
@[simp] theorem State.modPort_scrubCount (s : State) (p : Nat) (f : Port → Port) : (s.modPort p f).scrubCount = s.scrubCount := rfl
@[simp] theorem State.modPort_outbox (s : State) (p : Nat) (f : Port → Port) : (s.modPort p f).outbox = s.outbox := rfl
@[simp] theorem State.modPort_jbuf (s : State) (p : Nat) (f : Port → Port) : (s.modPort p f).jbuf = s.jbuf := rfl
@[simp] theorem State.modPort_reports (s : State) (p : Nat) (f : Port → Port) : (s.modPort p f).reports = s.reports := rfl
@[simp] theorem State.modPort_order (s : State) (p : Nat) (f : Port → Port) : (s.modPort p f).order = s.order := rfl
@[simp] theorem State.modSeq_schedule (s : State) (p : Nat) (f : Sequencer → Sequencer) : (s.modSeq p f).schedule = s.schedule := rfl
@[simp] theorem State.modSeq_core (s : State) (p : Nat) (f : Sequencer → Sequencer) : (s.modSeq p f).core = s.core := rfl
@[simp] theorem State.modSeq_strand (s : State) (p : Nat) (f : Sequencer → Sequencer) : (s.modSeq p f).strand = s.strand := rfl
@[simp] theorem State.modSeq_port (s : State) (p : Nat) (f : Sequencer → Sequencer) : (s.modSeq p f).port = s.port := rfl
@[simp] theorem State.modSeq_seqTurn (s : State) (p : Nat) (f : Sequencer → Sequencer) : (s.modSeq p f).seqTurn = s.seqTurn := rfl
@[simp] theorem State.modSeq_free (s : State) (p : Nat) (f : Sequencer → Sequencer) : (s.modSeq p f).free = s.free := rfl
@[simp] theorem State.modSeq_nextId (s : State) (p : Nat) (f : Sequencer → Sequencer) : (s.modSeq p f).nextId = s.nextId := rfl
@[simp] theorem State.modSeq_pkg (s : State) (p : Nat) (f : Sequencer → Sequencer) : (s.modSeq p f).pkg = s.pkg := rfl
@[simp] theorem State.modSeq_flash (s : State) (p : Nat) (f : Sequencer → Sequencer) : (s.modSeq p f).flash = s.flash := rfl
@[simp] theorem State.modSeq_cores (s : State) (p : Nat) (f : Sequencer → Sequencer) : (s.modSeq p f).cores = s.cores := rfl
@[simp] theorem State.modSeq_groups (s : State) (p : Nat) (f : Sequencer → Sequencer) : (s.modSeq p f).groups = s.groups := rfl
@[simp] theorem State.modSeq_launches (s : State) (p : Nat) (f : Sequencer → Sequencer) : (s.modSeq p f).launches = s.launches := rfl
@[simp] theorem State.modSeq_queues (s : State) (p : Nat) (f : Sequencer → Sequencer) : (s.modSeq p f).queues = s.queues := rfl
@[simp] theorem State.modSeq_contexts (s : State) (p : Nat) (f : Sequencer → Sequencer) : (s.modSeq p f).contexts = s.contexts := rfl
@[simp] theorem State.modSeq_worldKeys (s : State) (p : Nat) (f : Sequencer → Sequencer) : (s.modSeq p f).worldKeys = s.worldKeys := rfl
@[simp] theorem State.modSeq_pool (s : State) (p : Nat) (f : Sequencer → Sequencer) : (s.modSeq p f).pool = s.pool := rfl
@[simp] theorem State.modSeq_puf (s : State) (p : Nat) (f : Sequencer → Sequencer) : (s.modSeq p f).puf = s.puf := rfl
@[simp] theorem State.modSeq_switches (s : State) (p : Nat) (f : Sequencer → Sequencer) : (s.modSeq p f).switches = s.switches := rfl
@[simp] theorem State.modSeq_hbm (s : State) (p : Nat) (f : Sequencer → Sequencer) : (s.modSeq p f).hbm = s.hbm := rfl
@[simp] theorem State.modSeq_sealed (s : State) (p : Nat) (f : Sequencer → Sequencer) : (s.modSeq p f).sealed = s.sealed := rfl
@[simp] theorem State.modSeq_weights (s : State) (p : Nat) (f : Sequencer → Sequencer) : (s.modSeq p f).weights = s.weights := rfl
@[simp] theorem State.modSeq_host (s : State) (p : Nat) (f : Sequencer → Sequencer) : (s.modSeq p f).host = s.host := rfl
@[simp] theorem State.modSeq_history (s : State) (p : Nat) (f : Sequencer → Sequencer) : (s.modSeq p f).history = s.history := rfl
@[simp] theorem State.modSeq_commits (s : State) (p : Nat) (f : Sequencer → Sequencer) : (s.modSeq p f).commits = s.commits := rfl
@[simp] theorem State.modSeq_marks (s : State) (p : Nat) (f : Sequencer → Sequencer) : (s.modSeq p f).marks = s.marks := rfl
@[simp] theorem State.modSeq_waitTable (s : State) (p : Nat) (f : Sequencer → Sequencer) : (s.modSeq p f).waitTable = s.waitTable := rfl
@[simp] theorem State.modSeq_ring (s : State) (p : Nat) (f : Sequencer → Sequencer) : (s.modSeq p f).ring = s.ring := rfl
@[simp] theorem State.modSeq_ptp (s : State) (p : Nat) (f : Sequencer → Sequencer) : (s.modSeq p f).ptp = s.ptp := rfl
@[simp] theorem State.modSeq_completions (s : State) (p : Nat) (f : Sequencer → Sequencer) : (s.modSeq p f).completions = s.completions := rfl
@[simp] theorem State.modSeq_attest (s : State) (p : Nat) (f : Sequencer → Sequencer) : (s.modSeq p f).attest = s.attest := rfl
@[simp] theorem State.modSeq_hbmHealth (s : State) (p : Nat) (f : Sequencer → Sequencer) : (s.modSeq p f).hbmHealth = s.hbmHealth := rfl
@[simp] theorem State.modSeq_vgHealth (s : State) (p : Nat) (f : Sequencer → Sequencer) : (s.modSeq p f).vgHealth = s.vgHealth := rfl
@[simp] theorem State.modSeq_scrubCount (s : State) (p : Nat) (f : Sequencer → Sequencer) : (s.modSeq p f).scrubCount = s.scrubCount := rfl
@[simp] theorem State.modSeq_outbox (s : State) (p : Nat) (f : Sequencer → Sequencer) : (s.modSeq p f).outbox = s.outbox := rfl
@[simp] theorem State.modSeq_jbuf (s : State) (p : Nat) (f : Sequencer → Sequencer) : (s.modSeq p f).jbuf = s.jbuf := rfl
@[simp] theorem State.modSeq_reports (s : State) (p : Nat) (f : Sequencer → Sequencer) : (s.modSeq p f).reports = s.reports := rfl
@[simp] theorem State.modSeq_order (s : State) (p : Nat) (f : Sequencer → Sequencer) : (s.modSeq p f).order = s.order := rfl
@[simp] theorem State.modChan_schedule (s : State) (c ch : Nat) (f : Channel → Channel) : (s.modChan c ch f).schedule = s.schedule := rfl
@[simp] theorem State.modChan_core (s : State) (c ch : Nat) (f : Channel → Channel) : (s.modChan c ch f).core = s.core := rfl
@[simp] theorem State.modChan_strand (s : State) (c ch : Nat) (f : Channel → Channel) : (s.modChan c ch f).strand = s.strand := rfl
@[simp] theorem State.modChan_port (s : State) (c ch : Nat) (f : Channel → Channel) : (s.modChan c ch f).port = s.port := rfl
@[simp] theorem State.modChan_seqTurn (s : State) (c ch : Nat) (f : Channel → Channel) : (s.modChan c ch f).seqTurn = s.seqTurn := rfl
@[simp] theorem State.modChan_free (s : State) (c ch : Nat) (f : Channel → Channel) : (s.modChan c ch f).free = s.free := rfl
@[simp] theorem State.modChan_nextId (s : State) (c ch : Nat) (f : Channel → Channel) : (s.modChan c ch f).nextId = s.nextId := rfl
@[simp] theorem State.modChan_pkg (s : State) (c ch : Nat) (f : Channel → Channel) : (s.modChan c ch f).pkg = s.pkg := rfl
@[simp] theorem State.modChan_flash (s : State) (c ch : Nat) (f : Channel → Channel) : (s.modChan c ch f).flash = s.flash := rfl
@[simp] theorem State.modChan_groups (s : State) (c ch : Nat) (f : Channel → Channel) : (s.modChan c ch f).groups = s.groups := rfl
@[simp] theorem State.modChan_launches (s : State) (c ch : Nat) (f : Channel → Channel) : (s.modChan c ch f).launches = s.launches := rfl
@[simp] theorem State.modChan_queues (s : State) (c ch : Nat) (f : Channel → Channel) : (s.modChan c ch f).queues = s.queues := rfl
@[simp] theorem State.modChan_contexts (s : State) (c ch : Nat) (f : Channel → Channel) : (s.modChan c ch f).contexts = s.contexts := rfl
@[simp] theorem State.modChan_worldKeys (s : State) (c ch : Nat) (f : Channel → Channel) : (s.modChan c ch f).worldKeys = s.worldKeys := rfl
@[simp] theorem State.modChan_pool (s : State) (c ch : Nat) (f : Channel → Channel) : (s.modChan c ch f).pool = s.pool := rfl
@[simp] theorem State.modChan_ports (s : State) (c ch : Nat) (f : Channel → Channel) : (s.modChan c ch f).ports = s.ports := rfl
@[simp] theorem State.modChan_puf (s : State) (c ch : Nat) (f : Channel → Channel) : (s.modChan c ch f).puf = s.puf := rfl
@[simp] theorem State.modChan_switches (s : State) (c ch : Nat) (f : Channel → Channel) : (s.modChan c ch f).switches = s.switches := rfl
@[simp] theorem State.modChan_hbm (s : State) (c ch : Nat) (f : Channel → Channel) : (s.modChan c ch f).hbm = s.hbm := rfl
@[simp] theorem State.modChan_sealed (s : State) (c ch : Nat) (f : Channel → Channel) : (s.modChan c ch f).sealed = s.sealed := rfl
@[simp] theorem State.modChan_weights (s : State) (c ch : Nat) (f : Channel → Channel) : (s.modChan c ch f).weights = s.weights := rfl
@[simp] theorem State.modChan_host (s : State) (c ch : Nat) (f : Channel → Channel) : (s.modChan c ch f).host = s.host := rfl
@[simp] theorem State.modChan_history (s : State) (c ch : Nat) (f : Channel → Channel) : (s.modChan c ch f).history = s.history := rfl
@[simp] theorem State.modChan_commits (s : State) (c ch : Nat) (f : Channel → Channel) : (s.modChan c ch f).commits = s.commits := rfl
@[simp] theorem State.modChan_marks (s : State) (c ch : Nat) (f : Channel → Channel) : (s.modChan c ch f).marks = s.marks := rfl
@[simp] theorem State.modChan_waitTable (s : State) (c ch : Nat) (f : Channel → Channel) : (s.modChan c ch f).waitTable = s.waitTable := rfl
@[simp] theorem State.modChan_ring (s : State) (c ch : Nat) (f : Channel → Channel) : (s.modChan c ch f).ring = s.ring := rfl
@[simp] theorem State.modChan_ptp (s : State) (c ch : Nat) (f : Channel → Channel) : (s.modChan c ch f).ptp = s.ptp := rfl
@[simp] theorem State.modChan_completions (s : State) (c ch : Nat) (f : Channel → Channel) : (s.modChan c ch f).completions = s.completions := rfl
@[simp] theorem State.modChan_attest (s : State) (c ch : Nat) (f : Channel → Channel) : (s.modChan c ch f).attest = s.attest := rfl
@[simp] theorem State.modChan_hbmHealth (s : State) (c ch : Nat) (f : Channel → Channel) : (s.modChan c ch f).hbmHealth = s.hbmHealth := rfl
@[simp] theorem State.modChan_vgHealth (s : State) (c ch : Nat) (f : Channel → Channel) : (s.modChan c ch f).vgHealth = s.vgHealth := rfl
@[simp] theorem State.modChan_scrubCount (s : State) (c ch : Nat) (f : Channel → Channel) : (s.modChan c ch f).scrubCount = s.scrubCount := rfl
@[simp] theorem State.modChan_outbox (s : State) (c ch : Nat) (f : Channel → Channel) : (s.modChan c ch f).outbox = s.outbox := rfl
@[simp] theorem State.modChan_jbuf (s : State) (c ch : Nat) (f : Channel → Channel) : (s.modChan c ch f).jbuf = s.jbuf := rfl
@[simp] theorem State.modChan_reports (s : State) (c ch : Nat) (f : Channel → Channel) : (s.modChan c ch f).reports = s.reports := rfl
@[simp] theorem State.modChan_order (s : State) (c ch : Nat) (f : Channel → Channel) : (s.modChan c ch f).order = s.order := rfl
@[simp] theorem State.countMine_schedule (s : State) (i n : Nat) : (s.countMine i n).schedule = s.schedule := rfl
@[simp] theorem State.countMine_core (s : State) (i n : Nat) : (s.countMine i n).core = s.core := rfl
@[simp] theorem State.countMine_strand (s : State) (i n : Nat) : (s.countMine i n).strand = s.strand := rfl
@[simp] theorem State.countMine_port (s : State) (i n : Nat) : (s.countMine i n).port = s.port := rfl
@[simp] theorem State.countMine_seqTurn (s : State) (i n : Nat) : (s.countMine i n).seqTurn = s.seqTurn := rfl
@[simp] theorem State.countMine_free (s : State) (i n : Nat) : (s.countMine i n).free = s.free := rfl
@[simp] theorem State.countMine_nextId (s : State) (i n : Nat) : (s.countMine i n).nextId = s.nextId := rfl
@[simp] theorem State.countMine_pkg (s : State) (i n : Nat) : (s.countMine i n).pkg = s.pkg := rfl
@[simp] theorem State.countMine_flash (s : State) (i n : Nat) : (s.countMine i n).flash = s.flash := rfl
@[simp] theorem State.countMine_groups (s : State) (i n : Nat) : (s.countMine i n).groups = s.groups := rfl
@[simp] theorem State.countMine_launches (s : State) (i n : Nat) : (s.countMine i n).launches = s.launches := rfl
@[simp] theorem State.countMine_queues (s : State) (i n : Nat) : (s.countMine i n).queues = s.queues := rfl
@[simp] theorem State.countMine_contexts (s : State) (i n : Nat) : (s.countMine i n).contexts = s.contexts := rfl
@[simp] theorem State.countMine_worldKeys (s : State) (i n : Nat) : (s.countMine i n).worldKeys = s.worldKeys := rfl
@[simp] theorem State.countMine_pool (s : State) (i n : Nat) : (s.countMine i n).pool = s.pool := rfl
@[simp] theorem State.countMine_ports (s : State) (i n : Nat) : (s.countMine i n).ports = s.ports := rfl
@[simp] theorem State.countMine_puf (s : State) (i n : Nat) : (s.countMine i n).puf = s.puf := rfl
@[simp] theorem State.countMine_switches (s : State) (i n : Nat) : (s.countMine i n).switches = s.switches := rfl
@[simp] theorem State.countMine_hbm (s : State) (i n : Nat) : (s.countMine i n).hbm = s.hbm := rfl
@[simp] theorem State.countMine_sealed (s : State) (i n : Nat) : (s.countMine i n).sealed = s.sealed := rfl
@[simp] theorem State.countMine_weights (s : State) (i n : Nat) : (s.countMine i n).weights = s.weights := rfl
@[simp] theorem State.countMine_host (s : State) (i n : Nat) : (s.countMine i n).host = s.host := rfl
@[simp] theorem State.countMine_history (s : State) (i n : Nat) : (s.countMine i n).history = s.history := rfl
@[simp] theorem State.countMine_commits (s : State) (i n : Nat) : (s.countMine i n).commits = s.commits := rfl
@[simp] theorem State.countMine_marks (s : State) (i n : Nat) : (s.countMine i n).marks = s.marks := rfl
@[simp] theorem State.countMine_waitTable (s : State) (i n : Nat) : (s.countMine i n).waitTable = s.waitTable := rfl
@[simp] theorem State.countMine_ring (s : State) (i n : Nat) : (s.countMine i n).ring = s.ring := rfl
@[simp] theorem State.countMine_ptp (s : State) (i n : Nat) : (s.countMine i n).ptp = s.ptp := rfl
@[simp] theorem State.countMine_completions (s : State) (i n : Nat) : (s.countMine i n).completions = s.completions := rfl
@[simp] theorem State.countMine_attest (s : State) (i n : Nat) : (s.countMine i n).attest = s.attest := rfl
@[simp] theorem State.countMine_hbmHealth (s : State) (i n : Nat) : (s.countMine i n).hbmHealth = s.hbmHealth := rfl
@[simp] theorem State.countMine_vgHealth (s : State) (i n : Nat) : (s.countMine i n).vgHealth = s.vgHealth := rfl
@[simp] theorem State.countMine_scrubCount (s : State) (i n : Nat) : (s.countMine i n).scrubCount = s.scrubCount := rfl
@[simp] theorem State.countMine_outbox (s : State) (i n : Nat) : (s.countMine i n).outbox = s.outbox := rfl
@[simp] theorem State.countMine_jbuf (s : State) (i n : Nat) : (s.countMine i n).jbuf = s.jbuf := rfl
@[simp] theorem State.countMine_reports (s : State) (i n : Nat) : (s.countMine i n).reports = s.reports := rfl
@[simp] theorem State.countMine_order (s : State) (i n : Nat) : (s.countMine i n).order = s.order := rfl
@[simp] theorem Core.setStrand_fifo (s : Core) (k : Nat) (v : Strand) : (s.setStrand k v).fifo = s.fifo := rfl
@[simp] theorem Core.setStrand_sem (s : Core) (k : Nat) (v : Strand) : (s.setStrand k v).sem = s.sem := rfl
@[simp] theorem Core.setStrand_fresh (s : Core) (k : Nat) (v : Strand) : (s.setStrand k v).fresh = s.fresh := rfl
@[simp] theorem Core.setStrand_rotor (s : Core) (k : Nat) (v : Strand) : (s.setStrand k v).rotor = s.rotor := rfl
@[simp] theorem Core.setStrand_issued (s : Core) (k : Nat) (v : Strand) : (s.setStrand k v).issued = s.issued := rfl
@[simp] theorem Core.setStrand_out (s : Core) (k : Nat) (v : Strand) : (s.setStrand k v).out = s.out := rfl
@[simp] theorem Core.setStrand_vstarts (s : Core) (k : Nat) (v : Strand) : (s.setStrand k v).vstarts = s.vstarts := rfl
@[simp] theorem Core.setStrand_vbusy (s : Core) (k : Nat) (v : Strand) : (s.setStrand k v).vbusy = s.vbusy := rfl
@[simp] theorem Core.setStrand_vq (s : Core) (k : Nat) (v : Strand) : (s.setStrand k v).vq = s.vq := rfl
@[simp] theorem Core.setStrand_mq (s : Core) (k : Nat) (v : Strand) : (s.setStrand k v).mq = s.mq := rfl
@[simp] theorem Core.setStrand_cq (s : Core) (k : Nat) (v : Strand) : (s.setStrand k v).cq = s.cq := rfl
@[simp] theorem Core.setStrand_peeks (s : Core) (k : Nat) (v : Strand) : (s.setStrand k v).peeks = s.peeks := rfl
@[simp] theorem Core.setStrand_fq (s : Core) (k : Nat) (v : Strand) : (s.setStrand k v).fq = s.fq := rfl
@[simp] theorem Core.setStrand_tiles (s : Core) (k : Nat) (v : Strand) : (s.setStrand k v).tiles = s.tiles := rfl
@[simp] theorem Core.setStrand_banks (s : Core) (k : Nat) (v : Strand) : (s.setStrand k v).banks = s.banks := rfl
@[simp] theorem Core.setStrand_awayTiles (s : Core) (k : Nat) (v : Strand) : (s.setStrand k v).awayTiles = s.awayTiles := rfl
@[simp] theorem Core.setStrand_awayBanks (s : Core) (k : Nat) (v : Strand) : (s.setStrand k v).awayBanks = s.awayBanks := rfl
@[simp] theorem Core.setStrand_spad (s : Core) (k : Nat) (v : Strand) : (s.setStrand k v).spad = s.spad := rfl
@[simp] theorem Core.setStrand_pieces (s : Core) (k : Nat) (v : Strand) : (s.setStrand k v).pieces = s.pieces := rfl
@[simp] theorem Core.setStrand_channels (s : Core) (k : Nat) (v : Strand) : (s.setStrand k v).channels = s.channels := rfl
@[simp] theorem Core.setStrand_rlc (s : Core) (k : Nat) (v : Strand) : (s.setStrand k v).rlc = s.rlc := rfl
@[simp] theorem Core.setStrand_counters (s : Core) (k : Nat) (v : Strand) : (s.setStrand k v).counters = s.counters := rfl
@[simp] theorem Core.setStrand_group (s : Core) (k : Nat) (v : Strand) : (s.setStrand k v).group = s.group := rfl
@[simp] theorem Core.setStrand_world (s : Core) (k : Nat) (v : Strand) : (s.setStrand k v).world = s.world := rfl
@[simp] theorem Core.setStrand_gated (s : Core) (k : Nat) (v : Strand) : (s.setStrand k v).gated = s.gated := rfl
@[simp] theorem Core.setStrand_dbg (s : Core) (k : Nat) (v : Strand) : (s.setStrand k v).dbg = s.dbg := rfl
@[simp] theorem Core.setChan_strands (s : Core) (k : Nat) (v : Channel) : (s.setChan k v).strands = s.strands := rfl
@[simp] theorem Core.setChan_fifo (s : Core) (k : Nat) (v : Channel) : (s.setChan k v).fifo = s.fifo := rfl
@[simp] theorem Core.setChan_sem (s : Core) (k : Nat) (v : Channel) : (s.setChan k v).sem = s.sem := rfl
@[simp] theorem Core.setChan_fresh (s : Core) (k : Nat) (v : Channel) : (s.setChan k v).fresh = s.fresh := rfl
@[simp] theorem Core.setChan_rotor (s : Core) (k : Nat) (v : Channel) : (s.setChan k v).rotor = s.rotor := rfl
@[simp] theorem Core.setChan_issued (s : Core) (k : Nat) (v : Channel) : (s.setChan k v).issued = s.issued := rfl
@[simp] theorem Core.setChan_out (s : Core) (k : Nat) (v : Channel) : (s.setChan k v).out = s.out := rfl
@[simp] theorem Core.setChan_vstarts (s : Core) (k : Nat) (v : Channel) : (s.setChan k v).vstarts = s.vstarts := rfl
@[simp] theorem Core.setChan_vbusy (s : Core) (k : Nat) (v : Channel) : (s.setChan k v).vbusy = s.vbusy := rfl
@[simp] theorem Core.setChan_vq (s : Core) (k : Nat) (v : Channel) : (s.setChan k v).vq = s.vq := rfl
@[simp] theorem Core.setChan_mq (s : Core) (k : Nat) (v : Channel) : (s.setChan k v).mq = s.mq := rfl
@[simp] theorem Core.setChan_cq (s : Core) (k : Nat) (v : Channel) : (s.setChan k v).cq = s.cq := rfl
@[simp] theorem Core.setChan_peeks (s : Core) (k : Nat) (v : Channel) : (s.setChan k v).peeks = s.peeks := rfl
@[simp] theorem Core.setChan_fq (s : Core) (k : Nat) (v : Channel) : (s.setChan k v).fq = s.fq := rfl
@[simp] theorem Core.setChan_tiles (s : Core) (k : Nat) (v : Channel) : (s.setChan k v).tiles = s.tiles := rfl
@[simp] theorem Core.setChan_banks (s : Core) (k : Nat) (v : Channel) : (s.setChan k v).banks = s.banks := rfl
@[simp] theorem Core.setChan_awayTiles (s : Core) (k : Nat) (v : Channel) : (s.setChan k v).awayTiles = s.awayTiles := rfl
@[simp] theorem Core.setChan_awayBanks (s : Core) (k : Nat) (v : Channel) : (s.setChan k v).awayBanks = s.awayBanks := rfl
@[simp] theorem Core.setChan_spad (s : Core) (k : Nat) (v : Channel) : (s.setChan k v).spad = s.spad := rfl
@[simp] theorem Core.setChan_pieces (s : Core) (k : Nat) (v : Channel) : (s.setChan k v).pieces = s.pieces := rfl
@[simp] theorem Core.setChan_rlc (s : Core) (k : Nat) (v : Channel) : (s.setChan k v).rlc = s.rlc := rfl
@[simp] theorem Core.setChan_counters (s : Core) (k : Nat) (v : Channel) : (s.setChan k v).counters = s.counters := rfl
@[simp] theorem Core.setChan_group (s : Core) (k : Nat) (v : Channel) : (s.setChan k v).group = s.group := rfl
@[simp] theorem Core.setChan_world (s : Core) (k : Nat) (v : Channel) : (s.setChan k v).world = s.world := rfl
@[simp] theorem Core.setChan_gated (s : Core) (k : Nat) (v : Channel) : (s.setChan k v).gated = s.gated := rfl
@[simp] theorem Core.setChan_dbg (s : Core) (k : Nat) (v : Channel) : (s.setChan k v).dbg = s.dbg := rfl
@[simp] theorem Core.setTile_strands (s : Core) (k : Nat) (v : Tile) : (s.setTile k v).strands = s.strands := rfl
@[simp] theorem Core.setTile_fifo (s : Core) (k : Nat) (v : Tile) : (s.setTile k v).fifo = s.fifo := rfl
@[simp] theorem Core.setTile_sem (s : Core) (k : Nat) (v : Tile) : (s.setTile k v).sem = s.sem := rfl
@[simp] theorem Core.setTile_fresh (s : Core) (k : Nat) (v : Tile) : (s.setTile k v).fresh = s.fresh := rfl
@[simp] theorem Core.setTile_rotor (s : Core) (k : Nat) (v : Tile) : (s.setTile k v).rotor = s.rotor := rfl
@[simp] theorem Core.setTile_issued (s : Core) (k : Nat) (v : Tile) : (s.setTile k v).issued = s.issued := rfl
@[simp] theorem Core.setTile_out (s : Core) (k : Nat) (v : Tile) : (s.setTile k v).out = s.out := rfl
@[simp] theorem Core.setTile_vstarts (s : Core) (k : Nat) (v : Tile) : (s.setTile k v).vstarts = s.vstarts := rfl
@[simp] theorem Core.setTile_vbusy (s : Core) (k : Nat) (v : Tile) : (s.setTile k v).vbusy = s.vbusy := rfl
@[simp] theorem Core.setTile_vq (s : Core) (k : Nat) (v : Tile) : (s.setTile k v).vq = s.vq := rfl
@[simp] theorem Core.setTile_mq (s : Core) (k : Nat) (v : Tile) : (s.setTile k v).mq = s.mq := rfl
@[simp] theorem Core.setTile_cq (s : Core) (k : Nat) (v : Tile) : (s.setTile k v).cq = s.cq := rfl
@[simp] theorem Core.setTile_peeks (s : Core) (k : Nat) (v : Tile) : (s.setTile k v).peeks = s.peeks := rfl
@[simp] theorem Core.setTile_fq (s : Core) (k : Nat) (v : Tile) : (s.setTile k v).fq = s.fq := rfl
@[simp] theorem Core.setTile_banks (s : Core) (k : Nat) (v : Tile) : (s.setTile k v).banks = s.banks := rfl
@[simp] theorem Core.setTile_awayTiles (s : Core) (k : Nat) (v : Tile) : (s.setTile k v).awayTiles = s.awayTiles := rfl
@[simp] theorem Core.setTile_awayBanks (s : Core) (k : Nat) (v : Tile) : (s.setTile k v).awayBanks = s.awayBanks := rfl
@[simp] theorem Core.setTile_spad (s : Core) (k : Nat) (v : Tile) : (s.setTile k v).spad = s.spad := rfl
@[simp] theorem Core.setTile_pieces (s : Core) (k : Nat) (v : Tile) : (s.setTile k v).pieces = s.pieces := rfl
@[simp] theorem Core.setTile_channels (s : Core) (k : Nat) (v : Tile) : (s.setTile k v).channels = s.channels := rfl
@[simp] theorem Core.setTile_rlc (s : Core) (k : Nat) (v : Tile) : (s.setTile k v).rlc = s.rlc := rfl
@[simp] theorem Core.setTile_counters (s : Core) (k : Nat) (v : Tile) : (s.setTile k v).counters = s.counters := rfl
@[simp] theorem Core.setTile_group (s : Core) (k : Nat) (v : Tile) : (s.setTile k v).group = s.group := rfl
@[simp] theorem Core.setTile_world (s : Core) (k : Nat) (v : Tile) : (s.setTile k v).world = s.world := rfl
@[simp] theorem Core.setTile_gated (s : Core) (k : Nat) (v : Tile) : (s.setTile k v).gated = s.gated := rfl
@[simp] theorem Core.setTile_dbg (s : Core) (k : Nat) (v : Tile) : (s.setTile k v).dbg = s.dbg := rfl
@[simp] theorem Core.setBank_strands (s : Core) (k : Nat) (v : BankGroup) : (s.setBank k v).strands = s.strands := rfl
@[simp] theorem Core.setBank_fifo (s : Core) (k : Nat) (v : BankGroup) : (s.setBank k v).fifo = s.fifo := rfl
@[simp] theorem Core.setBank_sem (s : Core) (k : Nat) (v : BankGroup) : (s.setBank k v).sem = s.sem := rfl
@[simp] theorem Core.setBank_fresh (s : Core) (k : Nat) (v : BankGroup) : (s.setBank k v).fresh = s.fresh := rfl
@[simp] theorem Core.setBank_rotor (s : Core) (k : Nat) (v : BankGroup) : (s.setBank k v).rotor = s.rotor := rfl
@[simp] theorem Core.setBank_issued (s : Core) (k : Nat) (v : BankGroup) : (s.setBank k v).issued = s.issued := rfl
@[simp] theorem Core.setBank_out (s : Core) (k : Nat) (v : BankGroup) : (s.setBank k v).out = s.out := rfl
@[simp] theorem Core.setBank_vstarts (s : Core) (k : Nat) (v : BankGroup) : (s.setBank k v).vstarts = s.vstarts := rfl
@[simp] theorem Core.setBank_vbusy (s : Core) (k : Nat) (v : BankGroup) : (s.setBank k v).vbusy = s.vbusy := rfl
@[simp] theorem Core.setBank_vq (s : Core) (k : Nat) (v : BankGroup) : (s.setBank k v).vq = s.vq := rfl
@[simp] theorem Core.setBank_mq (s : Core) (k : Nat) (v : BankGroup) : (s.setBank k v).mq = s.mq := rfl
@[simp] theorem Core.setBank_cq (s : Core) (k : Nat) (v : BankGroup) : (s.setBank k v).cq = s.cq := rfl
@[simp] theorem Core.setBank_peeks (s : Core) (k : Nat) (v : BankGroup) : (s.setBank k v).peeks = s.peeks := rfl
@[simp] theorem Core.setBank_fq (s : Core) (k : Nat) (v : BankGroup) : (s.setBank k v).fq = s.fq := rfl
@[simp] theorem Core.setBank_tiles (s : Core) (k : Nat) (v : BankGroup) : (s.setBank k v).tiles = s.tiles := rfl
@[simp] theorem Core.setBank_awayTiles (s : Core) (k : Nat) (v : BankGroup) : (s.setBank k v).awayTiles = s.awayTiles := rfl
@[simp] theorem Core.setBank_awayBanks (s : Core) (k : Nat) (v : BankGroup) : (s.setBank k v).awayBanks = s.awayBanks := rfl
@[simp] theorem Core.setBank_spad (s : Core) (k : Nat) (v : BankGroup) : (s.setBank k v).spad = s.spad := rfl
@[simp] theorem Core.setBank_pieces (s : Core) (k : Nat) (v : BankGroup) : (s.setBank k v).pieces = s.pieces := rfl
@[simp] theorem Core.setBank_channels (s : Core) (k : Nat) (v : BankGroup) : (s.setBank k v).channels = s.channels := rfl
@[simp] theorem Core.setBank_rlc (s : Core) (k : Nat) (v : BankGroup) : (s.setBank k v).rlc = s.rlc := rfl
@[simp] theorem Core.setBank_counters (s : Core) (k : Nat) (v : BankGroup) : (s.setBank k v).counters = s.counters := rfl
@[simp] theorem Core.setBank_group (s : Core) (k : Nat) (v : BankGroup) : (s.setBank k v).group = s.group := rfl
@[simp] theorem Core.setBank_world (s : Core) (k : Nat) (v : BankGroup) : (s.setBank k v).world = s.world := rfl
@[simp] theorem Core.setBank_gated (s : Core) (k : Nat) (v : BankGroup) : (s.setBank k v).gated = s.gated := rfl
@[simp] theorem Core.setBank_dbg (s : Core) (k : Nat) (v : BankGroup) : (s.setBank k v).dbg = s.dbg := rfl
@[simp] theorem Core.setTokens_strands (s : Core) (f : Nat) (l : List Mark) : (s.setTokens f l).strands = s.strands := rfl
@[simp] theorem Core.setTokens_sem (s : Core) (f : Nat) (l : List Mark) : (s.setTokens f l).sem = s.sem := rfl
@[simp] theorem Core.setTokens_fresh (s : Core) (f : Nat) (l : List Mark) : (s.setTokens f l).fresh = s.fresh := rfl
@[simp] theorem Core.setTokens_rotor (s : Core) (f : Nat) (l : List Mark) : (s.setTokens f l).rotor = s.rotor := rfl
@[simp] theorem Core.setTokens_issued (s : Core) (f : Nat) (l : List Mark) : (s.setTokens f l).issued = s.issued := rfl
@[simp] theorem Core.setTokens_out (s : Core) (f : Nat) (l : List Mark) : (s.setTokens f l).out = s.out := rfl
@[simp] theorem Core.setTokens_vstarts (s : Core) (f : Nat) (l : List Mark) : (s.setTokens f l).vstarts = s.vstarts := rfl
@[simp] theorem Core.setTokens_vbusy (s : Core) (f : Nat) (l : List Mark) : (s.setTokens f l).vbusy = s.vbusy := rfl
@[simp] theorem Core.setTokens_vq (s : Core) (f : Nat) (l : List Mark) : (s.setTokens f l).vq = s.vq := rfl
@[simp] theorem Core.setTokens_mq (s : Core) (f : Nat) (l : List Mark) : (s.setTokens f l).mq = s.mq := rfl
@[simp] theorem Core.setTokens_cq (s : Core) (f : Nat) (l : List Mark) : (s.setTokens f l).cq = s.cq := rfl
@[simp] theorem Core.setTokens_peeks (s : Core) (f : Nat) (l : List Mark) : (s.setTokens f l).peeks = s.peeks := rfl
@[simp] theorem Core.setTokens_fq (s : Core) (f : Nat) (l : List Mark) : (s.setTokens f l).fq = s.fq := rfl
@[simp] theorem Core.setTokens_tiles (s : Core) (f : Nat) (l : List Mark) : (s.setTokens f l).tiles = s.tiles := rfl
@[simp] theorem Core.setTokens_banks (s : Core) (f : Nat) (l : List Mark) : (s.setTokens f l).banks = s.banks := rfl
@[simp] theorem Core.setTokens_awayTiles (s : Core) (f : Nat) (l : List Mark) : (s.setTokens f l).awayTiles = s.awayTiles := rfl
@[simp] theorem Core.setTokens_awayBanks (s : Core) (f : Nat) (l : List Mark) : (s.setTokens f l).awayBanks = s.awayBanks := rfl
@[simp] theorem Core.setTokens_spad (s : Core) (f : Nat) (l : List Mark) : (s.setTokens f l).spad = s.spad := rfl
@[simp] theorem Core.setTokens_pieces (s : Core) (f : Nat) (l : List Mark) : (s.setTokens f l).pieces = s.pieces := rfl
@[simp] theorem Core.setTokens_channels (s : Core) (f : Nat) (l : List Mark) : (s.setTokens f l).channels = s.channels := rfl
@[simp] theorem Core.setTokens_rlc (s : Core) (f : Nat) (l : List Mark) : (s.setTokens f l).rlc = s.rlc := rfl
@[simp] theorem Core.setTokens_counters (s : Core) (f : Nat) (l : List Mark) : (s.setTokens f l).counters = s.counters := rfl
@[simp] theorem Core.setTokens_group (s : Core) (f : Nat) (l : List Mark) : (s.setTokens f l).group = s.group := rfl
@[simp] theorem Core.setTokens_world (s : Core) (f : Nat) (l : List Mark) : (s.setTokens f l).world = s.world := rfl
@[simp] theorem Core.setTokens_gated (s : Core) (f : Nat) (l : List Mark) : (s.setTokens f l).gated = s.gated := rfl
@[simp] theorem Core.setTokens_dbg (s : Core) (f : Nat) (l : List Mark) : (s.setTokens f l).dbg = s.dbg := rfl
@[simp] theorem Core.came_strands (s : Core) (k n : Nat) : (s.came k n).strands = s.strands := rfl
@[simp] theorem Core.came_fifo (s : Core) (k n : Nat) : (s.came k n).fifo = s.fifo := rfl
@[simp] theorem Core.came_sem (s : Core) (k n : Nat) : (s.came k n).sem = s.sem := rfl
@[simp] theorem Core.came_rotor (s : Core) (k n : Nat) : (s.came k n).rotor = s.rotor := rfl
@[simp] theorem Core.came_issued (s : Core) (k n : Nat) : (s.came k n).issued = s.issued := rfl
@[simp] theorem Core.came_out (s : Core) (k n : Nat) : (s.came k n).out = s.out := rfl
@[simp] theorem Core.came_vstarts (s : Core) (k n : Nat) : (s.came k n).vstarts = s.vstarts := rfl
@[simp] theorem Core.came_vbusy (s : Core) (k n : Nat) : (s.came k n).vbusy = s.vbusy := rfl
@[simp] theorem Core.came_vq (s : Core) (k n : Nat) : (s.came k n).vq = s.vq := rfl
@[simp] theorem Core.came_mq (s : Core) (k n : Nat) : (s.came k n).mq = s.mq := rfl
@[simp] theorem Core.came_cq (s : Core) (k n : Nat) : (s.came k n).cq = s.cq := rfl
@[simp] theorem Core.came_peeks (s : Core) (k n : Nat) : (s.came k n).peeks = s.peeks := rfl
@[simp] theorem Core.came_fq (s : Core) (k n : Nat) : (s.came k n).fq = s.fq := rfl
@[simp] theorem Core.came_tiles (s : Core) (k n : Nat) : (s.came k n).tiles = s.tiles := rfl
@[simp] theorem Core.came_banks (s : Core) (k n : Nat) : (s.came k n).banks = s.banks := rfl
@[simp] theorem Core.came_awayTiles (s : Core) (k n : Nat) : (s.came k n).awayTiles = s.awayTiles := rfl
@[simp] theorem Core.came_awayBanks (s : Core) (k n : Nat) : (s.came k n).awayBanks = s.awayBanks := rfl
@[simp] theorem Core.came_spad (s : Core) (k n : Nat) : (s.came k n).spad = s.spad := rfl
@[simp] theorem Core.came_pieces (s : Core) (k n : Nat) : (s.came k n).pieces = s.pieces := rfl
@[simp] theorem Core.came_channels (s : Core) (k n : Nat) : (s.came k n).channels = s.channels := rfl
@[simp] theorem Core.came_rlc (s : Core) (k n : Nat) : (s.came k n).rlc = s.rlc := rfl
@[simp] theorem Core.came_counters (s : Core) (k n : Nat) : (s.came k n).counters = s.counters := rfl
@[simp] theorem Core.came_group (s : Core) (k n : Nat) : (s.came k n).group = s.group := rfl
@[simp] theorem Core.came_world (s : Core) (k n : Nat) : (s.came k n).world = s.world := rfl
@[simp] theorem Core.came_gated (s : Core) (k n : Nat) : (s.came k n).gated = s.gated := rfl
@[simp] theorem Core.came_dbg (s : Core) (k n : Nat) : (s.came k n).dbg = s.dbg := rfl
@[simp] theorem Core.count_strands (s : Core) (i n : Nat) : (s.count i n).strands = s.strands := rfl
@[simp] theorem Core.count_fifo (s : Core) (i n : Nat) : (s.count i n).fifo = s.fifo := rfl
@[simp] theorem Core.count_sem (s : Core) (i n : Nat) : (s.count i n).sem = s.sem := rfl
@[simp] theorem Core.count_fresh (s : Core) (i n : Nat) : (s.count i n).fresh = s.fresh := rfl
@[simp] theorem Core.count_rotor (s : Core) (i n : Nat) : (s.count i n).rotor = s.rotor := rfl
@[simp] theorem Core.count_issued (s : Core) (i n : Nat) : (s.count i n).issued = s.issued := rfl
@[simp] theorem Core.count_out (s : Core) (i n : Nat) : (s.count i n).out = s.out := rfl
@[simp] theorem Core.count_vstarts (s : Core) (i n : Nat) : (s.count i n).vstarts = s.vstarts := rfl
@[simp] theorem Core.count_vbusy (s : Core) (i n : Nat) : (s.count i n).vbusy = s.vbusy := rfl
@[simp] theorem Core.count_vq (s : Core) (i n : Nat) : (s.count i n).vq = s.vq := rfl
@[simp] theorem Core.count_mq (s : Core) (i n : Nat) : (s.count i n).mq = s.mq := rfl
@[simp] theorem Core.count_cq (s : Core) (i n : Nat) : (s.count i n).cq = s.cq := rfl
@[simp] theorem Core.count_peeks (s : Core) (i n : Nat) : (s.count i n).peeks = s.peeks := rfl
@[simp] theorem Core.count_fq (s : Core) (i n : Nat) : (s.count i n).fq = s.fq := rfl
@[simp] theorem Core.count_tiles (s : Core) (i n : Nat) : (s.count i n).tiles = s.tiles := rfl
@[simp] theorem Core.count_banks (s : Core) (i n : Nat) : (s.count i n).banks = s.banks := rfl
@[simp] theorem Core.count_awayTiles (s : Core) (i n : Nat) : (s.count i n).awayTiles = s.awayTiles := rfl
@[simp] theorem Core.count_awayBanks (s : Core) (i n : Nat) : (s.count i n).awayBanks = s.awayBanks := rfl
@[simp] theorem Core.count_spad (s : Core) (i n : Nat) : (s.count i n).spad = s.spad := rfl
@[simp] theorem Core.count_pieces (s : Core) (i n : Nat) : (s.count i n).pieces = s.pieces := rfl
@[simp] theorem Core.count_channels (s : Core) (i n : Nat) : (s.count i n).channels = s.channels := rfl
@[simp] theorem Core.count_rlc (s : Core) (i n : Nat) : (s.count i n).rlc = s.rlc := rfl
@[simp] theorem Core.count_group (s : Core) (i n : Nat) : (s.count i n).group = s.group := rfl
@[simp] theorem Core.count_world (s : Core) (i n : Nat) : (s.count i n).world = s.world := rfl
@[simp] theorem Core.count_gated (s : Core) (i n : Nat) : (s.count i n).gated = s.gated := rfl
@[simp] theorem Core.count_dbg (s : Core) (i n : Nat) : (s.count i n).dbg = s.dbg := rfl
@[simp] theorem Strand.setBtr_life (s : Strand) (k : Nat) (b : Btr) : (s.setBtr k b).life = s.life := rfl
@[simp] theorem Strand.setBtr_haltedFrom (s : Strand) (k : Nat) (b : Btr) : (s.setBtr k b).haltedFrom = s.haltedFrom := rfl
@[simp] theorem Strand.setBtr_haltMark (s : Strand) (k : Nat) (b : Btr) : (s.setBtr k b).haltMark = s.haltMark := rfl
@[simp] theorem Strand.setBtr_unmarked (s : Strand) (k : Nat) (b : Btr) : (s.setBtr k b).unmarked = s.unmarked := rfl
@[simp] theorem Strand.setBtr_x (s : Strand) (k : Nat) (b : Btr) : (s.setBtr k b).x = s.x := rfl
@[simp] theorem Strand.setBtr_o (s : Strand) (k : Nat) (b : Btr) : (s.setBtr k b).o = s.o := rfl
@[simp] theorem Strand.setBtr_l (s : Strand) (k : Nat) (b : Btr) : (s.setBtr k b).l = s.l := rfl
@[simp] theorem Strand.setBtr_p (s : Strand) (k : Nat) (b : Btr) : (s.setBtr k b).p = s.p := rfl
@[simp] theorem Strand.setBtr_sg (s : Strand) (k : Nat) (b : Btr) : (s.setBtr k b).sg = s.sg := rfl
@[simp] theorem Strand.setBtr_c (s : Strand) (k : Nat) (b : Btr) : (s.setBtr k b).c = s.c := rfl
@[simp] theorem Strand.setBtr_vr (s : Strand) (k : Nat) (b : Btr) : (s.setBtr k b).vr = s.vr := rfl
@[simp] theorem Strand.setBtr_w (s : Strand) (k : Nat) (b : Btr) : (s.setBtr k b).w = s.w := rfl
@[simp] theorem Strand.setBtr_z (s : Strand) (k : Nat) (b : Btr) : (s.setBtr k b).z = s.z := rfl
@[simp] theorem Strand.setBtr_m (s : Strand) (k : Nat) (b : Btr) : (s.setBtr k b).m = s.m := rfl
@[simp] theorem Strand.setBtr_vt (s : Strand) (k : Nat) (b : Btr) : (s.setBtr k b).vt = s.vt := rfl
@[simp] theorem Strand.setBtr_pc (s : Strand) (k : Nat) (b : Btr) : (s.setBtr k b).pc = s.pc := rfl
@[simp] theorem Strand.setBtr_rb (s : Strand) (k : Nat) (b : Btr) : (s.setBtr k b).rb = s.rb := rfl
@[simp] theorem Strand.setBtr_loops (s : Strand) (k : Nat) (b : Btr) : (s.setBtr k b).loops = s.loops := rfl
@[simp] theorem Strand.setBtr_loopSpare (s : Strand) (k : Nat) (b : Btr) : (s.setBtr k b).loopSpare = s.loopSpare := rfl
@[simp] theorem Strand.setBtr_fgen (s : Strand) (k : Nat) (b : Btr) : (s.setBtr k b).fgen = s.fgen := rfl
@[simp] theorem Strand.setBtr_epc (s : Strand) (k : Nat) (b : Btr) : (s.setBtr k b).epc = s.epc := rfl
@[simp] theorem Strand.setBtr_ecause (s : Strand) (k : Nat) (b : Btr) : (s.setBtr k b).ecause = s.ecause := rfl
@[simp] theorem Strand.setBtr_einfo (s : Strand) (k : Nat) (b : Btr) : (s.setBtr k b).einfo = s.einfo := rfl
@[simp] theorem Strand.setBtr_einfo2 (s : Strand) (k : Nat) (b : Btr) : (s.setBtr k b).einfo2 = s.einfo2 := rfl
@[simp] theorem Strand.setBtr_ho (s : Strand) (k : Nat) (b : Btr) : (s.setBtr k b).ho = s.ho := rfl
@[simp] theorem Strand.setBtr_hl (s : Strand) (k : Nat) (b : Btr) : (s.setBtr k b).hl = s.hl := rfl
@[simp] theorem Strand.setBtr_hidden (s : Strand) (k : Nat) (b : Btr) : (s.setBtr k b).hidden = s.hidden := rfl
@[simp] theorem Strand.setBtr_svrsp (s : Strand) (k : Nat) (b : Btr) : (s.setBtr k b).svrsp = s.svrsp := rfl
@[simp] theorem Strand.setBtr_svtag (s : Strand) (k : Nat) (b : Btr) : (s.setBtr k b).svtag = s.svtag := rfl
@[simp] theorem Strand.setBtr_waitHalf (s : Strand) (k : Nat) (b : Btr) : (s.setBtr k b).waitHalf = s.waitHalf := rfl
@[simp] theorem Strand.setBtr_arr (s : Strand) (k : Nat) (b : Btr) : (s.setBtr k b).arr = s.arr := rfl
@[simp] theorem Strand.setBtr_wait (s : Strand) (k : Nat) (b : Btr) : (s.setBtr k b).wait = s.wait := rfl
@[simp] theorem Strand.setBtr_micro (s : Strand) (k : Nat) (b : Btr) : (s.setBtr k b).micro = s.micro := rfl
@[simp] theorem Strand.setBtr_preemptAt (s : Strand) (k : Nat) (b : Btr) : (s.setBtr k b).preemptAt = s.preemptAt := rfl
@[simp] theorem Strand.setBtr_stopSoon (s : Strand) (k : Nat) (b : Btr) : (s.setBtr k b).stopSoon = s.stopSoon := rfl
@[simp] theorem Strand.setBtr_haltSoon (s : Strand) (k : Nat) (b : Btr) : (s.setBtr k b).haltSoon = s.haltSoon := rfl
@[simp] theorem Strand.setBtr_outs (s : Strand) (k : Nat) (b : Btr) : (s.setBtr k b).outs = s.outs := rfl
@[simp] theorem Strand.setBtr_behind (s : Strand) (k : Nat) (b : Btr) : (s.setBtr k b).behind = s.behind := rfl
@[simp] theorem Strand.setBtr_ending (s : Strand) (k : Nat) (b : Btr) : (s.setBtr k b).ending = s.ending := rfl
@[simp] theorem Strand.setBtr_released (s : Strand) (k : Nat) (b : Btr) : (s.setBtr k b).released = s.released := rfl
@[simp] theorem Strand.setBtr_stepping (s : Strand) (k : Nat) (b : Btr) : (s.setBtr k b).stepping = s.stepping := rfl
@[simp] theorem Strand.setBtr_skipBreak (s : Strand) (k : Nat) (b : Btr) : (s.setBtr k b).skipBreak = s.skipBreak := rfl
@[simp] theorem Strand.setBtr_watchHit (s : Strand) (k : Nat) (b : Btr) : (s.setBtr k b).watchHit = s.watchHit := rfl
@[simp] theorem Strand.setBtr_mark (s : Strand) (k : Nat) (b : Btr) : (s.setBtr k b).mark = s.mark := rfl

/-! Reading a part after writing it. -/

@[simp] theorem State.coreAt_setCore_self (s : State) (c : Nat) (v : Core) : (s.setCore c v).coreAt c = v := by
  simp [State.coreAt, State.setCore]
theorem State.coreAt_setCore_ne (s : State) {c c' : Nat} (v : Core) (h : c' ≠ c) :
    (s.setCore c v).coreAt c' = s.coreAt c' := by
  simp [State.coreAt, State.setCore, Tbl.get_set_ne _ _ v h]
@[simp] theorem State.coreAt_modCore_self (s : State) (c : Nat) (f : Core → Core) :
    (s.modCore c f).coreAt c = f (s.coreAt c) := by simp [State.modCore]
theorem State.coreAt_modCore_ne (s : State) {c c' : Nat} (f : Core → Core) (h : c' ≠ c) :
    (s.modCore c f).coreAt c' = s.coreAt c' := by simp [State.modCore, State.coreAt_setCore_ne s _ h]
@[simp] theorem Core.strandAt_setStrand_self (c : Core) (k : Nat) (v : Strand) : (c.setStrand k v).strandAt k = v := by
  simp [Core.strandAt, Core.setStrand]
theorem Core.strandAt_setStrand_ne (c : Core) {k j : Nat} (v : Strand) (h : j ≠ k) :
    (c.setStrand k v).strandAt j = c.strandAt j := by
  simp [Core.strandAt, Core.setStrand, Tbl.get_set_ne _ _ v h]
@[simp] theorem State.me_setMe (s : State) (v : Strand) : (s.setMe v).me = v := by
  simp [State.me, State.setMe, State.setStrand, State.strandAt]
@[simp] theorem State.me_modMe (s : State) (f : Strand → Strand) : (s.modMe f).me = f s.me := by simp [State.modMe]
@[simp] theorem State.myCore_setCore (s : State) (v : Core) : (s.setCore s.core v).myCore = v := by
  simp [State.myCore]
@[simp] theorem State.myCore_modCore (s : State) (f : Core → Core) : (s.modCore s.core f).myCore = f s.myCore := by
  simp [State.myCore]
@[simp] theorem State.myCore_setMe (s : State) (v : Strand) : (s.setMe v).myCore = s.myCore.setStrand s.strand v := by
  simp [State.myCore, State.setMe, State.setStrand]
@[simp] theorem State.myCore_modMe (s : State) (f : Strand → Strand) :
    (s.modMe f).myCore = s.myCore.setStrand s.strand (f s.me) := by simp [State.modMe]
@[simp] theorem State.myCtx_setMe (s : State) (v : Strand) : (s.setMe v).myCtx = s.myCtx := by
  simp [State.myCtx, State.myGroup]
@[simp] theorem State.myCtx_modMe (s : State) (f : Strand → Strand) : (s.modMe f).myCtx = s.myCtx := by
  simp [State.modMe]
@[simp] theorem State.queueAt_setQueue_self (s : State) (q : Nat) (v : Queue) : (s.setQueue q v).queueAt q = v := by
  simp [State.queueAt, State.setQueue]
@[simp] theorem State.queueAt_modQueue_self (s : State) (q : Nat) (f : Queue → Queue) :
    (s.modQueue q f).queueAt q = f (s.queueAt q) := by simp [State.modQueue]
@[simp] theorem State.ctxAt_setCtx_self (s : State) (n : Nat) (v : Context) : (s.setCtx n v).ctxAt n = v := by
  simp [State.ctxAt, State.setCtx]
@[simp] theorem State.ctxAt_modCtx_self (s : State) (n : Nat) (f : Context → Context) :
    (s.modCtx n f).ctxAt n = f (s.ctxAt n) := by simp [State.modCtx]
@[simp] theorem State.portAt_setPort_self (s : State) (p : Nat) (v : Port) : (s.setPort p v).portAt p = v := by
  simp [State.portAt, State.setPort]
@[simp] theorem State.portAt_modPort_self (s : State) (p : Nat) (f : Port → Port) :
    (s.modPort p f).portAt p = f (s.portAt p) := by simp [State.modPort]
@[simp] theorem State.seq_modSeq_self (s : State) (p : Nat) (f : Sequencer → Sequencer) :
    ((s.modSeq p f).portAt p).seq = f (s.portAt p).seq := by simp [State.modSeq]
@[simp] theorem State.find_modGroup_self (s : State) (g : Nat) (f : Group → Group) :
    Tbl.find? (s.modGroup g f).groups g = (Tbl.find? s.groups g).map f := Tbl.find?_upd_self s.groups g f
theorem State.find_modGroup_ne (s : State) {g j : Nat} (f : Group → Group) (h : j ≠ g) :
    Tbl.find? (s.modGroup g f).groups j = Tbl.find? s.groups j := Tbl.find?_upd_ne s.groups f h
@[simp] theorem State.find_modLaunch_self (s : State) (l : Nat) (f : Launch → Launch) :
    Tbl.find? (s.modLaunch l f).launches l = (Tbl.find? s.launches l).map f := Tbl.find?_upd_self s.launches l f

end Sys2Proof.Machine
end

