-- ==== Sys2Proof/Laws/Issue.lean ====
section
/-! SUPPORT. What issuing an instruction can do, said once (spec/05_strand.md R84 to R90). -/

namespace Sys2Proof.Machine

/-- An instruction that passes the checks is settled from its effect. -/
theorem issueN_of_issues (i : Instr) (n : Nat) (s : State) (effect : State → Eff) (h : s.issues i n = true) :
    issueN i n s effect = settle i s (s.granted i n) (effect (s.granted i n)) := by
  simp only [State.issues, Bool.and_eq_true, decide_eq_true_eq, Bool.not_eq_true'] at h
  obtain ⟨⟨⟨⟨⟨h0, hb⟩, h1⟩, h2⟩, h3⟩, h4⟩ := h
  unfold issueN State.granted
  simp only [h0, hb, h1, h2, h3, ne_eq, not_true_eq_false, Bool.not_true, Bool.false_eq_true, decide_false, Bool.or_self,
    if_false]
  rw [if_neg (by decide : ¬ (0 : Nat) = 9), if_neg (by decide : ¬ (0 : Nat) = 8)]
  by_cases hE : instrEngine i = .S
  · simp only [hE, if_true, Bool.and_eq_true, beq_iff_eq] at h4 ⊢
    cases hg : s.myCore.grant s.strand i n with
    | none => simp [hg] at h4
    | some p => simp [h4.1.2]
  · simp only [hE, if_false] at h4 ⊢
    simp [h4]

/-- With room an instruction retires. -/
theorem retireAt_hasRoom (i : Instr) (s b s' : State) (pc : BitVec 48) (h : s.hasRoom i s' = true) :
    retireAt i b (s.issuedIn s') pc = .next (s.after i s' pc) := by
  unfold retireAt State.after
  by_cases hE : instrEngine i = .S
  · simp only [State.hasRoom, hE, bne_self_eq_false, Bool.false_or, Bool.and_eq_true, Bool.not_eq_true', beq_iff_eq] at h
    simp [hE, h.1.1, h.1.2, h.2]
  · simp [hE]

/-- An effect that is done retires the instruction. -/
theorem settle_done (i : Instr) (s b s' : State) (h : s.hasRoom i s' = true) :
    settle i s b (.done s') = .next (s.afterNext i s') := retireAt_hasRoom i s _ s' _ h

/-- An effect that moves the strand retires the instruction there. -/
theorem settle_goto (i : Instr) (s b s' : State) (pc : BitVec 48) (h : s.hasRoom i s' = true) :
    settle i s b (.goto s' pc) = .next (s.after i s' pc) := retireAt_hasRoom i s _ s' _ h

/-- An instruction that issues and whose effect is done retires. -/
theorem issue_done (i : Instr) (s s' : State) (effect : State → Eff) (h : s.issues i 1 = true)
    (he : effect (s.granted i 1) = .done s') (hr : s.hasRoom i s' = true) :
    issue i s effect = .next (s.afterNext i s') := by
  unfold issue
  rw [issueN_of_issues i 1 s effect h, he, settle_done i s _ s' hr]

/-- An instruction whose guard reads 0 issues and performs nothing (R85). -/
theorem issue_guard_closed (i : Instr) (s : State) (effect : State → Eff) (h0 : s.me.micro.stage = 0)
    (hb : s.me.behind = false) (h1 : guardOpen i s.me = false) (h2 : syncHeld i s.me = false) :
    issue i s effect = .next (skipInstr i s) := by
  simp [issue, issueN, h0, hb, h1, h2]

/-- An effect that traps takes its trap. -/
theorem issue_trap (i : Instr) (s : State) (effect : State → Eff) (c : BitVec 8) (a b : Word) (h : s.issues i 1 = true)
    (ho : s.me.outs = 0) (he : effect (s.granted i 1) = .trap c a b) : issue i s effect = .next (s.takeTrap c a b) := by
  unfold issue
  rw [issueN_of_issues i 1 s effect h, he]
  simp [settle, ho]

/-- Where an S instruction issues no older one of its strand is outstanding. -/
theorem State.issues_outs (s : State) (i : Instr) (n : Nat) (h : s.issues i n = true) (hS : instrEngine i = .S) : s.me.outs = 0 := by
  simp only [State.issues, hS, if_true, Bool.and_eq_true, beq_iff_eq] at h
  exact h.2.1.1

/-- An effect that contains the task does so. -/
theorem issue_contain (i : Instr) (s : State) (effect : State → Eff) (c : BitVec 8) (h : s.issues i 1 = true)
    (he : effect (s.granted i 1) = .contain c) : issue i s effect = .next (s.containMine c) := by
  unfold issue
  rw [issueN_of_issues i 1 s effect h, he]
  rfl

/-- An effect that moves the strand. -/
theorem issue_goto (i : Instr) (s s' : State) (pc : BitVec 48) (effect : State → Eff) (h : s.issues i 1 = true)
    (he : effect (s.granted i 1) = .goto s' pc) (hr : s.hasRoom i s' = true) :
    issue i s effect = .next (s.after i s' pc) := by
  unfold issue
  rw [issueN_of_issues i 1 s effect h, he, settle_goto i s _ s' pc hr]

/-- An effect with a move of the strand of its own. -/
theorem issue_finish (i : Instr) (s s' : State) (f : State → State) (effect : State → Eff) (h : s.issues i 1 = true)
    (he : effect (s.granted i 1) = .finish s' f) (hS : instrEngine i = .S) (hr : s.hasRoom i s' = true) :
    issue i s effect = .next (f (pushed i (s.issuedIn s'))) := by
  unfold issue
  rw [issueN_of_issues i 1 s effect h, he]
  simp only [State.hasRoom, hS, bne_self_eq_false, Bool.false_or, Bool.and_eq_true] at hr
  simp [settle, finishAt, s.issues_outs i 1 h hS, hr.2]

/-- Any other way an effect ends. -/
theorem issue_settle (i : Instr) (s : State) (effect : State → Eff) (e : Eff) (h : s.issues i 1 = true)
    (he : effect (s.granted i 1) = e) : issue i s effect = settle i s (s.granted i 1) e := by
  unfold issue
  rw [issueN_of_issues i 1 s effect h, he]

/-- Inside an instruction only its effect is asked. -/
theorem issue_resumed (i : Instr) (s : State) (effect : State → Eff) (h : s.inside = true) :
    issue i s effect = settle i s s (effect s) := by
  simp only [State.inside, decide_eq_true_eq] at h
  have h0 : s.me.micro.stage ≠ 0 := by omega
  have h8 : s.me.micro.stage ≠ 8 := by omega
  have h9 : s.me.micro.stage ≠ 9 := by omega
  simp [issue, issueN, h0, h8, h9]

/-- An instruction that issues or stands inside its wait is settled from its effect. -/
theorem issue_runs (i : Instr) (s : State) (effect : State → Eff) (h : s.runs i = true) :
    issue i s effect = settle i s (s.entered i) (effect (s.entered i)) := by
  unfold State.entered
  by_cases h0 : s.me.micro.stage = 0
  · have hi : s.inside = false := by simp [State.inside, h0]
    simp only [State.runs, hi, Bool.false_or] at h
    simp only [h0, if_true]
    exact issue_settle i s effect _ h rfl
  · have hn : s.issues i 1 = false := by simp [State.issues, h0]
    simp only [State.runs, hn, Bool.or_false] at h
    simp only [h0, if_false]
    exact issue_resumed i s effect h

/-- And retires where its effect is done. -/
theorem issue_runs_done (i : Instr) (s s' : State) (effect : State → Eff) (h : s.runs i = true)
    (he : effect (s.entered i) = .done s') (hr : s.hasRoom i s' = true) :
    issue i s effect = .next (s.afterNext i s') := by
  rw [issue_runs i s effect h, he, settle_done i s _ s' hr]

/-! What a grant of tokens changes. -/

theorem Core.takeFrom_eq (c c' : Core) (f n : Nat) (m : Mark) (h : c.takeFrom f n = some (c', m)) :
    ∃ q, c' = { c with fifo := q } := by
  simp only [Core.takeFrom] at h
  split at h
  · simp only [Option.some.injEq, Prod.mk.injEq] at h
    exact ⟨_, h.1.symm⟩
  · simp at h

theorem Core.take_eq (c c' : Core) (e : Engine) (p : Pre) (n : Nat) (m : Mark) (h : c.take e p n = some (c', m)) :
    ∃ q, c' = { c with fifo := q } := by
  unfold Core.take at h
  split at h
  · simp at h
  · next c1 m1 h1 =>
    have hc1 : ∃ q, c1 = { c with fifo := q } := by
      split at h1
      · exact Core.takeFrom_eq _ _ _ _ _ h1
      · simp only [Option.some.injEq, Prod.mk.injEq] at h1
        exact ⟨c.fifo, h1.1.symm⟩
    split at h
    · simp at h
    · next c2 m2 h2 =>
      have hc2 : ∃ q, c2 = { c1 with fifo := q } := by
        split at h2
        · exact Core.takeFrom_eq _ _ _ _ _ h2
        · simp only [Option.some.injEq, Prod.mk.injEq] at h2
          exact ⟨c1.fifo, h2.1.symm⟩
      simp only [Option.some.injEq, Prod.mk.injEq] at h
      obtain ⟨q1, rfl⟩ := hc1
      obtain ⟨q2, rfl⟩ := hc2
      exact ⟨q2, h.1.symm⟩

theorem Core.note_eq (c : Core) (k : Nat) (needs : List (Nat × Nat)) : ∃ r, c.note k needs = { c with rotor := r } := by
  unfold Core.note
  induction needs generalizing c with
  | nil => exact ⟨c.rotor, rfl⟩
  | cons e l ih =>
    rw [List.foldl_cons]
    obtain ⟨r, hr⟩ := ih (c.noteOne k e.1 (c.strands.any (fun t => t.1 != k && t.2.needs.any (fun f => f.1 == e.1))))
    exact ⟨r, by rw [hr]; rfl⟩

/-- A grant changes the FIFOs and the rotating orders of a core, and nothing else of it. -/
theorem Core.grant_eq (c c' : Core) (k : Nat) (i : Instr) (n : Nat) (m : Mark) (h : c.grant k i n = some (c', m)) :
    ∃ q r, c' = { c with fifo := q, rotor := r } := by
  simp only [Core.grant] at h
  split at h
  · obtain ⟨r, hr⟩ := c.note_eq k (sNeeds i n)
    obtain ⟨q, hq⟩ := Core.take_eq _ _ _ _ _ _ h
    exact ⟨q, r, by rw [hq, hr]⟩
  · simp at h

/-- A grant leaves every strand as it was. -/
theorem Core.grant_strands (c c' : Core) (k : Nat) (i : Instr) (n : Nat) (m : Mark) (h : c.grant k i n = some (c', m)) :
    c'.strands = c.strands := by
  obtain ⟨q, r, rfl⟩ := Core.grant_eq _ _ _ _ _ _ h
  rfl

/-- The moving strand after its grant: only what it hands on can differ (spec/10_phase.md R221). -/
theorem State.granted_me (s : State) (i : Instr) (n : Nat) : ∃ x, (s.granted i n).me = { s.me with mark := x } := by
  unfold State.granted
  split
  · split
    · next c m h =>
      refine ⟨s.me.mark.join m, ?_⟩
      have hs := Core.grant_strands _ _ _ _ _ _ h
      have hm : (s.setCore s.core c).me = s.me := by
        simp only [State.me, State.strandAt, State.setCore_core, State.setCore_strand, State.coreAt_setCore_self,
          Core.strandAt, hs]
        rfl
      simp [hm, Strand.learn]
    · exact ⟨s.me.mark, rfl⟩
  · exact ⟨s.me.mark, rfl⟩

@[simp] theorem State.granted_rd (s : State) (i : Instr) (n : Nat) (f : BitVec 6) :
    (s.granted i n).me.rd f = s.me.rd f := by
  obtain ⟨x, h⟩ := s.granted_me i n
  rw [h]
  rfl

@[simp] theorem State.granted_rdP (s : State) (i : Instr) (n k : Nat) : (s.granted i n).me.rdP k = s.me.rdP k := by
  obtain ⟨x, h⟩ := s.granted_me i n
  rw [h]
  rfl

@[simp] theorem State.granted_pc (s : State) (i : Instr) (n : Nat) : (s.granted i n).me.pc = s.me.pc := by
  obtain ⟨x, h⟩ := s.granted_me i n
  rw [h]

@[simp] theorem State.granted_loops (s : State) (i : Instr) (n : Nat) : (s.granted i n).me.loops = s.me.loops := by
  obtain ⟨x, h⟩ := s.granted_me i n
  rw [h]

@[simp] theorem State.granted_btr (s : State) (i : Instr) (n k : Nat) : (s.granted i n).me.btr k = s.me.btr k := by
  obtain ⟨x, h⟩ := s.granted_me i n
  rw [h]
  rfl

@[simp] theorem State.granted_inHandler (s : State) (i : Instr) (n : Nat) :
    (s.granted i n).me.inHandler = s.me.inHandler := by
  obtain ⟨x, h⟩ := s.granted_me i n
  rw [h]
  rfl

/-- An instruction of another engine takes nothing at the strand. -/
theorem State.granted_other (s : State) (i : Instr) (n : Nat) (h : instrEngine i ≠ .S) : s.granted i n = s := by
  simp [State.granted, h]

@[simp] theorem State.granted_core (s : State) (i : Instr) (n : Nat) : (s.granted i n).core = s.core := by
  unfold State.granted; split
  · split <;> rfl
  · rfl
@[simp] theorem State.granted_strand (s : State) (i : Instr) (n : Nat) : (s.granted i n).strand = s.strand := by
  unfold State.granted; split
  · split <;> rfl
  · rfl
@[simp] theorem State.granted_groups (s : State) (i : Instr) (n : Nat) : (s.granted i n).groups = s.groups := by
  unfold State.granted; split
  · split <;> rfl
  · rfl
@[simp] theorem State.granted_contexts (s : State) (i : Instr) (n : Nat) : (s.granted i n).contexts = s.contexts := by
  unfold State.granted; split
  · split <;> rfl
  · rfl

/-- The state in which an effect is performed differs from the state before in the FIFOs and rotating orders of the
core and in the strand's mark. -/
theorem State.granted_eq (s : State) (i : Instr) (n : Nat) : s.granted i n = s ∨
    ∃ q r x, s.granted i n = (s.setCore s.core { s.myCore with fifo := q, rotor := r }).modMe (fun t => { t with mark := x }) := by
  unfold State.granted
  split
  · split
    · next c m h =>
      obtain ⟨q, r, rfl⟩ := Core.grant_eq _ _ _ _ _ _ h
      refine .inr ⟨q, r, s.me.mark.join m, ?_⟩
      have hm : (s.setCore s.core { s.myCore with fifo := q, rotor := r }).me = s.me := by
        simp only [State.me, State.strandAt, State.setCore_core, State.setCore_strand, State.coreAt_setCore_self,
          Core.strandAt]
        rfl
      simp only [State.modMe, hm, Strand.learn]
    · exact .inl rfl
  · exact .inl rfl

/-- The core keeps everything but its FIFOs, rotating orders and strands. -/
theorem State.granted_myCore (s : State) (i : Instr) (n : Nat) : ∃ q r t,
    (s.granted i n).myCore = { s.myCore with fifo := q, rotor := r, strands := t } := by
  rcases s.granted_eq i n with h | ⟨q, r, x, h⟩
  · exact ⟨s.myCore.fifo, s.myCore.rotor, s.myCore.strands, by rw [h]⟩
  · refine ⟨q, r, ((s.setCore s.core { s.myCore with fifo := q, rotor := r }).modMe (fun t => { t with mark := x })).myCore.strands, ?_⟩
    rw [h]
    simp [Core.setStrand]

@[simp] theorem State.granted_group (s : State) (i : Instr) (n : Nat) : (s.granted i n).myCore.group = s.myCore.group := by
  obtain ⟨q, r, t, h⟩ := s.granted_myCore i n
  rw [h]

@[simp] theorem State.granted_dbg (s : State) (i : Instr) (n : Nat) : (s.granted i n).myCore.dbg = s.myCore.dbg := by
  obtain ⟨q, r, t, h⟩ := s.granted_myCore i n
  rw [h]

@[simp] theorem State.granted_counters (s : State) (i : Instr) (n : Nat) :
    (s.granted i n).myCore.counters = s.myCore.counters := by
  obtain ⟨q, r, t, h⟩ := s.granted_myCore i n
  rw [h]

@[simp] theorem State.granted_myGroup (s : State) (i : Instr) (n : Nat) : (s.granted i n).myGroup = s.myGroup := by
  simp only [State.myGroup, State.granted_group, State.granted_groups]

@[simp] theorem State.granted_myCtx (s : State) (i : Instr) (n : Nat) : (s.granted i n).myCtx = s.myCtx := by
  simp only [State.myCtx, State.granted_myGroup]

@[simp] theorem State.granted_ctxAt (s : State) (i : Instr) (n k : Nat) : (s.granted i n).ctxAt k = s.ctxAt k := by
  simp only [State.ctxAt, State.granted_contexts]

@[simp] theorem State.granted_fgen (s : State) (i : Instr) (n : Nat) : (s.granted i n).me.fgen = s.me.fgen := by
  obtain ⟨x, h⟩ := s.granted_me i n
  rw [h]

@[simp] theorem State.granted_stage (s : State) (i : Instr) (n : Nat) : (s.granted i n).me.micro = s.me.micro := by
  obtain ⟨x, h⟩ := s.granted_me i n
  rw [h]

end Sys2Proof.Machine
end

