-- ==== Sys2Proof/Laws/Memory.lean ====
section
/-! SUPPORT. Every operation over a memory keeps its canonical form, reads what was written, and leaves the other bytes
alone; every operation of the package over its memories keeps them canonical. -/

namespace Sys2Proof.Machine

/-! One memory. -/

theorem Mem.wf_iff (m : Mem) : m.wf = true ↔
    Tbl.canonical 0 m.bytes = true ∧ Tbl.canonical false m.poison = true ∧ Tbl.canonical false m.latent = true := by
  simp only [Mem.wf, Bool.and_eq_true, and_assoc]

theorem Mem.wf_empty : ({} : Mem).wf = true := by decide

/-- A memory of three canonical parts. -/
theorem Mem.wf_mk (b : Tbl Byte) (p l : Tbl Bool) (hb : Tbl.canonical 0 b = true) (hp : Tbl.canonical false p = true)
    (hl : Tbl.canonical false l = true) : ({ bytes := b, poison := p, latent := l } : Mem).wf = true :=
  (Mem.wf_iff _).2 ⟨hb, hp, hl⟩

/-- An error that awaits detection keeps the form. -/
theorem Mem.wf_latent (m : Mem) (l : Nat) (b : Bool) (h : m.wf = true) :
    ({ m with latent := m.latent.set false l b } : Mem).wf = true := by
  obtain ⟨h1, h2, h3⟩ := (Mem.wf_iff m).1 h
  exact Mem.wf_mk _ _ _ h1 h2 (Tbl.canonical_set false m.latent l b h3)

theorem Mem.wf_detect (m : Mem) (l : Nat) (h : m.wf = true) : (m.detect l).wf = true := by
  obtain ⟨h1, h2, h3⟩ := (Mem.wf_iff m).1 h
  unfold Mem.detect
  split
  · apply Mem.wf_mk
    · exact Tbl.canonical_setRange 0 m.bytes (l * 64) _ h1
    · exact Tbl.canonical_set false m.poison l true h2
    · exact Tbl.canonical_set false m.latent l false h3
  · exact h

theorem Mem.wf_touch (m : Mem) (ws : List (Nat × Byte)) (l : Nat) (h : m.wf = true) : (m.touch ws l).wf = true := by
  obtain ⟨h1, h2, h3⟩ := (Mem.wf_iff m).1 h
  unfold Mem.touch
  split
  · exact Mem.wf_mk _ _ _ h1 (Tbl.canonical_set false m.poison l false h2) (Tbl.canonical_set false m.latent l false h3)
  · exact Mem.wf_detect m l h

/-- What a fold of form-keeping steps keeps. -/
theorem Mem.wf_foldl {β : Type} (f : Mem → β → Mem) (hf : ∀ m b, m.wf = true → (f m b).wf = true) (l : List β) (m : Mem)
    (h : m.wf = true) : (l.foldl f m).wf = true := by
  induction l generalizing m with
  | nil => exact h
  | cons b l ih => exact ih (f m b) (hf m b h)

theorem Mem.wf_readAt (m : Mem) (as : List Nat) (h : m.wf = true) : (m.readAt as).2.2.wf = true :=
  Mem.wf_foldl Mem.detect Mem.wf_detect _ m h

theorem Mem.wf_writeAt (m : Mem) (ws : List (Nat × Byte)) (mark : Bool) (h : m.wf = true) :
    (m.writeAt ws mark).wf = true := by
  have ht := Mem.wf_foldl (fun m l => m.touch ws l) (fun m l => Mem.wf_touch m ws l)
    (linesOf (ws.map (fun w => w.1))) m h
  obtain ⟨h1, h2, h3⟩ := (Mem.wf_iff _).1 ht
  have hb := Tbl.canonical_foldl_set (0 : Byte) ws (fun w => w.1) (fun w => w.2) _ h1
  unfold Mem.writeAt
  dsimp only
  split
  · exact Mem.wf_mk _ _ _ hb (Tbl.canonical_foldl_set false _ (fun l => l) (fun _ => true) _ h2) h3
  · exact Mem.wf_mk _ _ _ hb h2 h3

/-- A byte that no detection zeroes and no write names stays as it was. -/
theorem Mem.bytes_detect (m : Mem) (l a : Nat) (h : a / 64 ≠ l ∨ m.latent.get false l = false) :
    (m.detect l).bytes.get 0 a = m.bytes.get 0 a := by
  unfold Mem.detect
  split
  · next hl =>
    rcases h with h | h
    · rw [Tbl.get_setRange]
      split
      · next hr => simp only [List.length_replicate] at hr; omega
      · rfl
    · simp [h] at hl
  · rfl

/-! The package's memories. -/

theorem State.canonical_iff (s : State) : s.canonical = true ↔
    s.hbm.wf = true ∧ s.sealed.wf = true ∧ s.weights.wf = true ∧ Tbl.canonical 0 s.host = true := by
  simp only [State.canonical, Bool.and_eq_true, and_assoc]

/-- The form depends on the four memories alone. -/
theorem State.canonical_of_eq (s t : State) (h : s.canonical = true) (h1 : t.hbm = s.hbm) (h2 : t.sealed = s.sealed)
    (h3 : t.weights = s.weights) (h4 : t.host = s.host) : t.canonical = true := by
  rw [State.canonical_iff] at h ⊢
  rw [h1, h2, h3, h4]
  exact h

theorem State.canonical_reset : State.reset.canonical = true := by decide

theorem State.canonical_commitUnit (s : State) (u : Nat) (bs : List (Nat × Byte)) (h : s.canonical = true) :
    (s.commitUnit u bs).canonical = true := by
  have h' : (s.unmarkUnit u).canonical = true := by
    unfold State.unmarkUnit
    split
    · exact h
    · exact State.canonical_of_eq s _ h rfl rfl rfl rfl
  rw [State.canonical_iff] at h' ⊢
  exact ⟨Mem.wf_writeAt _ _ _ h'.1, h'.2⟩

theorem State.canonical_foldl {β : Type} (f : State → β → State)
    (hf : ∀ s b, s.canonical = true → (f s b).canonical = true) (l : List β) (s : State) (h : s.canonical = true) :
    (l.foldl f s).canonical = true := by
  induction l generalizing s with
  | nil => exact h
  | cons b l ih => exact ih (f s b) (hf s b h)

theorem State.canonical_commitBytes (s : State) (ws : List (Nat × Byte)) (h : s.canonical = true) :
    (s.commitBytes ws).canonical = true := by
  refine State.canonical_foldl (fun s (u : Nat × List (Nat × Byte)) => s.commitUnit u.1 u.2)
    (fun s u => State.canonical_commitUnit s u.1 u.2) (unitsOf ws) _ ?_
  rw [State.canonical_iff] at h ⊢
  exact ⟨Mem.wf_foldl (fun m l => m.touch ws l) (fun m l => Mem.wf_touch m ws l) _ _ h.1, h.2⟩

/-- A failed tag of a unit. -/
theorem Mem.wf_failUnit (m : Mem) (u : Nat) (h : m.wf = true) : (m.failUnit u).wf = true :=
  Mem.wf_foldl (fun m l => ({ m with latent := m.latent.set false l true } : Mem).detect l)
    (fun m l hm => Mem.wf_detect _ l (Mem.wf_latent m l true hm)) _ m h

theorem State.canonical_homeRead (s : State) (as : List Nat) (h : s.canonical = true) :
    (s.homeRead as).2.2.canonical = true := by
  rw [State.canonical_iff] at h ⊢
  exact ⟨Mem.wf_readAt _ _ h.1, h.2⟩

theorem State.canonical_wRead (s : State) (a n : Nat) (h : s.canonical = true) : (s.wRead a n).2.2.canonical = true := by
  rw [State.canonical_iff] at h ⊢
  exact ⟨h.1, h.2.1, Mem.wf_readAt _ _ h.2.2.1, h.2.2.2⟩

theorem State.canonical_hostWrite (s : State) (a : Nat) (bs : List Byte) (h : s.canonical = true) :
    (s.hostWrite a bs).canonical = true := by
  rw [State.canonical_iff] at h ⊢
  exact ⟨h.1, h.2.1, h.2.2.1, Tbl.canonical_setRange 0 _ _ _ h.2.2.2⟩

theorem State.canonical_event (s : State) (code port lane d0 d1 : Nat) (h : s.canonical = true) :
    (s.event code port lane d0 d1).canonical = true := by
  unfold State.event
  split
  · rw [State.canonical_iff] at h ⊢
    exact ⟨Mem.wf_writeAt _ _ _ h.1, h.2⟩
  · exact h

theorem State.canonical_message (s : State) (ring kind ctx queue tag : Nat) (v : Word) (h : s.canonical = true) :
    (s.message ring kind ctx queue tag v).canonical = true :=
  State.canonical_of_eq _ _ (State.canonical_hostWrite s _ _ h) rfl rfl rfl rfl

theorem State.canonical_pokeHbm (s : State) (a : Nat) (bs : List Byte) (h : s.canonical = true) :
    (s.pokeHbm a bs).canonical = true := by
  rw [State.canonical_iff] at h ⊢
  exact ⟨Mem.wf_writeAt _ _ _ h.1, h.2⟩

/-- What touches no memory but the cores, the groups and the strands keeps the form. -/
theorem State.canonical_modCore (s : State) (c : Nat) (f : Core → Core) (h : s.canonical = true) :
    (s.modCore c f).canonical = true :=
  State.canonical_of_eq s _ h rfl rfl rfl rfl

theorem State.canonical_modGroup (s : State) (g : Nat) (f : Group → Group) (h : s.canonical = true) :
    (s.modGroup g f).canonical = true :=
  State.canonical_of_eq s _ h rfl rfl rfl rfl

theorem State.canonical_modMe (s : State) (f : Strand → Strand) (h : s.canonical = true) : (s.modMe f).canonical = true :=
  State.canonical_of_eq s _ h rfl rfl rfl rfl

theorem State.canonical_spoilSlots (s : State) (a n : Nat) (h : s.canonical = true) :
    (s.spoilSlots a n).canonical = true := by
  unfold State.spoilSlots
  refine State.canonical_foldl _ (fun s e hs => ?_) _ s h
  split
  · exact hs
  · exact State.canonical_modGroup _ _ _ hs

theorem State.canonical_driverWrite (s : State) (t a : Nat) (bs : List Byte) (h : s.canonical = true) :
    (s.driverWrite t a bs).canonical = true := by
  unfold State.driverWrite
  dsimp only
  split
  · exact State.canonical_spoilSlots _ _ _ (State.canonical_commitBytes s _ h)
  · rw [State.canonical_iff] at h ⊢
    exact ⟨h.1, h.2.1, Mem.wf_writeAt _ _ _ h.2.2.1, h.2.2.2⟩
  · rw [State.canonical_iff] at h ⊢
    exact ⟨h.1, h.2.1, h.2.2.1, Tbl.canonical_setRange 0 _ _ _ h.2.2.2⟩

end Sys2Proof.Machine
end

