-- ==== Sys2Proof/Tests/Base.lean ====
section
/-! SUPPORT. Small states for the tests. -/

namespace Sys2Proof.Tests
open Sys2Proof Sys2Proof.Machine
def bare : Pre := { wp := false, wn := false, sp := false, sn := false, sy := false, g := 0 }
/-- The strands of a core of which the first is `t` and the others have ended. -/
def first (t : Strand) : Tbl Strand := (0, t) :: (List.range 7).map (fun k => (k + 1, { life := .done }))
/-- A package that serves, with context 1 RUNNING and its one-core group 1 on core 0; strand 0 is RUNNING at PC 0. -/
def base : State :=
  { State.reset with
    pkg := { st := .serving }
    contexts := [(1, { st := .running, desc := [(2, 64)] })]
    groups := [(1, { ctx := 1, launch := 1, st := .running, cores := [0] })]
    cores := [(0, { group := some 1, strands := first { life := .running }, pieces := [(0, { grp := 1, idx := 0 })] })] }
/-- That package with the strand in another state. -/
def withMe (t : Strand) : State := base.setMe t
/-- The strand with registers x0 and x1, clean or poisoned. -/
def withX (a b : Word) (po : Bool := false) : State :=
  withMe { life := .running, x := [(0, { v := a, poison := po }), (1, { v := b })] }
/-- The strand with predicate p1 and branch target b2. -/
def target (pv : Bool) (st : BState) : State :=
  withMe { life := .running, p := [(1, { v := pv })], b := [(2, { target := 128, st := st, cause := if st = .faulted then 3 else 0 })] }
/-- The strand in its handler. -/
def inTrap : Strand := { life := .handler, hidden := some {}, epc := 36 }
/-- Every other core taken, and a group of a context 2, SAVED, that waits to resume. -/
def withWaiting : State := { base with
  contexts := base.contexts ++ [(2, { st := .runnable })]
  cores := base.cores ++ (List.range 511).map (fun k => (k + 1, { group := some 3 }))
  groups := base.groups ++ [(2, { ctx := 2, launch := 2, st := .saved })] }
def group1 : Group := { ctx := 1, launch := 1, st := .running, cores := [0] }
/-- The package with its group in another state. -/
def withGroup (x : Group) : State := { base with groups := [(1, x)] }
/-- The core with other contents. -/
def withCore (f : Core → Core) : State := base.modCore 0 f
/-- A vector addition in the queue. -/
def vadd : VEntry := { id := 5, owner := 0, instr := .vadd bare 0 1 2 }
/-- A matrix queue with one entry. -/
def withM (e : MEntry) (rest : List MEntry := []) : State := withCore (fun c => { c with mq := e :: rest })
/-- H addresses 0 to 2^28 − 1 mapped with every right at 2^29; a window of 64 KiB of the weight store; code at I 0. -/
def mapped (s : State) : State :=
  let b := 2 ^ 28
  let s := ((s.pokeHbm b (wordBytes (0x8000000000000000#64 ||| BitVec.ofNat 64 (b + 8192)))).pokeHbm (b + 8192)
    (wordBytes (0xF800000000000000#64 ||| BitVec.ofNat 64 (2 ^ 29)))).pokeHbm (b + 4096)
    (wordBytes (0x8000000000000000#64 ||| BitVec.ofNat 64 (b + 16384)))
  let s := s.pokeHbm (b + 16384) (wordBytes (0xE400000000000000#64 ||| BitVec.ofNat 64 (2 ^ 29)))
  s.modCtx 1 (fun c => { c with desc := [(0, BitVec.ofNat 64 b), (1, BitVec.ofNat 64 (b + 4096)), (2, 64), (8, BitVec.ofNat 64 (2 * 2 ^ 48 + b)),
    (9, BitVec.ofNat 64 (2 ^ 48))] })
/-- A capability over 4,096 bytes of an object, with every right, LEASED or HOME. -/
def cap (home : Bool) : BitVec 128 := BitVec.ofNat 128 (7 * 2 ^ 116 + (if home then 2 ^ 115 else 0) + 5 * 2 ^ 64 + 16)
/-- Another task of the context with a version of 16,384 lines, the whole of the context's region of 1 MiB. -/
def filled (s : State) : State :=
  { s.modCtx 1 (fun c => { c with desc := c.desc.set 0 7 (BitVec.ofNat 64 (2 ^ 48)) }) with
    groups := s.groups ++ [(2, { ctx := 1, launch := 1, st := .parked, ver := { h := (List.range 16384).map (fun k => (2 ^ 30 + k * 64, 1)) } })] }
/-- The strand with x0, x1 and the capability register c1. -/
def withCap (home : Bool) (a b : Word) (po : Bool := false) : State :=
  withMe { life := .running, x := [(0, { v := a, poison := po }), (1, { v := b })], c := [(1, { v := cap home })] }
/-- A template: two elements of 8 bytes from S 0 to the destination's address `da` in S, then a signal. -/
def tmpl (da sig : Word) : List Word := [0, da, BitVec.ofNat 64 (2 + 2 ^ 24 + 2 ^ 44), 0, 0, 0xC0, 0, sig]
/-- A capability table of two entries at H 0x1000 and a template table at H 0x2000. -/
def tables (s : State) (e : BitVec 128) (t : List Word) : State :=
  (((mapped s).pokeHbm (2 ^ 29 + 0x1000) (bytesLE 16 e.toNat)).pokeHbm (2 ^ 29 + 0x2000) (wordsBytes t)).modCtx 1 (fun c =>
    { c with desc := (c.desc.set 0 3 (BitVec.ofNat 64 (2 * 2 ^ 48 + 0x1000))).set 0 4 (BitVec.ofNat 64 (2 ^ 48 + 0x2000)) })
/-- A transfer handed to a channel and not started, and the same started from a template. -/
def transfer0 : Transfer := { id := 3, grp := 1 }
def transfer1 (da sig : Word) : Transfer := { id := 3, grp := 1, tmpl := tmpl da sig, started := true, receivers := [{ rank := 0 }] }
/-- Channel 2 with other contents. -/
def withChan (k : Channel) : State := withCore (fun c => { c with channels := [(2, k)] })
/-- The bytes of an instruction of one word. -/
def code (i : Instr) : List Byte := match encode i with
  | .one w => bytesLE 4 w.toNat
  | _ => []
/-- The state that an outcome goes on in, where it does. -/
def goneOn (o : Host.Outcome State Fault Refusal) : Option State := match o with
  | .next u => some u
  | _ => none
theorem next_of_goneOn {o : Host.Outcome State Fault Refusal} (h : (goneOn o).isSome = true) :
    o = .next ((goneOn o).getD base) := by
  cases o with
  | next u => rfl
  | fault f => cases h
  | refused r => cases h
theorem some_of_isSome {A : Type} {o : Option A} {d : A} (h : o.isSome = true) : o = some (o.getD d) := by
  cases o with
  | none => cases h
  | some x => rfl
/-- A result that gives a value is that value's. -/
theorem ok_of_toOption {E A : Type} {e : Except E A} {v : A} (h : e.toOption = some v) : e = .ok v := by
  cases e with
  | error x => cases h
  | ok x => cases h; rfl
end Sys2Proof.Tests
end

