-- ==== Sys2Proof/Tests/Chain.lean ====
section
/-! SUPPORT. States that meet the hypotheses of the statements about refinement and link sequencers. -/

namespace Sys2Proof.Tests.Refinings
open Sys2Proof Sys2Proof.Machine Sys2Proof.Claims
set_option Elab.async false

/-- a good block: MAXIT 3, NS 1, one rung; TAU = RHOS = RHOD = 1 -/
def blk (pdiv pstg : Nat) : List Word := [BitVec.ofNat 64 (3 * 2^32 + 2^24 + pdiv * 2^18 + pstg * 2^16), 0x3F8000003F800000, 0x3F800000, 0x100, 0x200, 0x300, 0x400, 0x0000000000000000] ++ List.replicate 24 0
def R (nstep : BitVec 3) (st : BitVec 3) (ex : BitVec 4 := 0) (pdiv pstg : Nat := 0) : Rlc := { held := true, block := blockTable (blk pdiv pstg), state := st, nstep := nstep, exit := ex }
def rS (q : Rlc) (x0 x1 : Word) (po : Bool := false) : State := (withX x0 x1 po).modCore 0 (fun c => { c with rlc := q })
def blkS (w : List Word) : State := ((mapped (withX 0x100 0)).pokeHbm (2^29 + 0x100) (wordsBytes w))
def bp : State := let s := blkS (blk 0 0); { s with hbm := { s.hbm with poison := [(2^23 + 4, true)] } }
def gi (i : Instr) (s : State) := s.granted i 1
def rdw (s : State) : List Word × State := match (s.granted (.rlcRun bare 0) 1).readWords 1 1 0 0x100 32 with | .ok ws u => (ws, u) | .poison u => ([], u) | .fault => ([], s)
-- judge
def oneDeep : Nat := 0x3F800000
def nw (x r : Nat) : Word := BitVec.ofNat 64 (x * 2^32 + r)
def R2 : Rlc := { R 2 1 with block := blockTable ((blk 0 0).set 0 (BitVec.ofNat 64 (3 * 2^32 + 2^24 + 1))) }

theorem meets_RefinementInstructions_ru1 :
    let s : State := withX 0 0 true
    let x : Reg := s.me.rd 0
    let i : Instr := Instr.rlcRun bare 0
    (s.issues i 1 = true) ∧
    (x.poison = true) := by decide +kernel

theorem meets_RefinementInstructions_ru2 :
    let s : State := withX 128 0
    let x : Reg := s.me.rd 0
    let i : Instr := Instr.rlcRun bare 0
    (s.issues i 1 = true) ∧
    (x.poison = false) ∧
    (BitVec.toNat x.v % 256 ≠ 0) := by decide +kernel

theorem meets_RefinementInstructions_ru3 :
    let s : State := withX 256 0
    let x : Reg := s.me.rd 0
    let g : Instr → State := fun i_1 => s.granted i_1 1
    let i : Instr := Instr.rlcRun bare 0
    let read : BlockRead := (g i).readWords s.myCtx s.grp (g i).me.mark.rf (BitVec.toNat x.v) 32
    (s.issues i 1 = true) ∧
    (x.poison = false) ∧
    (BitVec.toNat x.v % 256 = 0) ∧
    (read = BlockRead.fault) := by decide +kernel

theorem meets_RefinementInstructions_ru4 :
    let x : Reg := bp.me.rd 0
    let g : Instr → State := fun i_1 => bp.granted i_1 1
    let i : Instr := Instr.rlcRun bare 0
    let read : BlockRead := (g i).readWords bp.myCtx bp.grp (g i).me.mark.rf (BitVec.toNat x.v) 32
    let u : State := (rdw bp).snd
    (bp.issues i 1 = true) ∧
    (x.poison = false) ∧
    (BitVec.toNat x.v % 256 = 0) ∧
    (read = BlockRead.poison u) := by decide +kernel

theorem meets_RefinementInstructions_ru5 :
    let s : State := blkS (blk 0 0)
    let x : Reg := s.me.rd 0
    let g : Instr → State := fun i_1 => s.granted i_1 1
    let i : Instr := Instr.rlcRun bare 0
    let read : BlockRead := (g i).readWords s.myCtx s.grp (g i).me.mark.rf (BitVec.toNat x.v) 32
    let ws : List Word := (rdw s).fst
    let u : State := (rdw s).snd
    let r : Rlc := { held := true, block := blockTable ws, state := 1 }
    (s.issues i 1 = true) ∧
    (x.poison = false) ∧
    (BitVec.toNat x.v % 256 = 0) ∧
    (read = BlockRead.ok ws u) ∧
    (s.hasRoom i (u.modRlc fun _ => if r.good = true then r else { exit := 6#4, state := 2#3 }) = true) := by decide +kernel

theorem meets_RefinementInstructions_ru6 :
    let s : State := blkS []
    let x : Reg := s.me.rd 0
    let g : Instr → State := fun i_1 => s.granted i_1 1
    let i : Instr := Instr.rlcRun bare 0
    let read : BlockRead := (g i).readWords s.myCtx s.grp (g i).me.mark.rf (BitVec.toNat x.v) 32
    let ws : List Word := (rdw (blkS [])).fst
    let u : State := (rdw (blkS [])).snd
    let r : Rlc := { held := true, block := blockTable ws, state := 1 }
    (s.issues i 1 = true) ∧
    (x.poison = false) ∧
    (BitVec.toNat x.v % 256 = 0) ∧
    (read = BlockRead.ok ws u) ∧
    (s.hasRoom i (u.modRlc fun _ => if r.good = true then r else { exit := 6#4, state := 2#3 }) = true) := by decide +kernel

theorem meets_RefinementInstructions_nx1 :
    let s : State := rS (R 0 3 3) 0 0
    let g : Instr → State := fun i_1 => s.granted i_1 1
    let i : Instr := Instr.rlcNext bare 1 1
    let r : Rlc := (g i).myCore.rlc
    (s.issues i 1 = true) ∧
    (r.state = 3#3) := by decide +kernel

theorem meets_RefinementInstructions_nx2 :
    let s : State := rS (R 0 2) 0 0
    let g : Instr → State := fun i_1 => s.granted i_1 1
    let i : Instr := Instr.rlcNext bare 1 1
    let r : Rlc := (g i).myCore.rlc
    (s.issues i 1 = true) ∧
    (r.state ≠ 3#3) ∧
    (r.state ≠ 1#3) ∧
    (s.hasRoom i ((g i).modMe fun t => t.wrP 1 { }) = true) := by decide +kernel

theorem meets_RefinementInstructions_nx3 :
    let s : State := rS (R 0 1) 0 0
    let g : Instr → State := fun i_1 => s.granted i_1 1
    let i : Instr := Instr.rlcNext bare 1 1
    let r : Rlc := (g i).myCore.rlc
    (s.issues i 1 = true) ∧
    (r.state = 1#3) ∧
    (r.nstep = 0#3) ∧
    (s.hasRoom i (((g i).modMe fun t => (t.prepare 1 (BitVec.extractLsb' 0 48 (Tbl.get 0#64 r.block 3)) (g i).myCgen).wrP 1 { v := true }).modRlc fun r_1 => { r_1 with nstep := 1#3 }) = true) := by decide +kernel

theorem meets_RefinementInstructions_nx4 :
    let s : State := rS (R 1 1) 0 0
    let g : Instr → State := fun i_1 => s.granted i_1 1
    let i : Instr := Instr.rlcNext bare 1 1
    let r : Rlc := (g i).myCore.rlc
    (s.issues i 1 = true) ∧
    (r.state = 1#3) ∧
    (r.nstep = 1#3) ∧
    (s.hasRoom i (((g i).modMe fun t => (t.prepare 1 (BitVec.extractLsb' 0 48 (Tbl.get 0#64 r.block 5)) (g i).myCgen).wrP 1 { v := true }).modRlc fun r_1 => { r_1 with nstep := 2#3 }) = true) := by decide +kernel

theorem meets_RefinementInstructions_nx5 :
    let s : State := rS (R 2 1) 0 0
    let g : Instr → State := fun i_1 => s.granted i_1 1
    let i : Instr := Instr.rlcNext bare 1 1
    let r : Rlc := (g i).myCore.rlc
    (s.issues i 1 = true) ∧
    (r.state = 1#3) ∧
    (r.nstep = 2#3) ∧
    (s.hasRoom i (((g i).modMe fun t => (t.prepare 1 (BitVec.extractLsb' 0 48 (Tbl.get 0#64 r.block 5)) (g i).myCgen).wrP 1 { v := true }).modRlc fun r_1 => { r_1 with nstep := 2#3 }) = true) := by decide +kernel

theorem meets_RefinementInstructions_nx6 :
    let s : State := rS (R 3 1) 0 0
    let g : Instr → State := fun i_1 => s.granted i_1 1
    let i : Instr := Instr.rlcNext bare 1 1
    let r : Rlc := (g i).myCore.rlc
    (s.issues i 1 = true) ∧
    (r.state = 1#3) ∧
    (r.nstep = 3#3) ∧
    (s.hasRoom i (((g i).modMe fun t => (t.prepare 1 (BitVec.extractLsb' 0 48 (Tbl.get 0#64 r.block 4)) (g i).myCgen).wrP 1 { v := true }).modRlc fun r_1 => { r_1 with nstep := 4#3 }) = true) := by decide +kernel

theorem meets_RefinementInstructions_nx7 :
    let s : State := rS (R 4 1) 0 0
    let g : Instr → State := fun i_1 => s.granted i_1 1
    let i : Instr := Instr.rlcNext bare 1 1
    let r : Rlc := (g i).myCore.rlc
    (s.issues i 1 = true) ∧
    (r.state = 1#3) ∧
    (r.nstep = 4#3) ∧
    (s.hasRoom i (((g i).modMe fun t => (t.prepare 1 (BitVec.extractLsb' 0 48 (Tbl.get 0#64 r.block 6)) (g i).myCgen).wrP 1 { v := true }).modRlc fun r_1 => { r_1 with nstep := 1#3 }) = true) := by decide +kernel

theorem meets_RefinementInstructions_te1 :
    let s : State := rS (R 1 1) 0 0
    let x : Reg := s.me.rd 0
    let g : Instr → State := fun i_1 => s.granted i_1 1
    let result : Word → State → State := fun v u => u.modMe fun t => t.result 5 { v := v }
    let i : Instr := Instr.rlcTest bare 5 0
    let q : Rlc := (g i).myCore.rlc
    (s.issues i 1 = true) ∧
    (x.poison = false) ∧
    (q.state ≠ 1#3 ∨ q.nstep ≠ 2#3) ∧
    (s.hasRoom i (result 5#64 (g i)) = true) := by decide +kernel

theorem meets_RefinementInstructions_te2 :
    let s : State := rS (R 2 1) 4575657222482165760 0
    let x : Reg := s.me.rd 0
    let g : Instr → State := fun i_1 => s.granted i_1 1
    let result : Word → State → State := fun v u => u.modMe fun t => t.result 5 { v := v }
    let i : Instr := Instr.rlcTest bare 5 0
    let q : Rlc := (g i).myCore.rlc
    (s.issues i 1 = true) ∧
    (x.poison = false) ∧
    (q.state = 1#3) ∧
    (q.nstep = 2#3) ∧
    (s.hasRoom i (result ((q.judge x.v).snd.act (q.judge x.v).fst).snd ((g i).modRlc fun _ => ((q.judge x.v).snd.act (q.judge x.v).fst).fst)) = true) := by decide +kernel

theorem meets_RefinementInstructions_sa0 :
    let s : State := rS (R 2 1) 0 0
    let g : Instr → State := fun i_1 => s.granted i_1 1
    let result : Word → State → State := fun v u => u.modMe fun t => t.result 5 { v := v }
    let i : Instr := Instr.rlcStat bare 5 0
    let q : Rlc := (g i).myCore.rlc
    (s.issues i 1 = true) ∧
    (0#6 = 0#6) ∧
    (s.hasRoom i (result q.status (g i)) = true) := by decide +kernel

theorem meets_RefinementInstructions_sa1 :
    let s : State := rS (R 2 1) 0 0
    let g : Instr → State := fun i_1 => s.granted i_1 1
    let result : Word → State → State := fun v u => u.modMe fun t => t.result 5 { v := v }
    let i : Instr := Instr.rlcStat bare 5 1
    let q : Rlc := (g i).myCore.rlc
    (s.issues i 1 = true) ∧
    (1#6 = 1#6) ∧
    (s.hasRoom i (result (if q.held = true then BitVec.setWidth 64 (q.fmt q.rung.toNat) else 0#64) (g i)) = true) := by decide +kernel

theorem meets_RefinementInstructions_sa2 :
    let s : State := rS (R 2 1) 0 0
    let g : Instr → State := fun i_1 => s.granted i_1 1
    let result : Word → State → State := fun v u => u.modMe fun t => t.result 5 { v := v }
    let i : Instr := Instr.rlcStat bare 5 2
    let q : Rlc := (g i).myCore.rlc
    (s.issues i 1 = true) ∧
    (2#6 = 2#6) ∧
    (s.hasRoom i (result (if q.held = true then BitVec.ofNat 64 (q.trm1 q.rung.toNat + 1) else 0#64) (g i)) = true) := by decide +kernel

theorem meets_RefinementInstructions_sa3 :
    let s : State := rS (R 2 1) 0 0
    let g : Instr → State := fun i_1 => s.granted i_1 1
    let result : Word → State → State := fun v u => u.modMe fun t => t.result 5 { v := v }
    let i : Instr := Instr.rlcStat bare 5 3
    let q : Rlc := (g i).myCore.rlc
    (s.issues i 1 = true) ∧
    (3#6 = 3#6) ∧
    (s.hasRoom i (result q.norms (g i)) = true) := by decide +kernel

theorem meets_RefinementInstructions_sa4 :
    let s : State := rS (R 2 1) 0 0
    let g : Instr → State := fun i_1 => s.granted i_1 1
    let result : Word → State → State := fun v u => u.modMe fun t => t.result 5 { v := v }
    let i : Instr := Instr.rlcStat bare 5 4
    let q : Rlc := (g i).myCore.rlc
    (s.issues i 1 = true) ∧
    (4#6 = 4#6) ∧
    (s.hasRoom i
    (result
      (match q.r0 with
      | none => BitVec.setWidth 64 q.r0left
      | some v => 4294967296#64 ||| BitVec.setWidth 64 v)
      (g i)) =
  true) := by decide +kernel

theorem meets_RefinementInstructions_en :
    let s : State := rS (R 2 1) 0 0
    let g : Instr → State := fun i_1 => s.granted i_1 1
    let i : Instr := Instr.rlcEnd bare
    (s.issues i 1 = true) ∧
    (s.hasRoom i ((g i).modRlc fun _ => { }) = true) := by decide +kernel

theorem meets_RefinementInstructions_jd0 :
    let xa : Word := nw 2143289344 oneDeep
    let r : Sys2Proof.Machine.Num := Fmt.fp32.value (BitVec.toNat xa % 2 ^ 32)
    let x : Sys2Proof.Machine.Num := Fmt.fp32.value (BitVec.toNat xa / 2 ^ 32)
    (r.unfit = true ∨ x.unfit = true) := by decide +kernel

theorem meets_RefinementInstructions_jd1 :
    let q : Rlc := R 2 1
    let xa : Word := nw oneDeep oneDeep
    let r : Sys2Proof.Machine.Num := Fmt.fp32.value (BitVec.toNat xa % 2 ^ 32)
    let x : Sys2Proof.Machine.Num := Fmt.fp32.value (BitVec.toNat xa / 2 ^ 32)
    let small : Prop := Sys2Proof.Machine.Num.lt false ((Fmt.fp32.value q.tau).mul x) r = false
    (r.unfit = false) ∧
    (x.unfit = false) ∧
    (small) := by decide +kernel

theorem meets_RefinementInstructions_jd2 :
    let q : Rlc := { R 2 1 with r0 := some 1065353216 }
    let xa : Word := nw oneDeep 1073741824
    let r : Sys2Proof.Machine.Num := Fmt.fp32.value (BitVec.toNat xa % 2 ^ 32)
    let x : Sys2Proof.Machine.Num := Fmt.fp32.value (BitVec.toNat xa / 2 ^ 32)
    let above : Nat → BitVec 32 → Prop := fun ratio of => Sys2Proof.Machine.Num.lt false ((Fmt.fp32.value ratio).mul (Fmt.fp32.value of.toNat)) r = true
    let first : BitVec 32 := q.r0.getD (BitVec.extractLsb' 0 32 xa)
    let small : Prop := Sys2Proof.Machine.Num.lt false ((Fmt.fp32.value q.tau).mul x) r = false
    (r.unfit = false) ∧
    (x.unfit = false) ∧
    (¬small) ∧
    (above q.rhod first) := by decide +kernel

theorem meets_RefinementInstructions_jd3 :
    let q : Rlc := { R 2 1 with rprev := some 1065353216 }
    let xa : Word := nw oneDeep 1073741824
    let r : Sys2Proof.Machine.Num := Fmt.fp32.value (BitVec.toNat xa % 2 ^ 32)
    let x : Sys2Proof.Machine.Num := Fmt.fp32.value (BitVec.toNat xa / 2 ^ 32)
    let above : Nat → BitVec 32 → Prop := fun ratio of => Sys2Proof.Machine.Num.lt false ((Fmt.fp32.value ratio).mul (Fmt.fp32.value of.toNat)) r = true
    let first : BitVec 32 := q.r0.getD (BitVec.extractLsb' 0 32 xa)
    let small : Prop := Sys2Proof.Machine.Num.lt false ((Fmt.fp32.value q.tau).mul x) r = false
    let slow : Prop := ∃ p, q.rprev = some p ∧ above q.rhos p
    (r.unfit = false) ∧
    (x.unfit = false) ∧
    (¬small) ∧
    (¬above q.rhod first) ∧
    (slow) := by
  intro q xa r x above first small slow
  exact ⟨by decide +kernel, by decide +kernel, by decide +kernel, by decide +kernel, ⟨0x3F800000, rfl, by decide +kernel⟩⟩

theorem meets_RefinementInstructions_jd4 :
    let q : Rlc := { R 2 1 with rprev := some 1073741824 }
    let xa : Word := nw oneDeep 1073741824
    let r : Sys2Proof.Machine.Num := Fmt.fp32.value (BitVec.toNat xa % 2 ^ 32)
    let x : Sys2Proof.Machine.Num := Fmt.fp32.value (BitVec.toNat xa / 2 ^ 32)
    let above : Nat → BitVec 32 → Prop := fun ratio of => Sys2Proof.Machine.Num.lt false ((Fmt.fp32.value ratio).mul (Fmt.fp32.value of.toNat)) r = true
    let first : BitVec 32 := q.r0.getD (BitVec.extractLsb' 0 32 xa)
    let small : Prop := Sys2Proof.Machine.Num.lt false ((Fmt.fp32.value q.tau).mul x) r = false
    let slow : Prop := ∃ p, q.rprev = some p ∧ above q.rhos p
    (r.unfit = false) ∧
    (x.unfit = false) ∧
    (¬small) ∧
    (¬above q.rhod first) ∧
    (¬slow) := by
  intro q xa r x above first small slow
  exact ⟨by decide +kernel, by decide +kernel, by decide +kernel, by decide +kernel, (fun ⟨p, hp, ha⟩ => absurd ha (by cases hp; decide +kernel))⟩

theorem meets_RefinementInstructions_jd5 :
    let q : Rlc := { R 2 1 with iter := 2, rprev := some 1073741824 }
    let xa : Word := nw oneDeep 1073741824
    let r : Sys2Proof.Machine.Num := Fmt.fp32.value (BitVec.toNat xa % 2 ^ 32)
    let x : Sys2Proof.Machine.Num := Fmt.fp32.value (BitVec.toNat xa / 2 ^ 32)
    let j : Verdict × Rlc := q.judge xa
    let above : Nat → BitVec 32 → Prop := fun ratio of => Sys2Proof.Machine.Num.lt false ((Fmt.fp32.value ratio).mul (Fmt.fp32.value of.toNat)) r = true
    let first : BitVec 32 := q.r0.getD (BitVec.extractLsb' 0 32 xa)
    let small : Prop := Sys2Proof.Machine.Num.lt false ((Fmt.fp32.value q.tau).mul x) r = false
    (r.unfit = false) ∧
    (x.unfit = false) ∧
    (¬small) ∧
    (¬above q.rhod first) ∧
    (q.ns ≤ j.snd.sc.toNat ∨ q.maxit ≤ j.snd.iter.toNat) := by decide +kernel

theorem meets_RefinementInstructions_jd6 :
    let q : Rlc := { R 2 1 with iter := 1, rprev := some 1073741824 }
    let xa : Word := nw oneDeep 1073741824
    let r : Sys2Proof.Machine.Num := Fmt.fp32.value (BitVec.toNat xa % 2 ^ 32)
    let x : Sys2Proof.Machine.Num := Fmt.fp32.value (BitVec.toNat xa / 2 ^ 32)
    let j : Verdict × Rlc := q.judge xa
    let above : Nat → BitVec 32 → Prop := fun ratio of => Sys2Proof.Machine.Num.lt false ((Fmt.fp32.value ratio).mul (Fmt.fp32.value of.toNat)) r = true
    let first : BitVec 32 := q.r0.getD (BitVec.extractLsb' 0 32 xa)
    let small : Prop := Sys2Proof.Machine.Num.lt false ((Fmt.fp32.value q.tau).mul x) r = false
    (r.unfit = false) ∧
    (x.unfit = false) ∧
    (¬small) ∧
    (¬above q.rhod first) ∧
    (j.snd.sc.toNat < q.ns) ∧
    (j.snd.iter.toNat < q.maxit) := by decide +kernel

theorem meets_RefinementInstructions_ac2 :
    let q : Rlc := R 2 1
    (q.rung.toNat = q.nrm1) ∧
    (q.pstg = 0) := by decide +kernel

theorem meets_RefinementInstructions_ac2d :
    let q : Rlc := R 2 1
    (q.rung.toNat = q.nrm1) ∧
    (q.pdiv = 0) := by decide +kernel

theorem meets_RefinementInstructions_ac3 :
    let q : Rlc := R 2 1 1 1 1
    (q.pstg = 1) := by decide +kernel

theorem meets_RefinementInstructions_ac3d :
    let q : Rlc := R 2 1 0 1 1
    (q.pdiv = 1) := by decide +kernel

theorem meets_RefinementInstructions_ac4 :
    let q : Rlc := R 2 1 0 2 1
    (q.pdiv = 2) := by decide +kernel

theorem meets_RefinementInstructions_ac5 :
    (R2.rung.toNat < R2.nrm1) ∧
    (R2.pstg = 0) := by decide +kernel

theorem meets_RefinementInstructions_ac5d :
    (R2.rung.toNat < R2.nrm1) ∧
    (R2.pdiv = 0) := by decide +kernel



end Sys2Proof.Tests.Refinings

namespace Sys2Proof.Tests.Sequencers
open Sys2Proof Sys2Proof.Machine Sys2Proof.Claims
set_option Elab.async false

def wl (x0 : Word) (q : Port) (po : Bool := false) : State := { withX x0 0 po with ports := [(2, q)] }
def act : Port := { st := .active }
def bnd (q : Sequencer) : Port := { st := .active, seq := { q with st := .running, grp := some 1 } }
-- sequencers
/-- A put whose source faults. -/
theorem putSource_fault {s : State} {g a n : Nat} {q : Sequencer} {kind : BitVec 2}
    (h : (match s.localRange s.port g kind a n .rd with | .fault => true | _ => false) = true) :
    s.putSource g q kind a n = .stop (s.seqFatal s.port g 0x80) := by
  unfold State.putSource
  cases hr : s.localRange s.port g kind a n .rd <;> rw [hr] at h <;> first | rfl | cases h
def sq (q : Sequencer) (rem : Tbl Remote := []) (p : Nat := 2) : State := { mapped base with ports := [(p, { bnd q with })], port := p, seqTurn := true, pool := { token := some 1, remotes := rem } }

theorem meets_LinkInstructions_lp :
    let s : State := wl 2 act true
    let x : Reg := s.me.rd 0
    let i : Instr := Instr.lnkStep bare 3 0
    (i ∈ [Instr.lnkStart bare 5#6 0#6, Instr.lnkStep bare 3#6 0#6, Instr.lnkWait bare 0#6, Instr.lnkStat bare 5#6 0#6]) ∧
    (s.issues i 1 = true) ∧
    (x.poison = true) := by decide +kernel

theorem meets_LinkInstructions_ls1 :
    let s : State := wl 9367487224930635776 act
    let x : Reg := s.me.rd 0
    let g : Instr → State := fun i_1 => s.granted i_1 1
    let result : Word → State → State := fun v u => u.modMe fun t => t.result 5 { v := v }
    let i : Instr := Instr.lnkStart bare 5 0
    let p1 : Nat := BitVec.toNat x.v / 2 ^ 56 % 128
    let form : Prop := BitVec.getLsbD x.v 63 = false ∧ BitVec.extractLsb' 48 8 x.v = 0 ∧ BitVec.extractLsb' 0 3 x.v = 0 ∧ p1 < 80
    (s.issues i 1 = true) ∧
    (x.poison = false) ∧
    (¬form) ∧
    (s.hasRoom i (result 4#64 (g i)) = true) := by decide +kernel

theorem meets_LinkInstructions_ls2 :
    let s : State := wl 144115188075859968 (bnd { })
    let x : Reg := s.me.rd 0
    let g : Instr → State := fun i_1 => s.granted i_1 1
    let result : Word → State → State := fun v u => u.modMe fun t => t.result 5 { v := v }
    let i : Instr := Instr.lnkStart bare 5 0
    let p1 : Nat := BitVec.toNat x.v / 2 ^ 56 % 128
    let q1 : Port := s.portAt p1
    let form : Prop := BitVec.getLsbD x.v 63 = false ∧ BitVec.extractLsb' 48 8 x.v = 0 ∧ BitVec.extractLsb' 0 3 x.v = 0 ∧ p1 < 80
    (s.issues i 1 = true) ∧
    (x.poison = false) ∧
    (form) ∧
    (q1.seq.st ≠ SqState.idle) ∧
    (s.hasRoom i (result 1#64 (g i)) = true) := by decide +kernel

theorem meets_LinkInstructions_ls3 :
    let s : State := wl 144115188075859968 { act with pworld := 3 }
    let x : Reg := s.me.rd 0
    let g : Instr → State := fun i_1 => s.granted i_1 1
    let result : Word → State → State := fun v u => u.modMe fun t => t.result 5 { v := v }
    let i : Instr := Instr.lnkStart bare 5 0
    let p1 : Nat := BitVec.toNat x.v / 2 ^ 56 % 128
    let q1 : Port := s.portAt p1
    let form : Prop := BitVec.getLsbD x.v 63 = false ∧ BitVec.extractLsb' 48 8 x.v = 0 ∧ BitVec.extractLsb' 0 3 x.v = 0 ∧ p1 < 80
    let world : BitVec 8 := (s.ctxAt s.myCtx).world
    (s.issues i 1 = true) ∧
    (x.poison = false) ∧
    (form) ∧
    (q1.seq.st = SqState.idle) ∧
    (q1.pworld ≠ world) ∧
    (s.hasRoom i (result 2#64 (g i)) = true) := by decide +kernel

theorem meets_LinkInstructions_ls4 :
    let s : State := wl 144115188075859968 { }
    let x : Reg := s.me.rd 0
    let g : Instr → State := fun i_1 => s.granted i_1 1
    let result : Word → State → State := fun v u => u.modMe fun t => t.result 5 { v := v }
    let i : Instr := Instr.lnkStart bare 5 0
    let p1 : Nat := BitVec.toNat x.v / 2 ^ 56 % 128
    let q1 : Port := s.portAt p1
    let form : Prop := BitVec.getLsbD x.v 63 = false ∧ BitVec.extractLsb' 48 8 x.v = 0 ∧ BitVec.extractLsb' 0 3 x.v = 0 ∧ p1 < 80
    let world : BitVec 8 := (s.ctxAt s.myCtx).world
    (s.issues i 1 = true) ∧
    (x.poison = false) ∧
    (form) ∧
    (q1.seq.st = SqState.idle) ∧
    (q1.pworld = world) ∧
    (q1.st ≠ PortState.active) ∧
    (q1.st ≠ PortState.degraded) ∧
    (s.hasRoom i (result 3#64 (g i)) = true) := by decide +kernel

theorem meets_LinkInstructions_ls5 :
    let s : State := wl 144115188075859968 act
    let x : Reg := s.me.rd 0
    let g : Instr → State := fun i_1 => s.granted i_1 1
    let result : Word → State → State := fun v u => u.modMe fun t => t.result 5 { v := v }
    let i : Instr := Instr.lnkStart bare 5 0
    let p1 : Nat := BitVec.toNat x.v / 2 ^ 56 % 128
    let q1 : Port := s.portAt p1
    let form : Prop := BitVec.getLsbD x.v 63 = false ∧ BitVec.extractLsb' 48 8 x.v = 0 ∧ BitVec.extractLsb' 0 3 x.v = 0 ∧ p1 < 80
    let world : BitVec 8 := (s.ctxAt s.myCtx).world
    let rank : Nat := (match s.myGroup with
      | some (_, y) => rankIn y.cores s.core
      | none => 0)
    let b : Sequencer := { st := SqState.running, last := q1.seq.last, grp := s.myCore.group, prog := BitVec.extractLsb' 0 48 x.v, caps := s.me.c, mark := (g i).me.mark, rank := rank }
    (s.issues i 1 = true) ∧
    (x.poison = false) ∧
    (form) ∧
    (q1.seq.st = SqState.idle) ∧
    (q1.pworld = world) ∧
    (q1.st = PortState.active ∨ q1.st = PortState.degraded) ∧
    (s.hasRoom i (result 0#64 ((g i).modSeq p1 fun _ => b)) = true) := by decide +kernel

theorem meets_LinkInstructions_lt1 :
    let s : State := wl 3 act
    let x : Reg := s.me.rd 0
    let g : Instr → State := fun i_1 => s.granted i_1 1
    let p : Nat := BitVec.toNat x.v % 128
    let bound : Prop := p < 80 ∧ s.myCore.group ≠ none ∧ (s.portAt p).seq.grp = s.myCore.group
    let i : Instr := Instr.lnkStep bare 3 0
    (s.issues i 1 = true) ∧
    (x.poison = false) ∧
    (¬bound) ∧
    (s.hasRoom i (g i) = true) := by decide +kernel

theorem meets_LinkInstructions_lt2 :
    let s : State := wl 2 (bnd { go := 4294967293 })
    let x : Reg := s.me.rd 0
    let p : Nat := BitVec.toNat x.v % 128
    let bound : Prop := p < 80 ∧ s.myCore.group ≠ none ∧ (s.portAt p).seq.grp = s.myCore.group
    let q : Sequencer := (s.portAt p).seq
    let i : Instr := Instr.lnkStep bare 3 0
    (s.issues i 1 = true) ∧
    (x.poison = false) ∧
    (bound) ∧
    (2 ^ 32 ≤ q.go.toNat + 3) := by decide +kernel

theorem meets_LinkInstructions_lt3 :
    let s : State := wl 2 (bnd { go := 4294967292 })
    let x : Reg := s.me.rd 0
    let g : Instr → State := fun i_1 => s.granted i_1 1
    let p : Nat := BitVec.toNat x.v % 128
    let bound : Prop := p < 80 ∧ s.myCore.group ≠ none ∧ (s.portAt p).seq.grp = s.myCore.group
    let q : Sequencer := (s.portAt p).seq
    let i : Instr := Instr.lnkStep bare 3 0
    (s.issues i 1 = true) ∧
    (x.poison = false) ∧
    (bound) ∧
    (q.go.toNat + 3 < 2 ^ 32) ∧
    (s.hasRoom i ((g i).modSeq p fun q_1 => { q_1 with go := q_1.go + BitVec.setWidth 32 3#6, mark := q_1.mark.join (g i).me.mark }) = true) := by decide +kernel

theorem meets_LinkInstructions_lw1 :
    let s : State := wl 80 act
    let x : Reg := s.me.rd 0
    let g : Instr → State := fun i_1 => s.granted i_1 1
    let p : Nat := BitVec.toNat x.v % 128
    let bound : Prop := p < 80 ∧ s.myCore.group ≠ none ∧ (s.portAt p).seq.grp = s.myCore.group
    let i : Instr := Instr.lnkWait bare 0
    (s.issues i 1 = true) ∧
    (x.poison = false) ∧
    (¬bound) ∧
    (s.hasRoom i (g i) = true) := by decide +kernel

theorem meets_LinkInstructions_lw2 :
    let s : State := wl 21474836482 (bnd { posted := 5 })
    let x : Reg := s.me.rd 0
    let g : Instr → State := fun i_1 => s.granted i_1 1
    let p : Nat := BitVec.toNat x.v % 128
    let bound : Prop := p < 80 ∧ s.myCore.group ≠ none ∧ (s.portAt p).seq.grp = s.myCore.group
    let q : Sequencer := (s.portAt p).seq
    let i : Instr := Instr.lnkWait bare 0
    let reached : Prop := (q.posted - BitVec.extractLsb' 32 32 x.v).toNat < 2 ^ 31 ∨ q.st = SqState.idle
    (s.issues i 1 = true) ∧
    (x.poison = false) ∧
    (bound) ∧
    (reached) ∧
    (s.hasRoom i ((g i).modMe fun t => t.learn q.mark) = true) := by decide +kernel

theorem meets_LinkInstructions_lw3 :
    let s : State := wl 25769803778 (bnd { posted := 5 })
    let x : Reg := s.me.rd 0
    let p : Nat := BitVec.toNat x.v % 128
    let bound : Prop := p < 80 ∧ s.myCore.group ≠ none ∧ (s.portAt p).seq.grp = s.myCore.group
    let q : Sequencer := (s.portAt p).seq
    let i : Instr := Instr.lnkWait bare 0
    let reached : Prop := (q.posted - BitVec.extractLsb' 32 32 x.v).toNat < 2 ^ 31 ∨ q.st = SqState.idle
    (s.issues i 1 = true) ∧
    (x.poison = false) ∧
    (bound) ∧
    (¬reached) := by decide +kernel

theorem meets_LinkInstructions_lx1 :
    let s : State := wl 1280 act
    let x : Reg := s.me.rd 0
    let g : Instr → State := fun i_1 => s.granted i_1 1
    let result : Word → State → State := fun v u => u.modMe fun t => t.result 5 { v := v }
    let p : Nat := BitVec.toNat x.v % 128
    let i : Instr := Instr.lnkStat bare 5 0
    let sel : Nat := BitVec.toNat x.v / 256 % 8
    (s.issues i 1 = true) ∧
    (x.poison = false) ∧
    (80 ≤ p ∨ 5 ≤ sel) ∧
    (s.hasRoom i (result 0#64 (g i)) = true) := by decide +kernel

theorem meets_LinkInstructions_lx2 :
    let s : State := wl 2 act
    let x : Reg := s.me.rd 0
    let g : Instr → State := fun i_1 => s.granted i_1 1
    let result : Word → State → State := fun v u => u.modMe fun t => t.result 5 { v := v }
    let p : Nat := BitVec.toNat x.v % 128
    let i : Instr := Instr.lnkStat bare 5 0
    let sel : Nat := BitVec.toNat x.v / 256 % 8
    (s.issues i 1 = true) ∧
    (x.poison = false) ∧
    (p < 80) ∧
    (sel = 0) ∧
    (s.hasRoom i (result (s.pstate p) (g i)) = true) := by decide +kernel

theorem meets_LinkInstructions_lx3 :
    let s : State := wl 1026 act
    let x : Reg := s.me.rd 0
    let g : Instr → State := fun i_1 => s.granted i_1 1
    let result : Word → State → State := fun v u => u.modMe fun t => t.result 5 { v := v }
    let p : Nat := BitVec.toNat x.v % 128
    let i : Instr := Instr.lnkStat bare 5 0
    let sel : Nat := BitVec.toNat x.v / 256 % 8
    (s.issues i 1 = true) ∧
    (x.poison = false) ∧
    (p < 80) ∧
    (sel = 4) ∧
    (s.hasRoom i (result (s.peolh p) (g i)) = true) := by decide +kernel

theorem meets_LinkInstructions_lx4 :
    let s : State := wl 258 (bnd { posted := 7 })
    let x : Reg := s.me.rd 0
    let g : Instr → State := fun i_1 => s.granted i_1 1
    let result : Word → State → State := fun v u => u.modMe fun t => t.result 5 { v := v }
    let p : Nat := BitVec.toNat x.v % 128
    let bound : Prop := p < 80 ∧ s.myCore.group ≠ none ∧ (s.portAt p).seq.grp = s.myCore.group
    let q : Sequencer := (s.portAt p).seq
    let i : Instr := Instr.lnkStat bare 5 0
    let sel : Nat := BitVec.toNat x.v / 256 % 8
    (s.issues i 1 = true) ∧
    (x.poison = false) ∧
    (bound) ∧
    (sel = 1) ∧
    (s.hasRoom i (result (q.status true) (g i)) = true) := by decide +kernel

theorem meets_LinkInstructions_lx5 :
    let s : State := wl 514 (bnd { posted := 7 })
    let x : Reg := s.me.rd 0
    let g : Instr → State := fun i_1 => s.granted i_1 1
    let result : Word → State → State := fun v u => u.modMe fun t => t.result 5 { v := v }
    let p : Nat := BitVec.toNat x.v % 128
    let bound : Prop := p < 80 ∧ s.myCore.group ≠ none ∧ (s.portAt p).seq.grp = s.myCore.group
    let q : Sequencer := (s.portAt p).seq
    let i : Instr := Instr.lnkStat bare 5 0
    let sel : Nat := BitVec.toNat x.v / 256 % 8
    (s.issues i 1 = true) ∧
    (x.poison = false) ∧
    (bound) ∧
    (sel = 2) ∧
    (s.hasRoom i (result (BitVec.setWidth 64 q.posted) (g i)) = true) := by decide +kernel

theorem meets_LinkInstructions_lx6 :
    let s : State := wl 770 (bnd { go := 7 })
    let x : Reg := s.me.rd 0
    let g : Instr → State := fun i_1 => s.granted i_1 1
    let result : Word → State → State := fun v u => u.modMe fun t => t.result 5 { v := v }
    let p : Nat := BitVec.toNat x.v % 128
    let bound : Prop := p < 80 ∧ s.myCore.group ≠ none ∧ (s.portAt p).seq.grp = s.myCore.group
    let q : Sequencer := (s.portAt p).seq
    let i : Instr := Instr.lnkStat bare 5 0
    let sel : Nat := BitVec.toNat x.v / 256 % 8
    (s.issues i 1 = true) ∧
    (x.poison = false) ∧
    (bound) ∧
    (sel = 3) ∧
    (s.hasRoom i (result (BitVec.setWidth 64 q.go) (g i)) = true) := by decide +kernel

theorem meets_LinkInstructions_lx7 :
    let s : State := wl 770 act
    let x : Reg := s.me.rd 0
    let g : Instr → State := fun i_1 => s.granted i_1 1
    let result : Word → State → State := fun v u => u.modMe fun t => t.result 5 { v := v }
    let p : Nat := BitVec.toNat x.v % 128
    let bound : Prop := p < 80 ∧ s.myCore.group ≠ none ∧ (s.portAt p).seq.grp = s.myCore.group
    let i : Instr := Instr.lnkStat bare 5 0
    let sel : Nat := BitVec.toNat x.v / 256 % 8
    (s.issues i 1 = true) ∧
    (x.poison = false) ∧
    (p < 80) ∧
    (¬bound) ∧
    (1 ≤ sel) ∧
    (sel ≤ 3) ∧
    (s.hasRoom i (result 0#64 (g i)) = true) := by decide +kernel

theorem meets_SequencerPerformsItsWords_nop :
    let s : State := sq { }
    let x : Group := (s.groups.find? 1).getD group1
    let q : Sequencer := (s.portAt s.port).seq
    (q.st = SqState.running) ∧
    (q.grp = some 1) ∧
    (s.groups.find? 1 = some x) ∧
    (x.contain = none) := by decide +kernel

theorem meets_SequencerPerformsItsWords_cfg0 :
    let s : State := sq { }
    let x : Group := (s.groups.find? 1).getD group1
    let q : Sequencer := (s.portAt s.port).seq
    (q.st = SqState.running) ∧
    (q.grp = some 1) ∧
    (s.groups.find? 1 = some x) ∧
    (x.contain = none) := by decide +kernel

theorem meets_SequencerPerformsItsWords_cfg1 :
    let s : State := sq { }
    let x : Group := (s.groups.find? 1).getD group1
    let q : Sequencer := (s.portAt s.port).seq
    (q.st = SqState.running) ∧
    (q.grp = some 1) ∧
    (s.groups.find? 1 = some x) ∧
    (x.contain = none) := by decide +kernel

theorem meets_SequencerPerformsItsWords_cfg2 :
    let s : State := sq { }
    let x : Group := (s.groups.find? 1).getD group1
    let q : Sequencer := (s.portAt s.port).seq
    (q.st = SqState.running) ∧
    (q.grp = some 1) ∧
    (s.groups.find? 1 = some x) ∧
    (x.contain = none) := by decide +kernel

theorem meets_SequencerPerformsItsWords_cfg3 :
    let s : State := sq { }
    let x : Group := (s.groups.find? 1).getD group1
    let q : Sequencer := (s.portAt s.port).seq
    (q.st = SqState.running) ∧
    (q.grp = some 1) ∧
    (s.groups.find? 1 = some x) ∧
    (x.contain = none) := by decide +kernel

theorem meets_SequencerPerformsItsWords_lo1 :
    let s : State := sq { loops := [(1, { remain := 4, start := 3, active := true })], spcw := 9 }
    let x : Group := (s.groups.find? 1).getD group1
    let q : Sequencer := (s.portAt s.port).seq
    (q.st = SqState.running) ∧
    (q.grp = some 1) ∧
    (s.groups.find? 1 = some x) ∧
    (x.contain = none) ∧
    ((Tbl.get { } q.loops 1).active = true) := by decide +kernel

theorem meets_SequencerPerformsItsWords_lo2 :
    let s : State := sq { }
    let x : Group := (s.groups.find? 1).getD group1
    let q : Sequencer := (s.portAt s.port).seq
    (q.st = SqState.running) ∧
    (q.grp = some 1) ∧
    (s.groups.find? 1 = some x) ∧
    (x.contain = none) ∧
    ((Tbl.get { } q.loops 1).active = false) ∧
    (0#32 = 0#32) := by decide +kernel

theorem meets_SequencerPerformsItsWords_lo3 :
    let s : State := sq { }
    let x : Group := (s.groups.find? 1).getD group1
    let q : Sequencer := (s.portAt s.port).seq
    (q.st = SqState.running) ∧
    (q.grp = some 1) ∧
    (s.groups.find? 1 = some x) ∧
    (x.contain = none) ∧
    ((Tbl.get { } q.loops 1).active = false) ∧
    (5#32 ≠ 0#32) := by decide +kernel

theorem meets_SequencerPerformsItsWords_el1 :
    let s : State := sq { }
    let x : Group := (s.groups.find? 1).getD group1
    let q : Sequencer := (s.portAt s.port).seq
    let l : SqLoop := Tbl.get { } q.loops 1
    (q.st = SqState.running) ∧
    (q.grp = some 1) ∧
    (s.groups.find? 1 = some x) ∧
    (x.contain = none) ∧
    (l.active = false) := by decide +kernel

theorem meets_SequencerPerformsItsWords_el2 :
    let s : State := sq { gens := [(2, { a := 7, d1 := 5 })], loops := [(1, { remain := 1, start := 3, active := true })], spcw := 9 }
    let x : Group := (s.groups.find? 1).getD group1
    let q : Sequencer := (s.portAt s.port).seq
    let l : SqLoop := Tbl.get { } q.loops 1
    (q.st = SqState.running) ∧
    (q.grp = some 1) ∧
    (s.groups.find? 1 = some x) ∧
    (x.contain = none) ∧
    (l.active = true) ∧
    (l.remain = 1#32) := by decide +kernel

theorem meets_SequencerPerformsItsWords_el3 :
    let s : State := sq { loops := [(1, { remain := 4, start := 3, active := true })], spcw := 9 }
    let x : Group := (s.groups.find? 1).getD group1
    let q : Sequencer := (s.portAt s.port).seq
    let l : SqLoop := Tbl.get { } q.loops 1
    (q.st = SqState.running) ∧
    (q.grp = some 1) ∧
    (s.groups.find? 1 = some x) ∧
    (x.contain = none) ∧
    (l.active = true) ∧
    (l.remain ≠ 1#32) := by decide +kernel

theorem meets_SequencerPerformsItsWords_wa1 :
    let s : State := sq { go := 5 }
    let x : Group := (s.groups.find? 1).getD group1
    let q : Sequencer := (s.portAt s.port).seq
    (q.st = SqState.running) ∧
    (q.grp = some 1) ∧
    (s.groups.find? 1 = some x) ∧
    (x.contain = none) ∧
    (5 ≤ q.go.toNat) := by decide +kernel

theorem meets_SequencerPerformsItsWords_wa2 :
    let s : State := sq { go := 5 }
    let x : Group := (s.groups.find? 1).getD group1
    let q : Sequencer := (s.portAt s.port).seq
    (q.st = SqState.running) ∧
    (q.grp = some 1) ∧
    (s.groups.find? 1 = some x) ∧
    (x.contain = none) ∧
    (q.go.toNat < 6) := by decide +kernel

theorem meets_SequencerPerformsItsWords_po1 :
    let s : State := sq { }
    let x : Group := (s.groups.find? 1).getD group1
    let q : Sequencer := (s.portAt s.port).seq
    (q.st = SqState.running) ∧
    (q.grp = some 1) ∧
    (s.groups.find? 1 = some x) ∧
    (x.contain = none) ∧
    (s.getsOpen s.port = false) := by decide +kernel

theorem meets_SequencerPerformsItsWords_po2 :
    let s : State := sq { } [(3, { kind := RemoteKind.get 2 0 0 0 64, grp := 1, port := 2 })]
    let x : Group := (s.groups.find? 1).getD group1
    let q : Sequencer := (s.portAt s.port).seq
    (q.st = SqState.running) ∧
    (q.grp = some 1) ∧
    (s.groups.find? 1 = some x) ∧
    (x.contain = none) ∧
    (s.getsOpen s.port = true) := by decide +kernel

theorem meets_SequencerPerformsItsWords_fe1 :
    let s : State := sq { }
    let x : Group := (s.groups.find? 1).getD group1
    let q : Sequencer := (s.portAt s.port).seq
    (q.st = SqState.running) ∧
    (q.grp = some 1) ∧
    (s.groups.find? 1 = some x) ∧
    (x.contain = none) ∧
    (s.linkOps s.port = []) := by decide +kernel

theorem meets_SequencerPerformsItsWords_fe2 :
    let s : State := sq { } [(3, { kind := RemoteKind.get 2 0 0 0 64, grp := 1, port := 2 })]
    let x : Group := (s.groups.find? 1).getD group1
    let q : Sequencer := (s.portAt s.port).seq
    (q.st = SqState.running) ∧
    (q.grp = some 1) ∧
    (s.groups.find? 1 = some x) ∧
    (x.contain = none) ∧
    (s.linkOps s.port ≠ []) := by decide +kernel

theorem meets_SequencerPerformsItsWords_ha1 :
    let s : State := sq { }
    let x : Group := (s.groups.find? 1).getD group1
    let q : Sequencer := (s.portAt s.port).seq
    (q.st = SqState.running) ∧
    (q.grp = some 1) ∧
    (s.groups.find? 1 = some x) ∧
    (x.contain = none) ∧
    (s.linkOps s.port = []) := by decide +kernel

theorem meets_SequencerPerformsItsWords_ev1 :
    let s : State := sq { }
    let x : Group := (s.groups.find? 1).getD group1
    let q : Sequencer := (s.portAt s.port).seq
    (q.st = SqState.running) ∧
    (q.grp = some 1) ∧
    (s.groups.find? 1 = some x) ∧
    (x.contain = none) := by decide +kernel

theorem meets_SequencerPerformsItsWords_ge1 :
    let s : State := sq { }
    let x : Group := (s.groups.find? 1).getD group1
    let q : Sequencer := (s.portAt s.port).seq
    let gen : Nat → Gen := fun j => Tbl.get { } q.gens j
    let l : Gen := gen 0
    let r : Gen := gen 1
    let form : Prop := l.kind.toNat < 2 ∧ l.a.toNat % 64 = 0 ∧ r.a.toNat % 64 = 0 ∧ r.kind = 2 ∧ peerFacing s.port = false
    (q.st = SqState.running) ∧
    (q.grp = some 1) ∧
    (s.groups.find? 1 = some x) ∧
    (x.contain = none) ∧
    (¬form) := by decide +kernel

theorem meets_SequencerPerformsItsWords_ge2 :
    let s : State := sq { gens := [(0, { a := 64, d0 := 64 }), (1, { kind := 2, capi := 1, d0 := 128 })], caps := [(1, { v := cap true, poison := true })] }
    let x : Group := (s.groups.find? 1).getD group1
    let q : Sequencer := (s.portAt s.port).seq
    let gen : Nat → Gen := fun j => Tbl.get { } q.gens j
    let l : Gen := gen 0
    let r : Gen := gen 1
    let c : CapReg := Tbl.get { } q.caps r.capi.toNat
    let form : Prop := l.kind.toNat < 2 ∧ l.a.toNat % 64 = 0 ∧ r.a.toNat % 64 = 0 ∧ r.kind = 2 ∧ peerFacing s.port = false
    (q.st = SqState.running) ∧
    (q.grp = some 1) ∧
    (s.groups.find? 1 = some x) ∧
    (x.contain = none) ∧
    (form) ∧
    (c.poison = true) := by decide +kernel

theorem meets_SequencerPerformsItsWords_ge3 :
    let s : State := sq { gens := [(0, { a := 64, d0 := 64 }), (1, { kind := 2, capi := 1, d0 := 128 })], caps := [(1, { v := cap true })] }
    let x : Group := (s.groups.find? 1).getD group1
    let q : Sequencer := (s.portAt s.port).seq
    let gen : Nat → Gen := fun j => Tbl.get { } q.gens j
    let len : Nat := 65 * 64
    let l : Gen := gen 0
    let r : Gen := gen 1
    let c : CapReg := Tbl.get { } q.caps r.capi.toNat
    let form : Prop := l.kind.toNat < 2 ∧ l.a.toNat % 64 = 0 ∧ r.a.toNat % 64 = 0 ∧ r.kind = 2 ∧ peerFacing s.port = false
    (q.st = SqState.running) ∧
    (q.grp = some 1) ∧
    (s.groups.find? 1 = some x) ∧
    (x.contain = none) ∧
    (form) ∧
    (c.poison = false) ∧
    (capCheck c.v (↑r.a.toNat) len Right.rd = false) := by decide +kernel

theorem meets_SequencerPerformsItsWords_ge4 :
    let s : State := sq { gens := [(0, { a := 64, d0 := 64 }), (1, { kind := 2, capi := 1, d0 := 128 })], caps := [(1, { v := cap true })] }
    let x : Group := (s.groups.find? 1).getD group1
    let q : Sequencer := (s.portAt s.port).seq
    let gen : Nat → Gen := fun j => Tbl.get { } q.gens j
    let len : Nat := 1 * 64
    let l : Gen := gen 0
    let r : Gen := gen 1
    let c : CapReg := Tbl.get { } q.caps r.capi.toNat
    let form : Prop := l.kind.toNat < 2 ∧ l.a.toNat % 64 = 0 ∧ r.a.toNat % 64 = 0 ∧ r.kind = 2 ∧ peerFacing s.port = false
    (q.st = SqState.running) ∧
    (q.grp = some 1) ∧
    (s.groups.find? 1 = some x) ∧
    (x.contain = none) ∧
    (form) ∧
    (c.poison = false) ∧
    (capCheck c.v (↑r.a.toNat) len Right.rd = true) ∧
    (q.sent = 0) ∧
    (s.linkOps s.port = []) ∧
    (len ≤ 65536) ∧
    (1#20 ≠ 0#20) := by decide +kernel

theorem meets_SequencerPerformsItsWords_pu1 :
    let s : State := sq { } [] 79
    let x : Group := (s.groups.find? 1).getD group1
    let q : Sequencer := (s.portAt s.port).seq
    let gen : Nat → Gen := fun j => Tbl.get { } q.gens j
    let l : Gen := gen 0
    let r : Gen := gen 1
    let form : Prop := l.kind.toNat < 2 ∧ l.a.toNat % 64 = 0 ∧ r.a.toNat % 64 = 0 ∧ r.kind = 3 ∧ peerFacing s.port = true
    (q.st = SqState.running) ∧
    (q.grp = some 1) ∧
    (s.groups.find? 1 = some x) ∧
    (x.contain = none) ∧
    (¬form) := by decide +kernel

theorem meets_SequencerPerformsItsWords_pu2 :
    let s : State := sq { gens := [(0, { a := 64, d0 := 64 }), (1, { kind := 3, capi := 1, a := 128, d0 := 128 })] } [] 79
    let x : Group := (s.groups.find? 1).getD group1
    let q : Sequencer := (s.portAt s.port).seq
    let gen : Nat → Gen := fun j => Tbl.get { } q.gens j
    let len : Nat := 1 * 64
    let l : Gen := gen 0
    let r : Gen := gen 1
    let form : Prop := l.kind.toNat < 2 ∧ l.a.toNat % 64 = 0 ∧ r.a.toNat % 64 = 0 ∧ r.kind = 3 ∧ peerFacing s.port = true
    let bs : List Byte := (match s.putSource 1 (s.portAt 79).seq 0 64 64 with
      | PutRead.ok b _ => b
      | _ => [])
    let u : State := (match s.putSource 1 (s.portAt 79).seq 0 64 64 with
      | PutRead.ok _ u_1 => u_1
      | _ => base)
    (q.st = SqState.running) ∧
    (q.grp = some 1) ∧
    (s.groups.find? 1 = some x) ∧
    (x.contain = none) ∧
    (form) ∧
    (q.sent = 0) ∧
    (s.linkOps s.port = []) ∧
    (len ≤ 65536) ∧
    (1#20 ≠ 0#20) ∧
    (s.putSource 1 q l.kind l.a.toNat len = PutRead.ok bs u) ∧
    (u.port = s.port) := by decide +kernel

theorem meets_SequencerPerformsItsWords_pu3 :
    let s : State := sq { gens := [(0, { a := 64, d0 := 64 }), (1, { kind := 3, capi := 1, a := 128, d0 := 128 })] } [] 79
    let x : Group := (s.groups.find? 1).getD group1
    let q : Sequencer := (s.portAt s.port).seq
    let gen : Nat → Gen := fun j => Tbl.get { } q.gens j
    let len : Nat := 1 * 64
    let l : Gen := gen 0
    let r : Gen := gen 1
    let form : Prop := l.kind.toNat < 2 ∧ l.a.toNat % 64 = 0 ∧ r.a.toNat % 64 = 0 ∧ r.kind = 3 ∧ peerFacing s.port = true
    let bs : List Byte := (match s.putSource 1 (s.portAt 79).seq 0 64 64 with
      | PutRead.ok b _ => b
      | _ => [])
    let u : State := (match s.putSource 1 (s.portAt 79).seq 0 64 64 with
      | PutRead.ok _ u_1 => u_1
      | _ => base)
    (q.st = SqState.running) ∧
    (q.grp = some 1) ∧
    (s.groups.find? 1 = some x) ∧
    (x.contain = none) ∧
    (form) ∧
    (q.sent = 0) ∧
    (s.linkOps s.port = []) ∧
    (len ≤ 65536) ∧
    (1#20 ≠ 0#20) ∧
    (s.putSource 1 q l.kind l.a.toNat len = PutRead.ok bs u) ∧
    (u.port = s.port) := by decide +kernel

theorem meets_SequencerPerformsItsWords_pu4 :
    let s : State := (sq { gens := [(0, { kind := 1, a := 64, d0 := 64 }), (1, { kind := 3, capi := 1, a := 128, d0 := 128 })] } [] 79).modCtx 1 fun c => { c with desc := [] }
    let x : Group := (s.groups.find? 1).getD group1
    let q : Sequencer := (s.portAt s.port).seq
    let gen : Nat → Gen := fun j => Tbl.get { } q.gens j
    let len : Nat := 1 * 64
    let l : Gen := gen 0
    let r : Gen := gen 1
    let form : Prop := l.kind.toNat < 2 ∧ l.a.toNat % 64 = 0 ∧ r.a.toNat % 64 = 0 ∧ r.kind = 3 ∧ peerFacing s.port = true
    let u : State := s.seqFatal 79 1 128
    (q.st = SqState.running) ∧
    (q.grp = some 1) ∧
    (s.groups.find? 1 = some x) ∧
    (x.contain = none) ∧
    (form) ∧
    (q.sent = 0) ∧
    (s.linkOps s.port = []) ∧
    (len ≤ 65536) ∧
    (1#20 ≠ 0#20) ∧
    (s.putSource 1 q l.kind l.a.toNat len = PutRead.stop u) := by
  intro s x q gen len l r form u
  exact ⟨by decide +kernel, by decide +kernel, by decide +kernel, by decide +kernel, by decide +kernel, by decide +kernel, by decide +kernel, by decide +kernel, by decide +kernel, putSource_fault (by decide +kernel)⟩

theorem meets_SequencerPerformsItsWords_sf1 :
    let s : State := (sq { gens := [(0, { kind := 1, a := 64, d0 := 64 }), (1, { kind := 3, capi := 1, a := 128, d0 := 128 })] } [] 79).modCtx 1 fun c => { c with desc := [] }
    let x : Group := (s.groups.find? 1).getD group1
    let q : Sequencer := (s.portAt s.port).seq
    let va : Nat := q.prog.toNat + 8 * q.spcw.toNat
    (q.st = SqState.running) ∧
    (q.grp = some 1) ∧
    (s.groups.find? 1 = some x) ∧
    (x.contain = none) ∧
    (79 = s.port) ∧
    (q.skip = none) ∧
    (q.word = none) ∧
    (s.hPhys (s.grpCtx 1) (↑va) Right.rd = none) := by decide +kernel

theorem meets_SequencerPerformsItsWords_sf2 :
    let s : State := { sq { } with hbm := { (mapped base).hbm with poison := [(2 ^ 23, true)] } }
    let x : Group := (s.groups.find? 1).getD group1
    let q : Sequencer := (s.portAt s.port).seq
    let va : Nat := q.prog.toNat + 8 * q.spcw.toNat
    let pa : Nat := 2 ^ 29
    let r : List Byte × Bool × State := s.homeRead (addrs pa 8)
    (q.st = SqState.running) ∧
    (q.grp = some 1) ∧
    (s.groups.find? 1 = some x) ∧
    (x.contain = none) ∧
    (2 = s.port) ∧
    (q.skip = none) ∧
    (q.word = none) ∧
    (s.hPhys (s.grpCtx 1) (↑va) Right.rd = some pa) ∧
    (r.snd.fst = true) := by decide +kernel

theorem meets_SequencerPerformsItsWords_sf3 :
    let s : State := sq { }
    let x : Group := (s.groups.find? 1).getD group1
    let q : Sequencer := (s.portAt s.port).seq
    let va : Nat := q.prog.toNat + 8 * q.spcw.toNat
    let pa : Nat := 2 ^ 29
    let r : List Byte × Bool × State := s.homeRead (addrs pa 8)
    (q.st = SqState.running) ∧
    (q.grp = some 1) ∧
    (s.groups.find? 1 = some x) ∧
    (x.contain = none) ∧
    (2 = s.port) ∧
    (q.skip = none) ∧
    (q.word = none) ∧
    (s.hPhys (s.grpCtx 1) (↑va) Right.rd = some pa) ∧
    (r.snd.fst = false) := by decide +kernel

theorem meets_SequencerPerformsItsWords_sf4 :
    let s : State := sq { word := some 18446744073709551615 }
    let x : Group := (s.groups.find? 1).getD group1
    let q : Sequencer := (s.portAt s.port).seq
    let w : BitVec 64 := 18446744073709551615
    (q.st = SqState.running) ∧
    (q.grp = some 1) ∧
    (s.groups.find? 1 = some x) ∧
    (x.contain = none) ∧
    (2 = s.port) ∧
    (q.word = some w) ∧
    (∀ (i : Instr), decodeSq w ≠ Decoded.ok i) := by
  intro s x q w
  exact ⟨by decide +kernel, by decide +kernel, by decide +kernel, by decide +kernel, by decide +kernel, by decide +kernel, (fun i hi => absurd (hi.symm.trans (show decodeSq w = .bad .unassigned by decide +kernel)) (by intro h; cases h))⟩

theorem meets_SequencerWaitsEnd_we1 :
    let s : State := { sq { } with ports := [(2, { st := PortState.active, seq := { st := SqState.waiting, go := 3, spcw := 8, grp := some 1, need := 4 } })] }
    let q : Sequencer := (s.portAt 2).seq
    (q.st = SqState.waiting) ∧
    (q.go.toNat < q.need.toNat) := by decide +kernel

theorem meets_SequencerWaitsEnd_we2 :
    let s : State := { sq { } with ports := [(2, { st := PortState.active, seq := { st := SqState.waiting, go := 4, spcw := 8, grp := some 1, need := 4 } })] }
    let q : Sequencer := (s.portAt 2).seq
    (q.st = SqState.waiting) ∧
    (q.need.toNat ≤ q.go.toNat) := by decide +kernel

theorem meets_SequencerWaitsEnd_we3 :
    let s : State := { sq { } with ports := [(2, { st := PortState.active, seq := { st := SqState.fencing, go := 4, spcw := 8, grp := some 1, need := 4 } })] }
    let q : Sequencer := (s.portAt 2).seq
    (q.st = SqState.fencing) ∧
    (s.linkOps 2 = []) := by decide +kernel

theorem meets_SequencerWaitsEnd_we4 :
    let s : State := { sq { } [(3, { kind := RemoteKind.get 2 0 0 0 64, grp := 1, port := 2 })] with ports := [(2, { st := PortState.active, seq := { st := SqState.fencing, go := 4, spcw := 8, grp := some 1, need := 4 } })] }
    let q : Sequencer := (s.portAt 2).seq
    (q.st = SqState.fencing) ∧
    (s.linkOps 2 ≠ []) := by decide +kernel



end Sys2Proof.Tests.Sequencers
end

