-- ==== Sys2Proof/Tests/Clock.lean ====
section
/-! SUPPORT. States that meet the hypotheses of the statements about clocks. -/

namespace Sys2Proof.Tests.Clocks
open Sys2Proof Sys2Proof.Machine Sys2Proof.Claims
set_option Elab.async false

def failed : State := base.modCtx 1 (fun c => { c with st := .failed })
def q3 : State := { base with queues := [(3, { st := .active, desc := [(3, BitVec.ofNat 64 (2 ^ 44))] })] }
def doomed : State := base.modCtx 1 (fun c => { c with dying := some 0x82 })
def ending (fenced : Bool) (bs : List Boundary) : Group := { group1 with contain := some 0x40, fenced := fenced, ver := { bounds := bs } }
def timed : State := { base with pkg := { st := .serving, timeRuns := true, frac := 7, ns := 40, up := 9 } }
def inClock (i : Instr) (o : List (Seat × Nat)) : State := { (mapped (withX 8 0)).pokeHbm (2 ^ 29) (code i) with order := o }
def pop : Instr := .fpush bare 0
def load : Instr := .ldSOneWord bare 2 0 0
def store : Instr := .stSOneWord bare 1 0 0
def ahead : State := inClock load []
def taken : Core × Mark := (ahead.myCore.grant 0 load 1).getD (ahead.myCore, {})
def issued : State := (ahead.setCore ahead.core taken.1).modMe (fun t => t.learn taken.2)
def gone : State := (goneOn (exec load (issued.setMe { issued.me with behind := true }))).getD base
def holder : Strand := { life := .running, x := [(0, { v := 8 }), (1, { v := 16 })] }
def loadH : Instr := .ldHOneWord bare 2 0 0 0
def acquire : Instr := .ldPOneWord bare 2 1 1 0 0
def older : Out := { id := 4, k := 0, instr := store, snap := holder }
def younger (done : Bool) : Out := { id := 5, k := 0, instr := load, snap := holder, done := done }

theorem meets_FatalErrorsAndContainments_fc1 :
    let c : Context := failed.ctxAt 1
    let alive : Prop := c.st ≠ CState.none ∧ c.st ≠ CState.retired ∧ c.st ≠ CState.failed
    (¬alive) := by decide +kernel

theorem meets_FatalErrorsAndContainments_fc2 :
    let c : Context := doomed.ctxAt 1
    let alive : Prop := c.st ≠ CState.none ∧ c.st ≠ CState.retired ∧ c.st ≠ CState.failed
    (alive) := by decide +kernel

theorem meets_FatalErrorsAndContainments_fc3 :
    (3 < 1024) ∧
    ((q3.queueAt 3).ctx = 1) := by decide +kernel

theorem meets_FatalErrorsAndContainments_fc4 :
    (base.groups.find? 1 = some group1) ∧
    (group1.ctx = 1) := by decide +kernel

theorem meets_FatalErrorsAndContainments_fc5 :
    (base.groups.find? 1 = some group1) ∧
    (group1.st ≠ GState.retired) ∧
    (group1.st ≠ GState.ended) := by decide +kernel

theorem meets_FatalErrorsAndContainments_fc6 :
    (base.groups.find? 1 = some group1) ∧
    (group1.contain = none) := by decide +kernel

theorem meets_FatalErrorsAndContainments_fc7 :
    let s : State := (withGroup (ending false [{ id := 7 }])).modPort 2 fun p => { p with seq := { st := SqState.running, grp := some 1 } }
    let x : Group := ending false [{ id := 7 }]
    (s.groups.find? 1 = some x) ∧
    (x.contain ≠ none) ∧
    (x.pinna = none) ∧
    (x.fenced = false) ∧
    (x.ver.bounds ≠ []) ∧
    ((s.portAt 2).seq.grp = some 1) := by decide +kernel

theorem meets_FatalErrorsAndContainments_fc8 :
    let s : State := withGroup (ending true [{ id := 7 }])
    let x : Group := ending true [{ id := 7 }]
    (s.groups.find? 1 = some x) ∧
    (x.contain ≠ none) ∧
    (x.fenced = true ∨ x.ver.bounds = []) ∧
    (x.swept = false) ∧
    (x.st ≠ GState.retired) ∧
    (x.st ≠ GState.ended) ∧
    (x.pinna = none) := by decide +kernel

theorem meets_FatalErrorsAndContainments_fc9 :
    let s : State := withGroup (ending false [])
    let x : Group := ending false []
    (s.groups.find? 1 = some x) ∧
    (x.contain ≠ none) ∧
    (x.fenced = true ∨ x.ver.bounds = []) ∧
    (x.swept = false) ∧
    (x.st ≠ GState.retired) ∧
    (x.st ≠ GState.ended) ∧
    (x.pinna = none) := by decide +kernel

theorem meets_ClocksAndTheirRecords_cl0 :
    (timed.reports = []) := by decide +kernel

theorem meets_ClocksAndTheirRecords_cl1 :
    (timed.pkg.timeRuns = true) ∧
    (timed.ptp.slew = 0) := by decide +kernel

theorem meets_ClocksAndTheirRecords_cl2 :
    (0 < 3) := by decide +kernel

theorem meets_OrderWithinAClock_or1 :
    let s : State := inClock pop [(Seat.words 0, 9)]
    let m : Mover := Mover.strand 0 0
    let e : Seat × Nat := (Seat.words 0, 8)
    (e ∈ s.claims m) ∧
    (s.reached e.fst = some 9) ∧
    (e.snd < 9) := by decide +kernel

theorem meets_OrderWithinAClock_or2 :
    let s : State := inClock pop [(Seat.strand 0 0, 0)]
    let m : Mover := Mover.strand 0 0
    ((Seat.strand 0 0, 0) ∈ s.claims m) ∧
    (s.reached (Seat.strand 0 0) = some 0) := by decide +kernel

theorem meets_OrderWithinAClock_or3 :
    let s : State := inClock pop [(Seat.package, 1)]
    (s.reached Seat.package = some 1) := by decide +kernel

theorem meets_OrderWithinAClock_or4 :
    let s : State := inClock pop [(Seat.strand 0 3, 0)]
    let m : Mover := Mover.event (Instr.syncRendezvous 0)
    let e : Seat × Nat := (Seat.strand 0 3, 0)
    (m = Mover.event (Instr.syncRendezvous 0)) ∧
    (e ∈ s.order) ∧
    (∃ k, e.fst = Seat.strand 0 k) := by
  intro s m e
  exact ⟨by decide +kernel, by decide +kernel, ⟨3, rfl⟩⟩

theorem meets_OrderWithinAClock_or5 :
    let s : State := inClock pop []
    let m : Mover := Mover.strand 0 0
    let e : Seat × Nat := (Seat.words 0, 8)
    (e ∈ s.claims m) := by decide +kernel

theorem meets_OrderWithinAClock_or6 :
    let s : State := inClock pop [(Seat.words 0, 3)]
    let x : Seat := Seat.words 0
    (s.reached x = some 3) := by decide +kernel

theorem meets_OrderWithinAClock_or7 :
    let s : State := inClock pop []
    let m : Mover := Mover.strand 0 0
    (m = Mover.strand s.core s.strand) ∧
    (s.turnInstr m = some pop) ∧
    (encode pop ≠ Code.event) ∧
    (s.me.micro.stage = 0) ∧
    (syncHeld pop s.me = false) := by decide +kernel

theorem meets_InstructionsAreOvertaken_ov1 :
    let s : State := inClock pop []
    let t : Strand := s.me
    (t.life = Life.running ∨ t.life = Life.handler) ∧
    (s.strandInstr = some pop) ∧
    (t.micro.stage = 0) ∧
    (guardOpen pop t = false ∨ syncHeld pop t = true ∨ (instrSrcs pop).any t.owed = true ∨ leavable pop = false ∨ t.stops = true ∨ accesses pop = true ∧ s.requestRoom s.core = false) := by decide +kernel

theorem meets_InstructionsAreOvertaken_ov2 :
    let t : Strand := ahead.me
    let s1 : State := (ahead.setCore ahead.core taken.fst).modMe fun t_1 => t_1.learn taken.snd
    let snap : Strand := { s1.me with behind := true }
    (t.life = Life.running ∨ t.life = Life.handler) ∧
    (ahead.strandInstr = some load) ∧
    (t.micro.stage = 0) ∧
    (guardOpen load t = true) ∧
    (syncHeld load t = false) ∧
    ((instrSrcs load).any t.owed = false) ∧
    (leavable load = true) ∧
    (t.stops = false) ∧
    (accesses load = true → ahead.requestRoom ahead.core = true) ∧
    (ahead.myCore.grant ahead.strand load 1 = some (taken.fst, taken.snd)) ∧
    (exec load (s1.setMe snap) = Host.Outcome.next gone) ∧
    (gone.me.hidden = t.hidden) ∧
    (gone.me.micro.stage ≠ 0) := by
  intro t s1 snap
  exact ⟨by decide +kernel, by decide +kernel, by decide +kernel, by decide +kernel, by decide +kernel, by decide +kernel, by decide +kernel, by decide +kernel, by decide +kernel, by decide +kernel, next_of_goneOn (by decide +kernel), by decide +kernel, by decide +kernel⟩

theorem meets_InstructionsAreOvertaken_ov3 :
    let o : Reach := { space := 0, lo := 8, len := 8 }
    (holder.reach store = some o) ∧
    (holder.reach load = some o) ∧
    (o.space = o.space) ∧
    (o.lo < o.lo + ↑o.len) ∧
    (o.lo < o.lo + ↑o.len) := by decide +kernel

theorem meets_InstructionsAreOvertaken_ov4 :
    let o : Reach := { space := 0, lo := 8, len := 8 }
    let y : Reach := { space := 2, lo := 0, len := 8, ordered := true }
    (holder.reach load = some o) ∧
    (holder.reach acquire = some y) ∧
    (y.ordered = true) := by decide +kernel

theorem meets_InstructionsAreOvertaken_ov5 :
    let s : State := withCore fun c => { c with out := [older, younger true] }
    let e : Out := younger true
    ((s.coreAt 0).out = [older] ++ [e]) ∧
    (∀ (x : Out), x ∈ [older] → x.id ≠ e.id) ∧
    (older ∈ [older]) ∧
    (older.k = e.k) ∧
    (e.done = true ∨ e.atRetirement = true ∨ e.snap.micro.stage = 0 ∧ older.done = false ∧ overtakes (older.snap, older.instr) (e.snap, e.instr) = false) := by decide +kernel

theorem meets_InstructionsAreOvertaken_ov6 :
    let s : State := withCore fun c => { c with out := [older, younger false] }
    let e : Out := younger false
    ((s.coreAt 0).out = [older] ++ [e]) ∧
    (∀ (x : Out), x ∈ [older] → x.id ≠ e.id) ∧
    (older ∈ [older]) ∧
    (older.k = e.k) ∧
    (e.done = true ∨ e.atRetirement = true ∨ e.snap.micro.stage = 0 ∧ older.done = false ∧ overtakes (older.snap, older.instr) (e.snap, e.instr) = false) := by decide +kernel

theorem meets_InstructionsAreOvertaken_ov7 :
    let s : State := withCore fun c => { c with out := [younger true] }
    let e : Out := younger true
    ((s.coreAt 0).out = [] ++ [e]) ∧
    (∀ (x : Out), x ∈ [] ++ [] → x.id ≠ e.id) ∧
    (∀ (x : Out), x ∈ [] → x.k ≠ e.k) ∧
    (e.done = true) ∧
    ((s.coreAt 0).pushRoom e.k e.instr = true) := by decide +kernel



end Sys2Proof.Tests.Clocks
end

