-- ==== Sys2Proof/Tests/Copying.lean ====
section
/-! SUPPORT. States that meet the hypotheses of the statements about copies. -/

namespace Sys2Proof.Tests.Channels
open Sys2Proof Sys2Proof.Machine Sys2Proof.Claims
set_option Elab.async false

def ts (e : BitVec 128) (a b : Word) : State := tables (withX a b) e (tmpl 64 0)
def tsp : State := { ts (cap false) 0 0 with hbm := { (ts (cap false) 0 0).hbm with poison := [(2^23 + 64, true)] } }
def gd : Group := { group1 with ver := { h := [(2^29, 1)] } }
def dirty : State := { base with groups := [(1, gd)] }
def cpa : Instr := .stCpaOneWord bare 1 0 1
def lk : Link := { base := 0, n := 2, kicks := [(5, {})] }
def lks : State := (withX 0xFFFFFFFA 0).modCore 0 (fun c => { c with channels := [(2, { link := some lk })] })
def lks2 : State := (withX 0xFFFFFFFB 0).modCore 0 (fun c => { c with channels := [(2, { link := some lk })] })
def lks0 : State := (withX 0 0).modCore 0 (fun c => { c with channels := [(2, { link := some lk })] })
def stopped (v : Word) : State := (withX v 0).modCore 0 (fun c => { c with channels := [(2, { st := .stopped, queue := [transfer1 64 0] })] })
def stoppedU : State := ((stopped 1).granted (.cresume bare 2 0) 1).modChan 0 2 (fun k => { k with st := .busy, cause := 0 })
def endd : State := match stoppedU.endTransfer 0 2 (transfer1 64 0) false with | .next w => w | _ => base

theorem meets_CapabilityInstructions_capldOut :
    let s : State := ts (Tests.cap false) 0 0
    let ld : Instr := Instr.capld bare 4 0 2
    let n : Nat := BitVec.toNat (s.me.rd 0#6).v + 2
    (s.issues ld 1 = true) ∧
    ((s.me.rd 0#6).poison = false) ∧
    (s.capCount s.myCtx ≤ n) := by decide +kernel

theorem meets_CapabilityInstructions_capldOk :
    let s : State := ts (Tests.cap false) 0 0
    let ld : Instr := Instr.capld bare 4 0 0
    let n : Nat := BitVec.toNat (s.me.rd 0#6).v + 0
    let e : BitVec 128 := Tests.cap false
    let u : State := ((s.granted ld 1).capEntry 1 0).snd
    let s' : State := u.modMe fun t => { t with c := Tbl.set { } t.c 4 { v := e } }
    (s.issues ld 1 = true) ∧
    ((s.me.rd 0#6).poison = false) ∧
    (n < s.capCount s.myCtx) ∧
    ((s.granted ld 1).capEntry s.myCtx n = (some (e, false), u)) ∧
    (capWorld e = (s.ctxAt s.myCtx).world) ∧
    (capLC e ≠ 3#2) ∧
    (BitVec.extractLsb' 112 2 e = 0#2) ∧
    (s.hasRoom ld s' = true) := by decide +kernel

theorem meets_CapabilityInstructions_capldWorld :
    let s : State := ts (BitVec.ofNat 128 (2 ^ 120)) 0 0
    let ld : Instr := Instr.capld bare 4 0 0
    let n : Nat := BitVec.toNat (s.me.rd 0#6).v + 0
    let e : BitVec 128 := BitVec.ofNat 128 (2 ^ 120)
    let u : State := ((s.granted ld 1).capEntry 1 0).snd
    (s.issues ld 1 = true) ∧
    ((s.me.rd 0#6).poison = false) ∧
    (n < s.capCount s.myCtx) ∧
    ((s.granted ld 1).capEntry s.myCtx n = (some (e, false), u)) ∧
    (capWorld e ≠ (s.ctxAt s.myCtx).world) := by decide +kernel

theorem meets_CapabilityInstructions_capldPo :
    let ld : Instr := Instr.capld bare 4 0 0
    let n : Nat := BitVec.toNat (tsp.me.rd 0#6).v + 0
    let e : BitVec 128 := Tests.cap false
    let u : State := ((tsp.granted ld 1).capEntry 1 0).snd
    let s' : State := u.modMe fun t => { t with c := Tbl.set { } t.c 4 { v := e, poison := true } }
    (tsp.issues ld 1 = true) ∧
    ((tsp.me.rd 0#6).poison = false) ∧
    (n < tsp.capCount tsp.myCtx) ∧
    ((tsp.granted ld 1).capEntry tsp.myCtx n = (some (e, true), u)) ∧
    (tsp.hasRoom ld s' = true) := by decide +kernel

theorem meets_CapabilityInstructions_capder :
    let s : State := withCap false 256 3840
    let dv : Instr := Instr.capderive bare 4 1 0 1 3
    let cap : CapReg := s.me.cap (BitVec.extractLsb' 0 4 1#6)
    let o : Reg := s.me.rd 0
    let l : Reg := s.me.rd 1
    let s' : State := (s.granted dv 1).modMe fun t => { t with c := Tbl.set { } t.c 4 { v := narrowCap cap.v o.v l.v 3#4, poison := cap.poison } }
    (s.issues dv 1 = true) ∧
    (o.poison = false) ∧
    (l.poison = false) ∧
    (BitVec.toNat o.v % 256 = 0) ∧
    (BitVec.toNat l.v % 256 = 0) ∧
    (BitVec.toNat o.v + BitVec.toNat l.v ≤ capLen cap.v) ∧
    (s.hasRoom dv s' = true) := by decide +kernel

theorem meets_CapabilityInstructions_capderf :
    let s : State := withCap false 512 3840
    let dv : Instr := Instr.capderive bare 4 1 0 1 3
    let cap : CapReg := s.me.cap (BitVec.extractLsb' 0 4 1#6)
    let o : Reg := s.me.rd 0
    let l : Reg := s.me.rd 1
    (s.issues dv 1 = true) ∧
    (o.poison = false) ∧
    (l.poison = false) ∧
    (BitVec.toNat o.v % 256 ≠ 0 ∨ BitVec.toNat l.v % 256 ≠ 0 ∨ capLen cap.v < BitVec.toNat o.v + BitVec.toNat l.v) := by decide +kernel

theorem meets_CapabilityInstructions_capinfo :
    let s : State := withCap false 512 3840
    let inf : Instr := Instr.capinfo bare 4 1 0
    let cap : CapReg := s.me.cap (BitVec.extractLsb' 0 4 1#6)
    let v : Word := (match 0 with
      | 0 => BitVec.ofNat 64 ((capWorld cap.v).toNat * 256 + (BitVec.extractLsb' 116 4 cap.v).toNat * 16 + (capLC cap.v).toNat)
      | 1 => BitVec.ofNat 64 (capObj cap.v).toNat
      | 2 => BitVec.ofNat 64 (capBase cap.v)
      | _ => BitVec.ofNat 64 (capLen cap.v))
    let s' : State := (s.granted inf 1).modMe fun t => t.result 4 { v := v, poison := cap.poison }
    (s.issues inf 1 = true) ∧
    (s.hasRoom inf s' = true) := by decide +kernel

theorem meets_DerivedCapabilitiesOnlyNarrow_narrow :
    let c : BitVec 128 := cap true
    (256 % 256 = 0) ∧
    (3840 % 256 = 0) ∧
    (256 + 3840 ≤ capLen c) ∧
    (capBase c + capLen c < 2 ^ 44) := by decide +kernel

theorem meets_FencesRetireWhenTheirWorkIsDone_commit0 :
    let i : Instr := Instr.commit bare
    (base.myGroup = some (1, group1)) ∧
    (base.issues i 1 = true) := by decide +kernel

theorem meets_FencesRetireWhenTheirWorkIsDone_commit2 :
    let s : State := withMe { life := Life.running, micro := { stage := 1, id := 9 } }
    let i : Instr := Instr.commit bare
    (s.myGroup = some (1, group1)) ∧
    (s.me.micro.stage = 1) ∧
    (s.boundaryDone 1 s.me.micro.id = true) ∧
    (s.hasRoom i s = true) := by decide +kernel

theorem meets_FencesRetireWhenTheirWorkIsDone_xfence :
    let i : Instr := Instr.xfence bare
    let g : State := dirty.granted i 1
    let v : Version := gd.ver
    let s' : State := ({ g with nextId := g.nextId + 1 }.modGroup 1 fun y => { y with ver := { y.ver with xfs := v.xfs.put g.nextId (v.h, v.p) } }).modMe fun t => t.learn { xf := g.nextId }
    (dirty.myGroup = some (1, gd)) ∧
    (dirty.issues i 1 = true) ∧
    (dirty.hasRoom i s' = true) := by decide +kernel

theorem meets_FencesRetireWhenTheirWorkIsDone_qfence :
    let s : State := withCore fun c => { c with vq := [vadd] }
    let i : Instr := Instr.qfence bare 3
    let mine : Nat → List Nat → Bool := fun b owners => BitVec.getLsbD 3#3 b && owners.contains s.strand
    (s.myGroup = some (1, group1)) ∧
    (s.runs i = true) ∧
    (mine 0 (List.map (fun e => e.owner) s.myCore.cq) = false) ∧
    (mine 1 (List.map (fun e => e.owner) s.myCore.mq) = false) ∧
    (mine 2 (List.map (fun e => e.owner) s.myCore.vq) = false) ∧
    (s.hasRoom i (s.entered i) = true) := by decide +kernel

theorem meets_FencesRetireWhenTheirWorkIsDone_sfence :
    let i : Instr := Instr.sfence bare
    (base.myGroup = some (1, group1)) ∧
    (base.issues i 1 = true) ∧
    (base.hasRoom i (base.granted i 1) = true) := by decide +kernel

theorem meets_CopyStartsThroughTheAperture_cpap :
    let s : State := withX 0 0 true
    let x : Reg := s.me.rd 1
    (apertureStore cpa s.me = some (1#6, 8, true)) ∧
    (s.issues cpa 1 = true) ∧
    (true = true ∨ x.poison = true) := by decide +kernel

theorem meets_CopyStartsThroughTheAperture_cpab :
    let s : State := withX 56 0
    let x : Reg := s.me.rd 1
    (apertureStore cpa s.me = some (1#6, 64, false)) ∧
    (s.issues cpa 1 = true) ∧
    (s.me.outs = 0) ∧
    (false = false) ∧
    (x.poison = false) ∧
    (64 % 8 ≠ 0 ∨ 64 < 0 ∨ 56 < 64 ∨ BitVec.extractLsb' 9 7 x.v ≠ 0#7) := by decide +kernel

theorem meets_CopyStartsThroughTheAperture_cpab2 :
    let s : State := withX 0 32768
    let x : Reg := s.me.rd 1
    (apertureStore cpa s.me = some (1#6, 8, false)) ∧
    (s.issues cpa 1 = true) ∧
    (s.me.outs = 0) ∧
    (false = false) ∧
    (x.poison = false) ∧
    (8 % 8 ≠ 0 ∨ 8 < 0 ∨ 56 < 8 ∨ BitVec.extractLsb' 9 7 x.v ≠ 0#7) := by decide +kernel

theorem meets_CopyStartsThroughTheAperture_cpaok :
    let s : State := withX 48 18446744073709486591
    let x : Reg := s.me.rd 1
    (apertureStore cpa s.me = some (1#6, 56, false)) ∧
    (s.issues cpa 1 = true) ∧
    (false = false) ∧
    (x.poison = false) ∧
    (56 % 8 = 0) ∧
    (0 ≤ 56) ∧
    (56 ≤ 56) ∧
    (BitVec.extractLsb' 9 7 x.v = 0#7) ∧
    ((s.myCore.rot 24).served = []) := by decide +kernel

theorem meets_ChannelInstructions_cdrain :
    let s : State := withX 0 0
    let n : Nat := 2
    let i : Instr := Instr.cdrain bare 2
    let ids : List Nat := if s.me.micro.stage = 1 then s.me.micro.ids else (s.entered i).drainSet n
    (s.runs i = true) ∧
    ((s.entered i).drains n ids = false) ∧
    (s.hasRoom i (s.entered i) = true) := by decide +kernel

theorem meets_ChannelInstructions_cdrainWaits :
    let s : State := stopped 0
    let n : Nat := 2
    let i : Instr := Instr.cdrain bare 2
    let ids : List Nat := if s.me.micro.stage = 1 then s.me.micro.ids else (s.entered i).drainSet n
    (s.runs i = true) ∧
    ((s.entered i).drains n ids = true) := by decide +kernel

theorem meets_ChannelInstructions_ckick0 :
    let s : State := withX 1 0
    let n : Nat := 2
    let ch : Channel := s.myCore.chan n
    let i : Instr := Instr.ckick bare 2 0
    (s.issues i 1 = true) ∧
    ((s.me.rd 0#6).poison = false) ∧
    (ch.link = none) := by decide +kernel

theorem meets_ChannelInstructions_ckick1 :
    let v : Word := (lks2.me.rd 0).v
    let n : Nat := 2
    let ch : Channel := lks2.myCore.chan n
    let i : Instr := Instr.ckick bare 2 0
    (lks2.issues i 1 = true) ∧
    ((lks2.me.rd 0#6).poison = false) ∧
    (ch.link = some lk) ∧
    (2 ^ 32 ≤ List.foldl (fun x1 x2 => x1 + x2) 0 (List.map (fun k => k.fst) lk.kicks) + BitVec.toNat v) := by decide +kernel

theorem meets_ChannelInstructions_ckick2 :
    let v : Word := (lks.me.rd 0).v
    let n : Nat := 2
    let ch : Channel := lks.myCore.chan n
    let linked : State → Option Link → State := fun g_1 l => g_1.modChan lks.core n fun k => { k with link := l }
    let i : Instr := Instr.ckick bare 2 0
    let g : State := lks.granted i 1
    (lks.issues i 1 = true) ∧
    ((lks.me.rd 0#6).poison = false) ∧
    (ch.link = some lk) ∧
    (List.foldl (fun x1 x2 => x1 + x2) 0 (List.map (fun k => k.fst) lk.kicks) + BitVec.toNat v < 2 ^ 32) ∧
    (v ≠ 0#64) ∧
    (lks.hasRoom i (linked g (some { lk with kicks := lk.kicks ++ [(BitVec.toNat v, g.me.mark)] })) = true) := by decide +kernel

theorem meets_ChannelInstructions_ckick3 :
    let v : Word := (lks0.me.rd 0).v
    let n : Nat := 2
    let ch : Channel := lks0.myCore.chan n
    let i : Instr := Instr.ckick bare 2 0
    (lks0.issues i 1 = true) ∧
    ((lks0.me.rd 0#6).poison = false) ∧
    (ch.link = some lk) ∧
    (List.foldl (fun x1 x2 => x1 + x2) 0 (List.map (fun k => k.fst) lk.kicks) < 2 ^ 32) ∧
    (v = 0#64) ∧
    (lks0.hasRoom i (lks0.granted i 1) = true) := by decide +kernel

theorem meets_ChannelInstructions_clinkb :
    let s : State := withX 562949953437680 0
    let v : Word := (s.me.rd 0).v
    let i : Instr := Instr.clink bare 2 0
    let base : Nat := BitVec.toNat v % 2 ^ 48
    let cnt : Nat := BitVec.toNat v / 2 ^ 48
    (s.myGroup = some (1, group1)) ∧
    (s.issues i 1 = true) ∧
    ((s.me.rd 0#6).poison = false) ∧
    (base % 16 ≠ 0 ∨ group1.kdesc.pieces * 16384 < base + 16 * cnt) := by decide +kernel

theorem meets_ChannelInstructions_clink1 :
    let s : State := withX 281474976727024 0
    let v : Word := (s.me.rd 0).v
    let n : Nat := 2
    let linked : State → Option Link → State := fun g l => g.modChan s.core n fun k => { k with link := l }
    let i : Instr := Instr.clink bare 2 0
    let base : Nat := BitVec.toNat v % 2 ^ 48
    let cnt : Nat := BitVec.toNat v / 2 ^ 48
    (s.myGroup = some (1, group1)) ∧
    (s.issues i 1 = true) ∧
    ((s.me.rd 0#6).poison = false) ∧
    (base % 16 = 0) ∧
    (base + 16 * cnt ≤ group1.kdesc.pieces * 16384) ∧
    (s.hasRoom i (linked (s.granted i 1) (if cnt = 0 then none else some { base := BitVec.ofNat 48 base, n := cnt, caps := s.me.c, owner := s.strand })) = true) := by decide +kernel

theorem meets_ChannelInstructions_clink0 :
    let v : Word := (lks0.me.rd 0).v
    let n : Nat := 2
    let linked : State → Option Link → State := fun g l => g.modChan lks0.core n fun k => { k with link := l }
    let i : Instr := Instr.clink bare 2 0
    let base : Nat := BitVec.toNat v % 2 ^ 48
    let cnt : Nat := BitVec.toNat v / 2 ^ 48
    (lks0.myGroup = some (1, group1)) ∧
    (lks0.issues i 1 = true) ∧
    ((lks0.me.rd 0#6).poison = false) ∧
    (base % 16 = 0) ∧
    (base + 16 * cnt ≤ group1.kdesc.pieces * 16384) ∧
    (lks0.hasRoom i (linked (lks0.granted i 1) (if cnt = 0 then none else some { base := BitVec.ofNat 48 base, n := cnt, caps := lks0.me.c, owner := lks0.strand })) = true) := by decide +kernel

theorem meets_ChannelInstructions_cres0 :
    let s : State := withX 2 0
    let v : Word := (s.me.rd 0).v
    let i : Instr := Instr.cresume bare 2 0
    (s.issues i 1 = true) ∧
    ((s.me.rd 0#6).poison = false) ∧
    (1 < BitVec.toNat v) := by decide +kernel

theorem meets_ChannelInstructions_cres1 :
    let s : State := withX 1 0
    let v : Word := (s.me.rd 0).v
    let n : Nat := 2
    let ch : Channel := s.myCore.chan n
    let i : Instr := Instr.cresume bare 2 0
    (s.issues i 1 = true) ∧
    ((s.me.rd 0#6).poison = false) ∧
    (BitVec.toNat v ≤ 1) ∧
    (ch.st ≠ ChanState.stopped) ∧
    (s.hasRoom i (s.granted i 1) = true) := by decide +kernel

theorem meets_ChannelInstructions_cres2 :
    let s : State := stopped 0
    let v : Word := (s.me.rd 0).v
    let n : Nat := 2
    let ch : Channel := s.myCore.chan n
    let i : Instr := Instr.cresume bare 2 0
    let u : State := (s.granted i 1).modChan s.core n fun k => { k with st := ChanState.busy, cause := 0 }
    let t : Transfer := transfer1 64 0
    (s.issues i 1 = true) ∧
    ((s.me.rd 0#6).poison = false) ∧
    (ch.st = ChanState.stopped) ∧
    (u.stoppedOne s.core n = some t) ∧
    (v = 0#64) ∧
    (s.hasRoom i (u.setTransfer s.core n (if t.bad = true then t else t.resumed)) = true) := by decide +kernel

theorem meets_ChannelInstructions_cres3 :
    let s : State := stopped 1
    let v : Word := (s.me.rd 0).v
    let n : Nat := 2
    let ch : Channel := s.myCore.chan n
    let i : Instr := Instr.cresume bare 2 0
    let u : State := (s.granted i 1).modChan s.core n fun k => { k with st := ChanState.busy, cause := 0 }
    let t : Transfer := transfer1 64 0
    (s.issues i 1 = true) ∧
    ((s.me.rd 0#6).poison = false) ∧
    (ch.st = ChanState.stopped) ∧
    (u.stoppedOne s.core n = some t) ∧
    (v = 1#64) ∧
    (u.endTransfer s.core n t false = Settled.next endd) ∧
    (s.hasRoom i (endd.settleChan s.core n) = true) := by decide +kernel

theorem meets_ChannelInstructions_cresNone :
    let s : State := (stopped 1).modCore 0 fun c => { c with channels := [(2, { st := ChanState.stopped })] }
    let v : Word := (s.me.rd 0).v
    let n : Nat := 2
    let ch : Channel := s.myCore.chan n
    let i : Instr := Instr.cresume bare 2 0
    let u : State := (s.granted i 1).modChan s.core n fun k => { k with st := ChanState.busy, cause := 0 }
    (s.issues i 1 = true) ∧
    ((s.me.rd 0#6).poison = false) ∧
    (ch.st = ChanState.stopped) ∧
    (BitVec.toNat v ≤ 1) ∧
    (u.stoppedOne s.core n = none) ∧
    (s.hasRoom i (u.chanRest s.core n) = true) := by decide +kernel

theorem meets_ChannelInstructions_cstat :
    let s : State := withX 34 0
    let v : Word := (s.me.rd 0).v
    let i : Instr := Instr.cstat bare 3 0
    let k : Nat := BitVec.toNat v % 8
    let q : CopyRecord := (s.myCore.chan k).record
    let r : Word := (match BitVec.toNat v / 8 with
      | 0 => (s.granted i 1).chanStatus s.core k
      | 1 => q.w0
      | 2 => q.w1
      | 3 => q.w2
      | _ => q.w3)
    (s.issues i 1 = true) ∧
    ((s.me.rd 0#6).poison = false) ∧
    (BitVec.toNat v < 64) ∧
    (BitVec.toNat v / 8 ≤ 4) ∧
    (s.hasRoom i ((s.granted i 1).modMe fun t => t.result 3#6 { v := r }) = true) := by decide +kernel

theorem meets_ChannelInstructions_cstatb :
    let s : State := withX 40 0
    let v : Word := (s.me.rd 0).v
    let i : Instr := Instr.cstat bare 3 0
    (s.issues i 1 = true) ∧
    ((s.me.rd 0#6).poison = false) ∧
    (64 ≤ BitVec.toNat v ∨ 4 < BitVec.toNat v / 8 % 8) := by decide +kernel



end Sys2Proof.Tests.Channels

namespace Sys2Proof.Tests.Copies
open Sys2Proof Sys2Proof.Machine Sys2Proof.Claims
set_option Elab.async false

def ce : CEntry := { id := 4, owner := 0, instr := .stCpaOneWord bare 1 0 1, ch := 2, off := 3 }
def cks (n : BitVec 6) : CEntry := { id := 4, owner := 0, instr := .ksig bare 0 n 1 }
def cq (e : CEntry) : State := withCore (fun c => { c with cq := [e, ce] })
def cet : CEntry := { ce with taken := true }
def ckt : CEntry := { cks 1 with taken := true }
def full16 : State := (cq cet).modChan 0 2 (fun k => { k with queue := List.replicate 16 { id := 3, grp := 1 } })
def cdone : CEntry := { ckt with instr := .ksig { bare with sp := true } 0 1 1, started := true }
def fifo16 : State := (cq cdone).modCore 0 (fun c => c.setTokens Engine.C.sp (List.replicate 16 {}))
def tstate (da sig : Word) : State := (tables (withChan { st := .busy, queue := [transfer0] }) 0 (tmpl da sig))
def ttail (s : State) := (s.readTemplate 1 0).getD ([], false, base)
def tpo : State := { tstate 64 0 with hbm := { (tstate 64 0).hbm with poison := [(2^23 + 128, true)] } }

theorem meets_CopyQueueHandsOver_hks :
    let s : State := cq (cks 1)
    let m : Mark := { }
    let e : CEntry := cks 1
    let co1 : Core := s.coreAt 0
    ((s.coreAt 0).cq = [e, ce]) ∧
    (e.taken = false) ∧
    (s.engineRuns 0 = true) ∧
    (s.startTake 0 Engine.C e.instr = some (co1, m)) := by decide +kernel

theorem meets_CopyQueueHandsOver_hnocopy :
    let s : State := cq ckt
    ((s.coreAt 0).cq = [ckt, ce]) ∧
    (ckt.taken = true) ∧
    (ckt.started = false) ∧
    (s.engineRuns 0 = true) ∧
    (ckt.isCopy = false) := by decide +kernel

theorem meets_CopyQueueHandsOver_hfull :
    ((full16.coreAt 0).cq = [cet, ce]) ∧
    (cet.taken = true) ∧
    (cet.started = false) ∧
    (full16.engineRuns 0 = true) ∧
    (cet.isCopy = true) ∧
    (16 ≤ ((full16.coreAt 0).chan cet.ch).inFlight) := by decide +kernel

theorem meets_CopyQueueHandsOver_hcp :
    let s : State := cq cet
    ((s.coreAt 0).cq = [cet, ce]) ∧
    (cet.taken = true) ∧
    (cet.started = false) ∧
    (s.engineRuns 0 = true) ∧
    (cet.isCopy = true) ∧
    (((s.coreAt 0).chan cet.ch).inFlight < 16) := by decide +kernel

theorem meets_CopyQueueHandsOver_hheld :
    let n : Nat := (match cdone.instr with
      | Instr.tokpush _ n_1 _ => n_1.toNat
      | _ => 1)
    ((fifo16.coreAt 0).cq = [cdone, ce]) ∧
    (cdone.taken = true) ∧
    (cdone.started = true) ∧
    ((fifo16.coreAt 0).room Engine.C (instrPre cdone.instr) n = false) := by decide +kernel

theorem meets_CopyQueueHandsOver_hturn :
    ((fifo16.coreAt 0).cq = [cdone, ce]) ∧
    (cdone.taken = true) ∧
    (cdone.started = true) := by decide +kernel

theorem meets_CopyQueueHandsOver_hret :
    let s : State := cq cdone
    let n : Nat := (match cdone.instr with
      | Instr.tokpush _ n_1 _ => n_1.toNat
      | _ => 1)
    ((s.coreAt 0).cq = [cdone, ce]) ∧
    (cdone.taken = true) ∧
    (cdone.started = true) ∧
    ((s.coreAt 0).room Engine.C (instrPre cdone.instr) n = true) := by decide +kernel

theorem meets_TransferStarts_tnone :
    let s : State := withChan { st := ChanState.busy, queue := [transfer0] }
    let k : Channel := (s.coreAt 0).chan 2
    (List.find? (fun t => !t.started) k.queue = some transfer0) ∧
    (s.groups.find? transfer0.grp = some group1) ∧
    (group1.contain = none) ∧
    (transfer0.bad = false) ∧
    (¬(k.st = ChanState.stopped ∧ s.groupOf 0 = some transfer0.grp)) ∧
    (∀ (o : Transfer), o ∈ List.takeWhile (fun y => y.id != transfer0.id) k.queue → o.grp = transfer0.grp ∨ o.hasLanded = true) ∧
    (s.readTemplate group1.ctx transfer0.tidx = none) := by decide +kernel

theorem meets_TransferStarts_tpoi :
    let k : Channel := (tpo.coreAt 0).chan 2
    let ws : List Word := (ttail tpo).fst
    let u : State := (ttail tpo).snd.snd
    (List.find? (fun t => !t.started) k.queue = some transfer0) ∧
    (tpo.groups.find? transfer0.grp = some group1) ∧
    (group1.contain = none) ∧
    (transfer0.bad = false) ∧
    (¬(k.st = ChanState.stopped ∧ tpo.groupOf 0 = some transfer0.grp)) ∧
    (∀ (o : Transfer), o ∈ List.takeWhile (fun y => y.id != transfer0.id) k.queue → o.grp = transfer0.grp ∨ o.hasLanded = true) ∧
    (tpo.readTemplate group1.ctx transfer0.tidx = some (ws, true, u)) := by decide +kernel

theorem meets_TransferStarts_tok :
    let s : State := tstate 64 0
    let k : Channel := (s.coreAt 0).chan 2
    let ws : List Word := tmpl 64 0
    let u : State := (ttail s).snd.snd
    let tm : Tmpl := Tmpl.of ws
    (List.find? (fun t => !t.started) k.queue = some transfer0) ∧
    (s.groups.find? transfer0.grp = some group1) ∧
    (group1.contain = none) ∧
    (transfer0.bad = false) ∧
    (¬(k.st = ChanState.stopped ∧ s.groupOf 0 = some transfer0.grp)) ∧
    (∀ (o : Transfer), o ∈ List.takeWhile (fun y => y.id != transfer0.id) k.queue → o.grp = transfer0.grp ∨ o.hasLanded = true) ∧
    (s.readTemplate group1.ctx transfer0.tidx = some (ws, false, u)) ∧
    (templateOk ws = true) ∧
    (templateFits tm group1 = true) ∧
    ((tm.ssp == 3 && (transfer0.cap tm.scap).poison || tm.dsp == 3 && (transfer0.cap tm.dcap).poison) = false) := by decide +kernel

theorem meets_TransferStarts_tbad :
    let s : State := tstate 64 16
    let k : Channel := (s.coreAt 0).chan 2
    let ws : List Word := tmpl 64 16
    let u : State := (ttail s).snd.snd
    (List.find? (fun t => !t.started) k.queue = some transfer0) ∧
    (s.groups.find? transfer0.grp = some group1) ∧
    (group1.contain = none) ∧
    (transfer0.bad = false) ∧
    (¬(k.st = ChanState.stopped ∧ s.groupOf 0 = some transfer0.grp)) ∧
    (∀ (o : Transfer), o ∈ List.takeWhile (fun y => y.id != transfer0.id) k.queue → o.grp = transfer0.grp ∨ o.hasLanded = true) ∧
    (s.readTemplate group1.ctx transfer0.tidx = some (ws, false, u)) ∧
    (templateOk ws = false) ∧
    (List.takeWhile (fun y => y.id != transfer0.id) k.queue = []) := by decide +kernel



end Sys2Proof.Tests.Copies

namespace Sys2Proof.Tests.Transfers
open Sys2Proof Sys2Proof.Machine Sys2Proof.Claims
set_option Elab.async false

def tm5 (w5 da sig : Word) : Transfer := { transfer1 da sig with tmpl := [0, da, BitVec.ofNat 64 (2 + 2 ^ 24 + 2 ^ 44), 0, 0, w5, 0, sig] }
def chS (t : Transfer) : State := withChan { st := .busy, queue := [t] }
def exS (s : State) (t : Transfer) (el : Nat) : List (Nat × List Byte × Bool) × State :=
  let t' := s.judge 0 t (el)
  match (s.setTransfer 0 2 t').readSources 0 2 t' [el] with
  | .ok r => r
  | .error _ => ([], base)
/-- Where the elements read, what they read. -/
theorem exS_of {s : State} {t t' : Transfer} {el : Nat} {es : List Nat} (ht : t' = s.judge 0 t el) (he : es = [el])
    (h : ((s.setTransfer 0 2 t').readSources 0 2 t' es).toOption.isSome = true) :
    (s.setTransfer 0 2 t').readSources 0 2 t' es = .ok ((exS s t el).1, (exS s t el).2) := by
  subst ht he
  unfold exS
  dsimp only
  cases hr : (s.setTransfer 0 2 (s.judge 0 t el)).readSources 0 2 (s.judge 0 t el) [el] with
  | ok r => rfl
  | error e => rw [hr] at h; cases h
-- poison: S source poisoned, H destination
def tH : Transfer := tm5 0xD0 64 0
def sPo : State := let s := mapped (chS tH); s.modCore 0 (fun c => { c with spad := { c.spad with poison := [(0, true),(1,true),(2,true)] } })
def sFu : State := filled (mapped (chS tH))
def tSig : Transfer := { transfer1 64 1 with landed := [(0, true), (1, true)] }
def sg : State := chS tSig
def sgA := match sg.applySignal 0 tSig { rank := 0 } with | .next u => u | _ => base
-- chains
def lk : Link := { base := 0, n := 2, kicks := [(1, {})] }
def chC (bs : List Byte) (po : Bool) : State := withCore (fun c => { c with spad := { bytes := [] }, channels := [(2, { link := some lk })] }) |> fun s => s.sWrite 0 (List.range bs.length) bs po
def e1 : List Byte := wordsBytes [5, 0]
def e2 : List Byte := wordsBytes [0x200, 0]
def fe (w : Word) : Fetched := { w0 := 5, w1 := w, idx := 0, caps := [], owner := 0 }
def chF (w : Word) (n : Byte) : State := withCore (fun c => { c with spad := { bytes := [(8, n)] }, channels := [(2, { link := some lk, fetched := some (fe w) })] })
/-- What an element about to land gives. -/
def landOf (o : Landing) : Transfer × List Nat × List (Nat × List Byte × Bool) × State := match o with
  | .land t es l s => (t, es, l, s)
  | .next s => (transfer0, [], [], s)
def t8 : Transfer := transfer1 64 0
def s8 : State := chS t8
def l8 : List (Nat × List Byte × Bool) := (landOf (s8.landing 0 2 3 1)).2.2.1
def u8 : State := (landOf (s8.landing 0 2 3 1)).2.2.2
def tRed : Transfer := tm5 0x8400C0 64 0
def sRed : State := chS tRed

theorem meets_TransferElementsLand_land :
    let s : State := chS (transfer1 64 0)
    let t0 : Transfer := transfer1 64 0
    let l : List (Nat × List Byte × Bool) := (exS s t0 1).fst
    let u : State := (exS s t0 1).snd
    let k : Channel := (s.coreAt 0).chan 2
    let all : List Nat := t0.together t0.tm.count [1]
    let t : Transfer := s.judge 0 t0 (List.foldl max 1 all)
    let es : List Nat := List.filter t.unsent all
    let w : State := (u.landAll 0 t0 l).getD base
    (List.find? (fun t_1 => t_1.id == 3) k.queue = some t0) ∧
    (s.groups.find? t0.grp = some group1) ∧
    (group1.contain = none) ∧
    (t0.started = true) ∧
    (t0.unsent 1 = true) ∧
    (¬(k.st = ChanState.stopped ∧ s.groupOf 0 = some t0.grp)) ∧
    (∀ (e : Nat), e ∈ es → s.behind 0 (List.takeWhile (fun x => x.id != 3) k.queue) t e = false) ∧
    ((s.setTransfer 0 2 t).readSources 0 2 t es = Except.ok (l, u)) ∧
    (t.tm.dsp = 0 ∨ ∀ (e : Nat × List Byte × Bool), e ∈ l → e.snd.snd = false) ∧
    (u.landAll 0 t l = some w) := by
  intro s t0 l u k all t es w
  exact ⟨by decide +kernel, by decide +kernel, by decide +kernel, by decide +kernel, by decide +kernel, by decide +kernel, by decide +kernel, ok_of_toOption (by decide +kernel), by decide +kernel, by decide +kernel⟩

theorem meets_TransferElementsLand_lpo :
    let l : List (Nat × List Byte × Bool) := (exS sPo tH 1).fst
    let u : State := (exS sPo tH 1).snd
    let k : Channel := (sPo.coreAt 0).chan 2
    let all : List Nat := tH.together tH.tm.count [1]
    let t : Transfer := sPo.judge 0 tH (List.foldl max 1 all)
    let es : List Nat := List.filter t.unsent all
    (List.find? (fun t_1 => t_1.id == 3) k.queue = some tH) ∧
    (sPo.groups.find? tH.grp = some group1) ∧
    (group1.contain = none) ∧
    (tH.started = true) ∧
    (tH.unsent 1 = true) ∧
    (¬(k.st = ChanState.stopped ∧ sPo.groupOf 0 = some tH.grp)) ∧
    (∀ (e : Nat), e ∈ es → sPo.behind 0 (List.takeWhile (fun x => x.id != 3) k.queue) t e = false) ∧
    ((sPo.setTransfer 0 2 t).readSources 0 2 t es = Except.ok (l, u)) ∧
    (t.tm.dsp ≠ 0) ∧
    (∃ e, e ∈ l ∧ e.snd.snd = true) := by
  intro l u k all t es
  exact ⟨by decide +kernel, by decide +kernel, by decide +kernel, by decide +kernel, by decide +kernel, by decide +kernel, by decide +kernel, ok_of_toOption (by decide +kernel), by decide +kernel, by decide +kernel⟩

theorem meets_TransferElementsLand_lfull :
    let l : List (Nat × List Byte × Bool) := (exS sFu tH 1).fst
    let u : State := (exS sFu tH 1).snd
    let k : Channel := (sFu.coreAt 0).chan 2
    let all : List Nat := tH.together tH.tm.count [1]
    let t : Transfer := sFu.judge 0 tH (List.foldl max 1 all)
    let es : List Nat := List.filter t.unsent all
    (List.find? (fun t_1 => t_1.id == 3) k.queue = some tH) ∧
    (sFu.groups.find? tH.grp = some group1) ∧
    (group1.contain = none) ∧
    (tH.started = true) ∧
    (tH.unsent 1 = true) ∧
    (¬(k.st = ChanState.stopped ∧ sFu.groupOf 0 = some tH.grp)) ∧
    (∀ (e : Nat), e ∈ es → sFu.behind 0 (List.takeWhile (fun x => x.id != 3) k.queue) t e = false) ∧
    ((sFu.setTransfer 0 2 t).readSources 0 2 t es = Except.ok (l, u)) ∧
    (t.tm.dsp = 0 ∨ ∀ (e : Nat × List Byte × Bool), e ∈ l → e.snd.snd = false) ∧
    (u.landAll 0 t l = none) := by
  intro l u k all t es
  exact ⟨by decide +kernel, by decide +kernel, by decide +kernel, by decide +kernel, by decide +kernel, by decide +kernel, by decide +kernel, exS_of (congrArg (sFu.judge 0 tH) (show List.foldl max 1 all = 1 by decide +kernel)) (show es = [1] by decide +kernel) (by decide +kernel), by decide +kernel, by decide +kernel⟩

theorem meets_TransferSignals_sig :
    let r : Receiver := { rank := 0 }
    let k : Channel := (sg.coreAt 0).chan 2
    (k.queue = [tSig]) ∧
    (sg.groups.find? tSig.grp = some group1) ∧
    (group1.contain = none) ∧
    (tSig.started = true) ∧
    (tSig.remains = false) ∧
    (¬(k.st = ChanState.stopped ∧ sg.groupOf 0 = some tSig.grp)) ∧
    (tSig.toSignal = some r) ∧
    (tSig.signals = true) ∧
    (sg.applySignal 0 tSig r = Settled.next sgA) := by decide +kernel

theorem meets_ChainEntriesFollowTheirKicks_chok :
    let s : State := chC e1 false
    let k : Channel := (s.coreAt 0).chan 2
    let l' : Link := { lk with pos := 1, kicks := [] }
    let mark : Mark := { }
    let as : List Nat := List.range 16
    let r : List Byte × Bool × State := s.sRead 0 as
    let w : Nat → Word := fun j => (bytesWords 2 r.fst).getD j 0
    (s.groupOf 0 = some 1) ∧
    (s.engineRuns 0 = true) ∧
    (k.link = some lk) ∧
    (k.fetched = none) ∧
    (lk.kick = some (mark, l')) ∧
    (s.sLoc 0 1 (↑(lk.base.toNat + 16 * lk.pos)) 16 = SLoc.ok as) ∧
    (r.snd.fst = false) ∧
    (BitVec.extractLsb' 9 7 (w 0) = 0#7) ∧
    (BitVec.extractLsb' 48 16 (w 1) = 0#16) := by decide +kernel

theorem meets_ChainEntriesFollowTheirKicks_chbad :
    let s : State := chC e2 false
    let k : Channel := (s.coreAt 0).chan 2
    let l' : Link := { lk with pos := 1, kicks := [] }
    let mark : Mark := { }
    let as : List Nat := List.range 16
    let r : List Byte × Bool × State := s.sRead 0 as
    let w : Nat → Word := fun j => (bytesWords 2 r.fst).getD j 0
    (s.groupOf 0 = some 1) ∧
    (s.engineRuns 0 = true) ∧
    (k.link = some lk) ∧
    (k.fetched = none) ∧
    (lk.kick = some (mark, l')) ∧
    (s.sLoc 0 1 (↑(lk.base.toNat + 16 * lk.pos)) 16 = SLoc.ok as) ∧
    (r.snd.fst = false) ∧
    (BitVec.extractLsb' 9 7 (w 0) ≠ 0#7 ∨ BitVec.extractLsb' 48 16 (w 1) ≠ 0#16) := by decide +kernel

theorem meets_ChainEntriesFollowTheirKicks_chpo :
    let s : State := chC e1 true
    let k : Channel := (s.coreAt 0).chan 2
    let l' : Link := { lk with pos := 1, kicks := [] }
    let mark : Mark := { }
    let as : List Nat := List.range 16
    let r : List Byte × Bool × State := s.sRead 0 as
    (s.groupOf 0 = some 1) ∧
    (s.engineRuns 0 = true) ∧
    (k.link = some lk) ∧
    (k.fetched = none) ∧
    (lk.kick = some (mark, l')) ∧
    (s.sLoc 0 1 (↑(lk.base.toNat + 16 * lk.pos)) 16 = SLoc.ok as) ∧
    (r.snd.fst = true) := by decide +kernel

theorem meets_ChainEntriesFollowTheirKicks_chr :
    let s : State := chF 0 1
    let k : Channel := (s.coreAt 0).chan 2
    let f : Fetched := fe 0
    let wamt : Nat := BitVec.toNat f.w1 / 2 ^ 16 % 256
    (s.groupOf 0 = some 1) ∧
    (s.engineRuns 0 = true) ∧
    (k.fetched = some f) ∧
    (k.inFlight < 16) ∧
    (s.apertureFirst 0 2 = false) ∧
    (wamt = 0) := by decide +kernel

theorem meets_ChainEntriesFollowTheirKicks_chr2 :
    let s : State := chF 131073 2
    let k : Channel := (s.coreAt 0).chan 2
    let f : Fetched := fe 131073
    let wamt : Nat := BitVec.toNat f.w1 / 2 ^ 16 % 256
    let as : List Nat := [8, 9, 10, 11, 12, 13, 14, 15]
    (s.groupOf 0 = some 1) ∧
    (s.engineRuns 0 = true) ∧
    (k.fetched = some f) ∧
    (k.inFlight < 16) ∧
    (s.apertureFirst 0 2 = false) ∧
    (wamt ≠ 0) ∧
    (s.sCounter 0 1 (8 * (BitVec.toNat f.w1 % 2 ^ 16)) = SCount.ok as 2 false s) ∧
    (wamt ≤ 2) := by decide +kernel

theorem meets_ChainEntriesFollowTheirKicks_chr3 :
    let s : State := chF 131073 1
    let k : Channel := (s.coreAt 0).chan 2
    let f : Fetched := fe 131073
    let wamt : Nat := BitVec.toNat f.w1 / 2 ^ 16 % 256
    let as : List Nat := [8, 9, 10, 11, 12, 13, 14, 15]
    (s.groupOf 0 = some 1) ∧
    (s.engineRuns 0 = true) ∧
    (k.fetched = some f) ∧
    (k.inFlight < 16) ∧
    (s.apertureFirst 0 2 = false) ∧
    (wamt ≠ 0) ∧
    (s.sCounter 0 1 (8 * (BitVec.toNat f.w1 % 2 ^ 16)) = SCount.ok as 1 false s) ∧
    (1 < wamt) := by decide +kernel

theorem meets_TransferUnitsLandAlone_lu :
    let w : State := (u8.landAll 0 t8 l8).getD base
    (s8.landing 0 2 3 1 = Landing.land t8 [1] l8 u8) ∧
    (t8.tm.rop ≠ 1) ∧
    (t8.tm.dsp = 0) ∧
    (u8.landAll 0 t8 l8 = some w) ∧
    (9 < 49152) ∧
    (∀ (p : Peek), p ∈ (u8.coreAt 0).peeks → p.id = landId 3 1 → p.unit ≠ 9) ∧
    (Tbl.get false (u8.coreAt 0).spad.latent (9 / 8 : Nat) = false) := by decide +kernel

theorem meets_TransferUnitsLandAlone_lured :
    let es : List Nat := (landOf (sRed.landing 0 2 3 1)).snd.fst
    let l : List (Nat × List Byte × Bool) := (landOf (sRed.landing 0 2 3 1)).snd.snd.fst
    let s1 : State := (landOf (sRed.landing 0 2 3 1)).snd.snd.snd
    (sRed.landing 0 2 3 1 = Landing.land tRed es l s1) ∧
    (tRed.tm.rop = 1) := by decide +kernel



end Sys2Proof.Tests.Transfers
end

