-- ==== Sys2Proof/Tests/Engine.lean ====
section
/-! SUPPORT. States that meet the hypotheses of the statements about the engines. -/

namespace Sys2Proof.Tests.Vectors
open Sys2Proof Sys2Proof.Machine Sys2Proof.Claims
set_option Elab.async false

def vq : State := withCore (fun c => { c with vq := [vadd] })
def afterV (s : State) (c : Nat) (e : VEntry) : State := match vperform s c e with | .ok s' _ => s' | _ => base
/-- The vector queue with an entry that has begun its access. -/
def vopened (e : VEntry) : State := withCore (fun c => { c with vq := [e] })
def vst : VEntry := { id := 5, owner := 0, instr := .vstSOneWord bare 0 0 0, addr := 0x40, opened := true }
def ksigV (n : BitVec 6) : VEntry := { id := 5, owner := 0, instr := .ksig bare 0 n 3, started := true }
def tst : State := { (withX 0x0F 0) with cores := [(0, { group := some 1, strands := first { life := .running, x := [(0, { v := 0x0F })] }, tiles := [(0, { status := 0x05, owner := some 1 }), (3, { status := 0x80, owner := some 1 })] })] }
def fq (w : BitVec 32) (a : Word) : State := (withX a 0).modCore 0 (fun c => { c with fq := [w, 7] })
def ent (i : Instr) (a : Int := 0) : VEntry := { id := 5, owner := 0, instr := i, s1 := { v := 0x40 }, s2 := { v := 3 }, addr := a }
def extracted : Reg := (Claims.vectorScalar (ent (.vext bare 4 0 1)) (VCtx.of base 0 (ent (.vext bare 4 0 1)))).getD {}
def found (l : SLoc) : List Nat := match l with | .ok as => as | _ => []
def vload (a : Int) : VEntry := ent (.vldSOneWord bare 0 1 0) a
def vstore (a : Int) : VEntry := ent (.vstSOneWord bare 0 1 0) a
def placesOf (e : VEntry) (a : BitVec 6) : SLoc :=
  let x := VCtx.of base 0 e
  base.sLocs 0 (((List.range x.cfg.n).filter (fun k => x.am.bit k)).map (fun k => e.s1.v.toNat + Claims.elem x.cfg.w k (x.t.vsrc x.rb x.cfg a e.s2).v * (x.cfg.w / 8))) (x.cfg.w / 8)
def bare0 : State := withCore (fun c => { c with pieces := [] })
def far (i : Instr) : VEntry := { ent i with s1 := { v := 2 ^ 40 } }

theorem meets_VectorEntriesStartInOrder_vstart :
    let m : Mark := { }
    let u : Option Nat := some 0
    let co : Core := vq.coreAt 0
    let s' : State := afterV ((vq.setCore 0 ((co.occupy 0 u 1).count 3 1)).asSeen 0 5) 0 vadd
    let e0 : VEntry := if vadd.opened = true then vadd else { vadd with mark := vadd.mark.join m }
    let s0 : State := if vadd.opened = true then vq else vq.setCore 0 ((co.occupy vq.pkg.clocks u ((VCtx.of vq 0 { vadd with mark := vadd.mark.join m }).occupies { vadd with mark := vadd.mark.join m })).count 3 1)
    (vq.nextEntry 0 = some 5) ∧
    (List.find? (fun x => x.id == 5) (vq.coreAt 0).vq = some vadd) ∧
    (vadd.opened = false → vq.startTake 0 Engine.V vadd.instr = some (co, m) ∧ (vq.coreAt 0).freeUnit vq.pkg.clocks (vunit vadd.instr) = some u) ∧
    (vperform (s0.asSeen 0 5) 0 e0 = VOut.ok s' none) := by decide +kernel

theorem meets_VectorEntriesStartInOrder_vstartOpened :
    let s : State := vopened vst
    let m : Mark := { }
    let co : Core := vq.coreAt 0
    let s' : State := afterV ((vopened vst).asSeen 0 5) 0 vst
    let e0 : VEntry := if vst.opened = true then vst else { vst with mark := vst.mark.join m }
    let s0 : State := if vst.opened = true then s else s.setCore 0 ((co.occupy s.pkg.clocks none ((VCtx.of s 0 { vst with mark := vst.mark.join m }).occupies { vst with mark := vst.mark.join m })).count 3 1)
    (s.nextEntry 0 = some 5) ∧
    (List.find? (fun x => x.id == 5) (s.coreAt 0).vq = some vst) ∧
    (vst.opened = false → s.startTake 0 Engine.V vst.instr = some (co, m) ∧ (s.coreAt 0).freeUnit s.pkg.clocks (vunit vst.instr) = some none) ∧
    (vperform (s0.asSeen 0 5) 0 e0 = VOut.ok s' none) := by decide +kernel

theorem meets_VectorAccessesUnitByUnit_vunit :
    let s : State := vopened vst
    (List.find? (fun x => x.id == 5) (s.coreAt 0).vq = some vst) ∧
    (vst.opened = true) ∧
    (vst.started = false) ∧
    (vunit vst.instr = VUnit.port) ∧
    (s.nextEntry 0 = some 5) ∧
    (9 < 49152) ∧
    (∀ (p : Peek), p ∈ (s.coreAt 0).peeks → p.id = 5 → p.unit ≠ 9) ∧
    (Tbl.get false (s.coreAt 0).spad.latent (9 / 8 : Nat) = false) := by decide +kernel

theorem meets_VectorEntryRetires_vret :
    let s : State := vopened (ksigV 1)
    let e : VEntry := ksigV 1
    let n : Nat := (match e.instr with
      | Instr.tokpush _ n_1 _ => n_1.toNat
      | _ => 1)
    (List.find? (fun x => x.owner == 0) (s.coreAt 0).vq = some e) ∧
    (e.started = true) ∧
    ((s.coreAt 0).room Engine.V (instrPre e.instr) n = true) := by decide +kernel

theorem meets_FormatQueueAndTileStatus_fpush :
    let s : State := withX 32767 0
    let v : Word := (s.me.rd 0).v
    let i : Instr := Instr.fpush bare 0
    let s' : State := (s.granted i 1).modCore s.core fun c => { c with fq := c.fq ++ [BitVec.setWidth 32 v] }
    (s.issues i 1 = true) ∧
    ((s.me.rd 0#6).poison = false) ∧
    (BitVec.toNat v < 2 ^ 15) ∧
    (s.myCore.fq.length < Config.matrixQueue) ∧
    (s.hasRoom i s' = true) := by decide +kernel

theorem meets_FormatQueueAndTileStatus_fpushBad :
    let s : State := withX 32768 0
    let v : Word := (s.me.rd 0).v
    let i : Instr := Instr.fpush bare 0
    (s.issues i 1 = true) ∧
    ((s.me.rd 0#6).poison = false) ∧
    (2 ^ 15 ≤ BitVec.toNat v) := by decide +kernel

theorem meets_FormatQueueAndTileStatus_fpushFull :
    let s : State := (withX 32767 0).modCore 0 fun c => { c with fq := List.replicate 16 0 }
    let v : Word := (s.me.rd 0).v
    let i : Instr := Instr.fpush bare 0
    (s.issues i 1 = true) ∧
    ((s.me.rd 0#6).poison = false) ∧
    (BitVec.toNat v < 2 ^ 15) ∧
    (Config.matrixQueue ≤ s.myCore.fq.length) := by decide +kernel

theorem meets_FormatQueueAndTileStatus_tstat :
    let byte : Core → Nat → BitVec 8 := fun co k => (if (co.tile k).foreign tst.grp = true then Tbl.get { } co.awayTiles k else co.tile k).status
    let status : Core → BitVec 64 := fun co => BitVec.setWidth 64 (byte co 3 ++ byte co 2 ++ byte co 1 ++ byte co 0)
    let i : Instr := Instr.tstat bare 3
    let s' : State := (tst.granted i 1).modMe fun t => t.result 3 { v := status tst.myCore }
    (tst.issues i 1 = true) ∧
    (tst.hasRoom i s' = true) := by decide +kernel

theorem meets_FormatQueueAndTileStatus_tstatClr :
    let v : Word := (tst.me.rd 0).v
    let byte : Core → Nat → BitVec 8 := fun co k => (if (co.tile k).foreign tst.grp = true then Tbl.get { } co.awayTiles k else co.tile k).status
    let status : Core → BitVec 64 := fun co => BitVec.setWidth 64 (byte co 3 ++ byte co 2 ++ byte co 1 ++ byte co 0)
    let i : Instr := Instr.tstatClr bare 3 0
    let clear : Nat → Tile → Tile := fun k t => { t with status := t.status &&& ~~~BitVec.extractLsb' (8 * k) 8 v }
    let cleared : Core → Nat → Core := fun co k => if (co.tile k).foreign tst.grp = true then { co with awayTiles := Tbl.set { } co.awayTiles k (clear k (Tbl.get { } co.awayTiles k)) } else co.setTile k (clear k (co.tile k))
    let s' : State := ((tst.granted i 1).modCore tst.core fun co => List.foldl cleared co [0, 1, 2, 3]).modMe fun t => t.result 3 { v := status tst.myCore }
    (tst.issues i 1 = true) ∧
    ((tst.me.rd 0#6).poison = false) ∧
    (tst.hasRoom i s' = true) := by decide +kernel

theorem meets_TileCommandClaimsItsWord_tileEmpty :
    let i : Instr := Instr.tzero bare 0 0 0 0 0
    (Claims.tileOperands i = some (60#6, 60#6)) ∧
    (base.issues i 1 = true) ∧
    ((base.me.rd 60#6).poison = false) ∧
    (base.me.outs = 0) ∧
    (base.myCore.fq = []) := by decide +kernel

theorem meets_TileCommandClaimsItsWord_tileBadWord :
    let i : Instr := Instr.tmma bare 0 0 1 0 0 0 0 0
    let s : State := fq 32767 0
    (Claims.tileOperands i = some (0#6, 1#6)) ∧
    (s.issues i 1 = true) ∧
    ((s.me.rd 0#6).poison = false) ∧
    (s.myCore.fq = [32767#32, 7#32]) ∧
    (((s.me.rd 1#6).poison && scaleFmt i 32767#32 == some 9) = false) ∧
    (s.me.outs = 0) ∧
    (wordOk i 32767#32 = false) := by decide +kernel

theorem meets_TileCommandClaimsItsWord_tileBadArg :
    let i : Instr := Instr.tcfg bare 0 0 0 0 0 0
    let s : State := fq 0 18446744073709551615
    (Claims.tileOperands i = some (0#6, 60#6)) ∧
    (s.issues i 1 = true) ∧
    ((s.me.rd 0#6).poison = false) ∧
    (s.myCore.fq = [0#32, 7#32]) ∧
    (((s.me.rd 60#6).poison && scaleFmt i 0#32 == some 9) = false) ∧
    (s.me.outs = 0) ∧
    (wordOk i 0#32 = true) ∧
    (tileArgOk i (s.me.rd 0#6).v = false) := by decide +kernel

theorem meets_TileCommandClaimsItsWord_tileOk :
    let i : Instr := Instr.tzero bare 0 0 0 0 0
    let s : State := fq 0 0
    (Claims.tileOperands i = some (60#6, 60#6)) ∧
    (s.issues i 1 = true) ∧
    ((s.me.rd 60#6).poison = false) ∧
    (s.myCore.fq = [0#32, 7#32]) ∧
    (((s.me.rd 60#6).poison && scaleFmt i 0#32 == some 9) = false) ∧
    (wordOk i 0#32 = true) ∧
    (tileArgOk i (s.me.rd 60#6).v = true) ∧
    ((s.myCore.rot 25).served = []) := by decide +kernel

theorem meets_VectorEntriesPassedOverAreCounted_passed :
    let s : State := withCore fun c => { c with vstarts := 1, vq := [vadd] }
    (0 < (s.coreAt 0).vstarts) := by decide +kernel

theorem meets_VectorEntriesPassedOverAreCounted_passedNone :
    ((vq.coreAt 0).vstarts = 0) := by decide +kernel

theorem meets_VectorScans_scan :
    let e : VEntry := ent (Instr.vscanSum bare 0 1)
    (Claims.vectorScan e.instr = some (0, 0#6, 1#6)) := by decide +kernel

theorem meets_VectorCompare_vcompare :
    let e : VEntry := ent (Instr.vcmp bare 2 1 0 1)
    (e.instr = Instr.vcmp bare 2#2 1#3 0#6 1#6) := by decide +kernel

theorem meets_VectorConversion_convert :
    let e : VEntry := ent (Instr.vcvtTo bare 0 4 9)
    let x : VCtx := VCtx.of base 0 e
    (Claims.vectorConvert e.instr x.cfg.et = some (0#6, 4#6, 8, 9)) ∧
    (legalEt 8 = true ∨ 8 = 9) ∧
    (legalEt 9 = true ∨ 9 = 9) ∧
    (legalEt x.cfg.et = true) := by decide +kernel

theorem meets_VectorConversion_convertPlain :
    let e : VEntry := ent (Instr.vcvtFrom bare 0 4 5)
    let x : VCtx := VCtx.of base 0 e
    (Claims.vectorConvert e.instr x.cfg.et = some (0#6, 4#6, 5, 8)) ∧
    (legalEt 5 = true ∨ 5 = 9) ∧
    (legalEt 8 = true ∨ 8 = 9) ∧
    (legalEt x.cfg.et = true) := by decide +kernel

theorem meets_VectorLaneMoves_pack :
    let e : VEntry := ent (Instr.vpack bare 0 2 1)
    (e.instr = Instr.vpack bare 0#6 2#6 1#2) := by decide +kernel

theorem meets_VectorLaneMoves_unpack :
    let e : VEntry := ent (Instr.vunpack bare 0 2 1)
    (e.instr = Instr.vunpack bare 0#6 2#6 1#2) := by decide +kernel

theorem meets_VectorLaneMoves_transpose :
    let e : VEntry := ent (Instr.vtrn bare 0 8 1)
    (e.instr = Instr.vtrn bare 0#6 8#6 1#2) := by decide +kernel

theorem meets_VectorScalarsAndMasks_vextScalar :
    let e : VEntry := ent (Instr.vext bare 4 0 1)
    let x : VCtx := VCtx.of base 0 e
    (Claims.vectorScalar e x = some extracted) := by decide +kernel

theorem meets_VectorScalarsAndMasks_maskNot :
    let e : VEntry := ent (Instr.mnot bare 2 1)
    let x : VCtx := VCtx.of base 0 e
    let r : MReg := { v := ~~~(base.me.rdM 1).v }
    (Claims.maskResult e.instr x.t = some (2, r)) := by decide +kernel

theorem meets_VectorScalarsAndMasks_vcfgField :
    let e : VEntry := ent (Instr.vcfg bare 4 1 2)
    (e.instr = Instr.vcfg bare 4#6 1#6 2#5) := by decide +kernel

theorem meets_VectorAccesses_vldOut :
    let e : VEntry := vload 268435456
    let x : VCtx := VCtx.of base 0 e
    let loc : SLoc := base.sLoc 0 (base.coreGrp 0) e.addr 256
    (legalEt x.cfg.et = true) ∧
    (Claims.vectorAccess e.instr = some (false, 0#6)) ∧
    (loc = SLoc.outside) := by decide +kernel

theorem meets_VectorAccesses_vldAbsent :
    let e : VEntry := vload 0
    let x : VCtx := VCtx.of bare0 0 e
    let loc : SLoc := bare0.sLoc 0 (bare0.coreGrp 0) e.addr 256
    (legalEt x.cfg.et = true) ∧
    (Claims.vectorAccess e.instr = some (false, 0#6)) ∧
    (loc = SLoc.absent) := by decide +kernel

theorem meets_VectorAccesses_vldOk :
    let e : VEntry := vload 64
    let x : VCtx := VCtx.of base 0 e
    let loc : SLoc := base.sLoc 0 (base.coreGrp 0) e.addr 256
    let as : List Nat := addrs 64 256
    (legalEt x.cfg.et = true) ∧
    (Claims.vectorAccess e.instr = some (false, 0#6)) ∧
    (loc = SLoc.ok as) ∧
    (false = false) := by decide +kernel

theorem meets_VectorAccesses_vstOk :
    let e : VEntry := vstore 64
    let x : VCtx := VCtx.of base 0 e
    let loc : SLoc := base.sLoc 0 (base.coreGrp 0) e.addr 256
    let as : List Nat := addrs 64 256
    (legalEt x.cfg.et = true) ∧
    (Claims.vectorAccess e.instr = some (true, 0#6)) ∧
    (loc = SLoc.ok as) ∧
    (true = true) := by decide +kernel

theorem meets_VectorAccesses_gatherOut :
    let e : VEntry := far (Instr.vgathS bare 0 1 2)
    let x : VCtx := VCtx.of base 0 e
    let nb : Nat := x.cfg.w / 8
    let active : List Nat := List.filter (fun k => x.am.bit k) (List.range x.cfg.n)
    let places : BitVec 6 → SLoc := fun a => base.sLocs 0 (List.map (fun k => BitVec.toNat e.s1.v + Claims.elem x.cfg.w k (x.t.vsrc x.rb x.cfg a e.s2).v * nb) active) nb
    (legalEt x.cfg.et = true) ∧
    (e.instr = Instr.vgathS bare 0#6 1#6 2#6 ∨ e.instr = Instr.vscatS bare 0#6 1#6 2#6) ∧
    (places 1#6 = SLoc.outside) := by decide +kernel

theorem meets_VectorAccesses_gatherAbsent :
    let e : VEntry := ent (Instr.vgathS bare 0 1 2)
    let x : VCtx := VCtx.of bare0 0 e
    let nb : Nat := x.cfg.w / 8
    let active : List Nat := List.filter (fun k => x.am.bit k) (List.range x.cfg.n)
    let places : BitVec 6 → SLoc := fun a => bare0.sLocs 0 (List.map (fun k => BitVec.toNat e.s1.v + Claims.elem x.cfg.w k (x.t.vsrc x.rb x.cfg a e.s2).v * nb) active) nb
    (legalEt x.cfg.et = true) ∧
    (e.instr = Instr.vgathS bare 0#6 1#6 2#6 ∨ e.instr = Instr.vscatS bare 0#6 1#6 2#6) ∧
    (places 1#6 = SLoc.absent) := by decide +kernel

theorem meets_VectorAccesses_gatherOk :
    let e : VEntry := ent (Instr.vgathS bare 0 1 2)
    let x : VCtx := VCtx.of base 0 e
    let nb : Nat := x.cfg.w / 8
    let active : List Nat := List.filter (fun k => x.am.bit k) (List.range x.cfg.n)
    let places : BitVec 6 → SLoc := fun a => base.sLocs 0 (List.map (fun k => BitVec.toNat e.s1.v + Claims.elem x.cfg.w k (x.t.vsrc x.rb x.cfg a e.s2).v * nb) active) nb
    let as : List Nat := found (placesOf e 1)
    (legalEt x.cfg.et = true) ∧
    (e.instr = Instr.vgathS bare 0#6 1#6 2#6) ∧
    (places 1#6 = SLoc.ok as) := by decide +kernel

theorem meets_VectorAccesses_scatterOk :
    let e : VEntry := ent (Instr.vscatS bare 0 1 2)
    let x : VCtx := VCtx.of base 0 e
    let nb : Nat := x.cfg.w / 8
    let active : List Nat := List.filter (fun k => x.am.bit k) (List.range x.cfg.n)
    let places : BitVec 6 → SLoc := fun a => base.sLocs 0 (List.map (fun k => BitVec.toNat e.s1.v + Claims.elem x.cfg.w k (x.t.vsrc x.rb x.cfg a e.s2).v * nb) active) nb
    let as : List Nat := found (placesOf e 1)
    (legalEt x.cfg.et = true) ∧
    (e.instr = Instr.vscatS bare 0#6 1#6 2#6) ∧
    (places 1#6 = SLoc.ok as) := by decide +kernel



end Sys2Proof.Tests.Vectors

namespace Sys2Proof.Tests.Matrices
open Sys2Proof Sys2Proof.Machine Sys2Proof.Claims
set_option Elab.async false

def mcfg : MEntry := { id := 4, owner := 0, instr := .tcfg bare 1 0 0 0 0 0, a := 0x00010001 }
def mswap : MEntry := { id := 4, owner := 0, instr := .wswap bare 1 0 0 0 0 }
def mzero : MEntry := { id := 4, owner := 0, instr := .tzero bare 1 2 1 0 0 }
def c (e : MEntry) : Core := (withM e).coreAt 0
def tileCmd (e : MEntry) : TCmd := (tcmd e.instr).getD { t := 0, kind := .cfg, wsem := 0, wcnt := 0, ssem := 0, scnt := 0 }
def semd : State := withCore (fun c => { c with mq := [mzero], sem := [(2, { lots := [(1, {})] })] })
def mrun : MEntry := { mzero with st := .running }
def mdrain : MEntry := { id := 4, owner := 0, instr := .tdrain bare 0 0 0 0 0 0 0 0, a := 0xFFFFFF }
def outSt : State := (withM mdrain).modCore 0 (fun k => { k with tiles := [(0, { shape := BitVec.ofNat 64 (1 + 2 ^ 12 + 2 ^ 24 + 2 ^ 16 + 2 ^ 32) })] })
def msig (n : BitVec 6) : MEntry := { id := 4, owner := 0, instr := .ksig bare 0 n 2, st := .complete }
def foreignTile : State := (withM mrun).modCore 0 (fun k => { k with tiles := [(1, { st := .held, owner := some 9 })] })

theorem meets_MatrixCommandStarts_mcfg :
    let s : State := withM mcfg
    let cmd : TCmd := tileCmd mcfg
    let co1 : Core := c mcfg
    let co2 : Core := c mcfg
    let m1 : Mark := { }
    let co : Core := s.coreAt 0
    let g : Nat := s.coreGrp 0
    let e' : MEntry := { mcfg with shape := (co2.tile cmd.t).shape, mark := mcfg.mark.join (m1.join m1) }
    (List.find? (fun x => x.st == MState.queued) co.mq = some mcfg) ∧
    (s.engineRuns 0 = true) ∧
    (∀ (o : MEntry), o ∈ co.mq → o.st ≠ MState.stopped) ∧
    (tcmd mcfg.instr = some cmd) ∧
    (∀ (o : MEntry), o ∈ List.takeWhile (fun o_1 => o_1.id != mcfg.id) co.mq → ∀ (oc : TCmd), tcmd o.instr = some oc → oc.t = cmd.t → o.st ≠ MState.complete → cmd.kind.needs oc.kind = false) ∧
    (unclaimed co g cmd = true) ∧
    (co.take Engine.M (instrPre mcfg.instr) 1 = some (co1, m1)) ∧
    (cmd.wcnt = 0 ∨ s.semFirst 0 Engine.M cmd.wsem = false) ∧
    (co1.semTake cmd.wsem cmd.wcnt = some (co2, m1)) ∧
    (s.tileRanges 0 cmd e' = SLoc.ok []) ∧
    (cmd.kind = TKind.cfg) := by decide +kernel

theorem meets_MatrixCommandStarts_mswap :
    let s : State := withM mswap
    let cmd : TCmd := tileCmd mswap
    let co1 : Core := c mswap
    let co2 : Core := c mswap
    let m1 : Mark := { }
    let co : Core := s.coreAt 0
    let g : Nat := s.coreGrp 0
    let e' : MEntry := { mswap with shape := (co2.tile cmd.t).shape, mark := mswap.mark.join (m1.join m1) }
    (List.find? (fun x => x.st == MState.queued) co.mq = some mswap) ∧
    (s.engineRuns 0 = true) ∧
    (∀ (o : MEntry), o ∈ co.mq → o.st ≠ MState.stopped) ∧
    (tcmd mswap.instr = some cmd) ∧
    (∀ (o : MEntry), o ∈ List.takeWhile (fun o_1 => o_1.id != mswap.id) co.mq → ∀ (oc : TCmd), tcmd o.instr = some oc → oc.t = cmd.t → o.st ≠ MState.complete → cmd.kind.needs oc.kind = false) ∧
    (unclaimed co g cmd = true) ∧
    (co.take Engine.M (instrPre mswap.instr) 1 = some (co1, m1)) ∧
    (cmd.wcnt = 0 ∨ s.semFirst 0 Engine.M cmd.wsem = false) ∧
    (co1.semTake cmd.wsem cmd.wcnt = some (co2, m1)) ∧
    (s.tileRanges 0 cmd e' = SLoc.ok []) ∧
    (cmd.kind = TKind.swap) := by decide +kernel

theorem meets_MatrixCommandStarts_mzero :
    let cmd : TCmd := tileCmd mzero
    let co1 : Core := semd.coreAt 0
    let co2 : Core := { co1 with sem := [] }
    let m1 : Mark := { }
    let co : Core := semd.coreAt 0
    let g : Nat := semd.coreGrp 0
    let e' : MEntry := { mzero with shape := (co2.tile cmd.t).shape, mark := mzero.mark.join (m1.join m1) }
    (List.find? (fun x => x.st == MState.queued) co.mq = some mzero) ∧
    (semd.engineRuns 0 = true) ∧
    (∀ (o : MEntry), o ∈ co.mq → o.st ≠ MState.stopped) ∧
    (tcmd mzero.instr = some cmd) ∧
    (∀ (o : MEntry), o ∈ List.takeWhile (fun o_1 => o_1.id != mzero.id) co.mq → ∀ (oc : TCmd), tcmd o.instr = some oc → oc.t = cmd.t → o.st ≠ MState.complete → cmd.kind.needs oc.kind = false) ∧
    (unclaimed co g cmd = true) ∧
    (co.take Engine.M (instrPre mzero.instr) 1 = some (co1, m1)) ∧
    (cmd.wcnt = 0 ∨ semd.semFirst 0 Engine.M cmd.wsem = false) ∧
    (co1.semTake cmd.wsem cmd.wcnt = some (co2, m1)) ∧
    (semd.tileRanges 0 cmd e' = SLoc.ok []) ∧
    (cmd.kind ≠ TKind.cfg) ∧
    (cmd.kind ≠ TKind.swap) := by decide +kernel

theorem meets_MatrixCommandStarts_mout :
    let cmd : TCmd := tileCmd mdrain
    let co1 : Core := outSt.coreAt 0
    let m1 : Mark := { }
    let co : Core := outSt.coreAt 0
    let g : Nat := outSt.coreGrp 0
    let e' : MEntry := { mdrain with shape := (co1.tile cmd.t).shape, mark := mdrain.mark.join (m1.join m1) }
    (List.find? (fun x => x.st == MState.queued) co.mq = some mdrain) ∧
    (outSt.engineRuns 0 = true) ∧
    (∀ (o : MEntry), o ∈ co.mq → o.st ≠ MState.stopped) ∧
    (tcmd mdrain.instr = some cmd) ∧
    (∀ (o : MEntry), o ∈ List.takeWhile (fun o_1 => o_1.id != mdrain.id) co.mq → ∀ (oc : TCmd), tcmd o.instr = some oc → oc.t = cmd.t → o.st ≠ MState.complete → cmd.kind.needs oc.kind = false) ∧
    (unclaimed co g cmd = true) ∧
    (co.take Engine.M (instrPre mdrain.instr) 1 = some (co1, m1)) ∧
    (cmd.wcnt = 0 ∨ outSt.semFirst 0 Engine.M cmd.wsem = false) ∧
    (co1.semTake cmd.wsem cmd.wcnt = some (co1, m1)) ∧
    (outSt.tileRanges 0 cmd e' = SLoc.outside) := by decide +kernel

theorem meets_MatrixCommandCompletes_mdone :
    let s : State := withM mrun
    let cmd : TCmd := tileCmd mrun
    (List.find? (fun x => x.id == 4) (s.coreAt 0).mq = some mrun) ∧
    (tcmd mrun.instr = some cmd) ∧
    (mrun.st = MState.running) ∧
    ((s.coreAt 0).gated = false) ∧
    (∀ (o : MEntry), o ∈ List.takeWhile (fun o_1 => o_1.id != 4) (s.coreAt 0).mq → ∀ (oc : TCmd), tcmd o.instr = some oc → o.st = MState.running → oc.t ≠ cmd.t ∧ (cmd.kind.accesses && oc.kind.accesses) = false) ∧
    (s.tileRanges 0 cmd mrun ≠ SLoc.absent) ∧
    (unclaimed (s.coreAt 0) (s.coreGrp 0) cmd = true) := by decide +kernel

theorem meets_MatrixEntryRetires_mret :
    let s : State := withM (msig 2) [mzero]
    let e : MEntry := msig 2
    let n : Nat := (match e.instr with
      | Instr.tokpush _ n_1 _ => n_1.toNat
      | _ => 1)
    ((s.coreAt 0).mq = [e, mzero]) ∧
    (e.st = MState.complete) ∧
    ((s.coreAt 0).room Engine.M (instrPre e.instr) n = true) := by decide +kernel

theorem meets_MatrixCommandCompletes_mclaims :
    let cmd : TCmd := tileCmd mrun
    (List.find? (fun x => x.id == 4) (foreignTile.coreAt 0).mq = some mrun) ∧
    (tcmd mrun.instr = some cmd) ∧
    (mrun.st = MState.running) ∧
    ((foreignTile.coreAt 0).gated = false) ∧
    (∀ (o : MEntry), o ∈ List.takeWhile (fun o_1 => o_1.id != 4) (foreignTile.coreAt 0).mq → ∀ (oc : TCmd), tcmd o.instr = some oc → o.st = MState.running → oc.t ≠ cmd.t ∧ (cmd.kind.accesses && oc.kind.accesses) = false) ∧
    (foreignTile.tileRanges 0 cmd mrun ≠ SLoc.absent) ∧
    (unclaimed (foreignTile.coreAt 0) (foreignTile.coreGrp 0) cmd = false) := by decide +kernel



end Sys2Proof.Tests.Matrices
end

