-- ==== Sys2Proof/Tests/Frame.lean ====
section
/-! SUPPORT. States that meet the hypotheses of the frames, of the step and of the statements about every instruction. -/

namespace Sys2Proof.Tests.Frames
open Sys2Proof Sys2Proof.Machine Sys2Proof.Claims
set_option Elab.async false

/-- The state after an instruction. -/
def after1 (i : Instr) (s : State) : State := match exec i s with
  | .next u => u
  | _ => s
/-- Whether an instruction answers a next state. -/
def goes (i : Instr) (s : State) : Bool := match exec i s with
  | .next _ => true
  | _ => false
theorem exec_after {i : Instr} {s : State} (h : goes i s = true) : exec i s = .next (after1 i s) := by
  unfold goes at h; unfold after1; split at h
  · rename_i hx; rw [hx]
  · cases h
/-- The same for a step. -/
def step1 (s : State) : State := match step s with
  | .next u => u
  | _ => s
def steps (s : State) : Bool := match step s with
  | .next _ => true
  | _ => false
theorem step_after {s : State} (h : steps s = true) : step s = .next (step1 s) := by
  unfold steps at h; unfold step1; split at h
  · rename_i hx; rw [hx]
  · cases h

theorem meets_RegisterInstructionsKeepTheRest_scalar :
    let i : Instr := .add bare 2 0 1
    let s : State := withX 1 2
    exec i s = .next (after1 i s) ∧ s.me.ending = false ∧ scalarValue i s.me = some (2, { v := 3 }) := ⟨exec_after (by decide +kernel), by decide +kernel⟩

theorem meets_RegisterInstructionsKeepTheRest_predicate :
    let i : Instr := .cmp bare 2 1 0 1
    let s : State := withX 1 2
    exec i s = .next (after1 i s) ∧ s.me.ending = false ∧ predicateValue i s.me = some (1, { v := true }) := ⟨exec_after (by decide +kernel), by decide +kernel⟩

/-- An access to the last doubleword of a core's scratchpad share. -/
def top (store : Bool) (reg : BitVec 6) : Access := { store := store, reg := reg, addr := 16376, poison := false, bytes := 8 }

theorem meets_LoadsAndStoresKeepTheRest_load :
    let i : Instr := .ldSOneWord bare 2 0 0
    let s : State := withX 16376 7
    let a : Access := top false 2
    exec i s = .next (after1 i s) ∧ s.me.ending = false ∧ s.issues i 1 = true ∧ accessS i s.me = some a ∧ a.poison = false ∧ a.addr % a.bytes = 0 ∧
    s.sLoc s.core s.grp a.addr a.bytes = .ok (addrs 16376 8) := ⟨exec_after (by decide +kernel), by decide +kernel⟩

theorem meets_LoadsAndStoresKeepTheRest_store :
    let i : Instr := .stSOneWord bare 1 0 0
    let s : State := withX 16376 7
    let a : Access := top true 1
    exec i s = .next (after1 i s) ∧ s.me.ending = false ∧ s.issues i 1 = true ∧ accessS i s.me = some a ∧ a.poison = false ∧ a.addr % a.bytes = 0 ∧
    s.sLoc s.core s.grp a.addr a.bytes = .ok (addrs 16376 8) := ⟨exec_after (by decide +kernel), by decide +kernel⟩

theorem meets_LoadsAndStoresKeepTheRest_storeH :
    let i : Instr := .stHTwoWord bare 1 0 0 3 60 0 0
    let s : State := mapped (withX 8 1)
    let a : Access := { store := true, reg := 1, addr := 8, poison := false, bytes := 8 }
    exec i s = .next (after1 i s) ∧ s.me.ending = false ∧ s.issues i 1 = true ∧ accessH i s.me = some a ∧ a.store = true ∧ a.poison = false ∧
    (s.me.rd a.reg).poison = false ∧ a.addr % a.bytes = 0 ∧ s.hPhys s.myCtx a.addr .wr = some (2 ^ 29 + 8) ∧
    s.groups.find? s.grp = some { ctx := 1, launch := 1, st := .running, cores := [0] } ∧
    (s.acceptBytes s.grp false (place (addrs (2 ^ 29 + 8) a.bytes) (lowBytes a.bytes (s.me.rd a.reg).v))).isSome = true :=
  ⟨exec_after (by decide +kernel), by decide +kernel⟩

/-- A vector addition of two registers, with every element active. -/
def vs : State := withCore (fun c => { c with vq := [vadd] })
theorem meets_VectorElementsAreIndependent :
    let e : VEntry := vadd
    ((vectorElement e (VCtx.of vs 0 e)).map (fun r => r.1)) = some 0 := by decide +kernel

/-- A reduction. -/
theorem meets_VectorWholeResults :
    let e : VEntry := { vadd with instr := .vredSum bare 0 1 }
    let x := VCtx.of vs 0 e
    legalEt x.cfg.et = true ∧ ((vectorWhole e x).map (fun r => r.1)) = some 0 := by decide +kernel

theorem meets_GuardedInstructionPerformsNothing_oneWord :
    let i : Instr := .add { bare with g := 1 } 2 0 1
    let s : State := withMe { life := .running, sg := 0, loops := [{}] }
    (∃ w, encode i = .one w) ∧ s.me.micro.stage = 0 ∧ s.me.behind = false ∧ guardOpen i s.me = false ∧
    ((instrPre i).sy = false ∨ s.me.inHandler = true ∨ s.me.released = true) := ⟨⟨_, rfl⟩, by decide +kernel⟩

theorem meets_GuardedInstructionPerformsNothing_twoWords :
    let i : Instr := .div { bare with g := 3, sy := true } 2 0 1
    let s : State := withMe { life := .running, released := true, sg := 0, loops := [{}] }
    (∃ w x, encode i = .two w x) ∧ s.me.micro.stage = 0 ∧ s.me.behind = false ∧ guardOpen i s.me = false ∧
    ((instrPre i).sy = false ∨ s.me.inHandler = true ∨ s.me.released = true) := ⟨⟨_, _, rfl⟩, by decide +kernel⟩

theorem meets_BinvEmptiesItsRegister_word :
    Pre.ok bare = true ∧ BitVec.extractLsb' 18 7 0x00108001#32 = 4#7 ∧ BitVec.extractLsb' 0 15 0x00108001#32 ≠ 0#15 := by decide

theorem meets_BinvEmptiesItsRegister_runs :
    let i : Instr := .binv bare 2
    let s : State := target true .preparing
    s.issues i 1 = true ∧ s.hasRoom i (s.granted i 1) = true := by decide +kernel

theorem meets_BinvEmptiesItsRegister_transfer :
    let i : Instr := .jmp bare 2 1 0
    let s : State := target true .empty
    transferOf i = some (2, 1, 0, false) ∧ s.issues i 1 = true ∧ (s.me.rdP 1).poison = false ∧ holds s.me 1 0 = true ∧
    s.me.loops = [] ∧ (s.me.btr 2).st = .empty := by decide +kernel

/-! The step. -/

/-- A one-word instruction, an unassigned word, and a sequencer word, each where the next step takes it. -/
def fetches (w : Nat) : State := State.reset.withFetchWord 32 w
/-- The strand in another state, with the next turn its own. -/
def turns (f : Strand → Strand) : State := (fetches 0x002C0000).setStrand 0 0 (f ((fetches 0x002C0000).strandAt 0 0))

theorem meets_StepRunsTheDecodedInstruction_bytes :
    let s : State := fetches 0x002C0000
    let u : State := s.turn
    s.nextTurn.1.mover = .strand 0 0 ∧ u.pkg.st ≠ .failed ∧ (u.myGroup.map (fun g => g.1)) = some 1 ∧
    (u.myGroup.any (fun g => g.2.contain = none ∧ g.2.st = .running)) = true ∧ u.me.watchHit = false ∧ u.me.stops = false ∧ u.me.life = .running ∧
    u.copyFaultOwed = false ∧ u.breakpointHere = false ∧
    u.me.micro.instr = none ∧ ((u.iLeaf 1 u.me.pc.toNat (fun l => l.ex)).any (fun l =>
      let pa := l.1.pa + u.me.pc.toNat % l.1.size
      l.1.ex = true ∧ u.dataMarked 1 l.2 pa = false ∧ u.bytesAt l.2 (addrs pa 4) = bytes32 0x002C0000)) = true ∧
    isTwoWord 0x002C0000 = false ∧
    decodeWords 0x002C0000 none = .ok (.nop bare) := by decide +kernel

theorem meets_StepRunsTheDecodedInstruction_word :
    let u : State := (fetches 0x002C0000).turn
    u.me.life = .running ∧ u.copyFaultOwed = false ∧ u.breakpointHere = false ∧ u.me.micro.instr = none ∧
    u.fetchMine = .instr (.nop bare) := by decide +kernel

theorem meets_StepRunsTheDecodedInstruction_illegal :
    let u : State := (fetches 0x01FC0000).turn
    u.me.life = .running ∧ u.copyFaultOwed = false ∧ u.breakpointHere = false ∧ u.fetchMine = .illegal 0x01FC0000 ∧
    isExtWord 0x01FC0000 = false := by decide +kernel

theorem meets_GuardsDoNotHideIllegalWords : (fetches 0x01FC0000).turn.fetchMine = .illegal 0x01FC0000 := by decide +kernel

theorem meets_ZeroOpcodesAreIllegal_zero :
    let s : State := (fetches 0).turn
    s.fetchWord s.myCtx s.me.pc.toNat = .ok 0 ∧ s.fetchMine = .illegal 0 := ⟨ok_of_toOption (by decide +kernel), by decide +kernel⟩

theorem meets_ZeroOpcodesAreIllegal_opcode :
    let s : State := (fetches 0x8603FFFF).turn
    BitVec.extractLsb' 18 7 0x8603FFFF#32 = 0#7 ∧ s.fetchWord s.myCtx s.me.pc.toNat = .ok 0x8603FFFF ∧
    s.fetchMine = .illegal 0x8603FFFF := ⟨by decide, ok_of_toOption (by decide +kernel), by decide +kernel⟩

theorem meets_StepRunsTheDecodedInstruction_fetchFault :
    let u : State := (turns (fun t => { t with pc := 0x10000000000 })).turn
    u.me.life = .running ∧ u.copyFaultOwed = false ∧ u.breakpointHere = false ∧
    (match u.fetchMine with | .fault _ _ => true | _ => false) = true := by decide +kernel

theorem meets_StepRunsTheDecodedInstruction_issued :
    let s : State := turns (fun t => { t with micro := { stage := 1, instr := some (.nop bare) } })
    let u : State := s.turn
    s.nextTurn.1.mover = .strand 0 0 ∧ u.pkg.st ≠ .failed ∧ u.me.life = .running ∧ u.copyFaultOwed = false ∧ u.breakpointHere = false ∧
    u.me.micro.instr = some (.nop bare) := by decide +kernel

theorem meets_StepRunsTheDecodedInstruction_ahead :
    let s : State := { fetches 0x002C0000 with schedule := [{ mover := .ahead 0 0 }, { mover := .behind 0 0 }] }
    s.nextTurn.1.mover = .ahead 0 0 ∧ ({ s with schedule := s.nextTurn.2 } : State).nextTurn.1.mover = .behind 0 0 := by decide +kernel

theorem meets_StepRunsTheDecodedInstruction_waiting :
    let u : State := (turns (fun t => { t with life := .waiting })).turn
    u.me.life = .waiting ∧ u.me.stops = false ∧ u.copyFaultOwed = false ∧ u.me.watchHit = false ∧ (u.myGroup.map (fun g => g.1)) = some 1 := by decide +kernel

theorem meets_StepRunsTheDecodedInstruction_stops :
    let s : State := turns (fun t => { t with stopSoon := true })
    s.nextTurn.1.mover = .strand 0 0 ∧ s.turn.me.micro.stage = 0 ∧ s.turn.me.stops = true ∧ s.turn.me.life ≠ .halted := by
  decide +kernel

/-- The clock in which the turn comes, and a turn that changes what the package does. -/
def came (s : State) : State :=
  let m := s.nextTurn.1.mover
  let v := (({ s with schedule := s.nextTurn.2 } : State).advance s.nextTurn.1.clocks).focus m
  if v.slips m then (v.advance 1).focus m else v
theorem meets_StepRunsTheDecodedInstruction_strandTurn :
    let s : State := fetches 0x002C0000
    ∀ e ∈ (came s).claims s.nextTurn.1.mover, e.1 ≠ .package := by decide +kernel
theorem meets_StepRunsTheDecodedInstruction_packageTurn :
    let s : State := { State.reset with schedule := [{ mover := .event (.pkgCtlReset .host) }] }
    ∃ e ∈ (came s).claims s.nextTurn.1.mover, e.1 = .package := by decide +kernel

theorem meets_StepRunsTheDecodedInstruction_done :
    let u : State := (turns (fun t => { t with life := .done })).turn
    u.me.life = .done ∧ u.me.watchHit = false ∧ (u.myGroup.map (fun g => g.1)) = some 1 := by decide +kernel

theorem meets_StepRunsTheDecodedInstruction_sequencer :
    let s : State := State.reset.withFetchWord 64 0x0400000000000000
    let u : State := s.turn
    s.nextTurn.1.mover = .sequencer 0 ∧ u.pkg.st ≠ .failed ∧ (u.portAt 0).seq.st = .running ∧ (u.portAt 0).seq.word = some 0x0400000000000000 ∧
    decodeSq 0x0400000000000000 = .ok .sqNop := by decide +kernel

theorem meets_StepRunsTheDecodedInstruction_event :
    let s : State := { State.reset with schedule := [{ mover := .event .powerGood }] }
    s.nextTurn.1.mover = .event .powerGood ∧ encode .powerGood = .event ∧ Instr.wf .powerGood = true ∧ s.turn.pkg.st ≠ .failed := by
  decide +kernel

theorem meets_StepRunsTheDecodedInstruction_failed :
    let s : State := { State.reset with schedule := [{ mover := .strand 0 0 }], pkg := { st := .failed } }
    s.nextTurn.1.mover = .strand 0 0 ∧ s.turn.pkg.st = .failed := by decide +kernel

theorem meets_EveryStepKeepsTheMemoryCanonical :
    let s : State := fetches 0x002C0000
    s.canonical = true ∧ step s = .next (step1 s) := ⟨by decide +kernel, step_after (by decide +kernel)⟩

theorem meets_DecodingReadsBackEveryEncoding_oneWord : Instr.wf (.add bare 2 0 1) = true ∧ encode (.add bare 2 0 1) = .one 0x00402001 := by
  decide
theorem meets_DecodingReadsBackEveryEncoding_twoWords :
    Instr.wf (.bfxS bare 1 2 8 3) = true ∧ encode (.bfxS bare 1 2 8 3) = .two 0x00BC1080 0xF1488600 := by decide
theorem meets_DecodingReadsBackEveryEncoding_sequencer : Instr.wf .sqNop = true ∧ encode .sqNop = .sq 0x0400000000000000 := by decide
theorem meets_DecodingReadsBackEveryEncoding_word : decodeWords 0x00BC1080 (some 0xF1488600) = .ok (.bfxS bare 1 2 8 3) := by decide

end Sys2Proof.Tests.Frames
end

