-- ==== Sys2Proof/Tests/Frond.lean ====
section
/-! SUPPORT. States that meet the hypotheses of the statements about fronds and placement. -/

namespace Sys2Proof.Tests.Fronds
open Sys2Proof Sys2Proof.Machine Sys2Proof.Claims
set_option Elab.async false

def it (n : Nat) : List Word := BitVec.ofNat 64 n :: List.replicate 7 9
def fr (f : Frond → Frond := id) : Frond := f { gsize := 1, rbal := 1, fixed := false, nitems := 9, placed := 2, die := some 0, pinnae := [{ kidx := 0, inq := 0, ginit := 1, gmin := 0, gmax := 4, kdesc := { pieces := 1 } }, { kidx := 0, inq := 1, ginit := 1, gmin := 0, gmax := 4 }], queues := [{ depth := 4, high := 2, low := 1, prod := 15, cons := 0, items := [(0, it 0)] }, { depth := 4, high := 0, low := 4, prod := 0, cons := 1 }] }
def fg (p : PinnaSlot := { pinna := 0, number := 0 }) : Group := { group1 with pinna := some p }
def wF (t : Strand) (f : Frond → Frond := id) (p : PinnaSlot := { pinna := 0, number := 0 }) : State :=
  { (withGroup (fg p)).setMe t with launches := [(1, { queue := 0, ctx := 1, st := .running, frond := some (fr f), words := [0,0,0,0,4,5,6,7] })], pkg := { st := .serving, clocks := 5, ns := 20000 } }
def X (a b : Word) : Strand := { life := .running, x := [(0, { v := a }), (1, { v := b })] }
def pop1 (s : State) (i : Instr) := (s.granted i 1).queueCheck (s.me.rd 0).v .input
def q0 := (fr).queues.headD { depth := 0, high := 0, low := 0, prod := 0, cons := 0 }
def q1 := (fr).queues.getD 1 { depth := 0, high := 0, low := 0, prod := 0, cons := 0 }
def nopart : State := withMe (X 0 0)
def drain (f : Frond) : Frond := f.setQueue 0 { q0 with fin := some 0, items := [] }
def dq := { q0 with fin := some 0, items := [] }
def empty (f : Frond) : Frond := f.setQueue 0 { q0 with items := [] }
def eq0 := { q0 with items := [] }
def mkd : PinnaSlot := { pinna := 0, number := 0, mark := some 1 }
def dirty (s : State) : State := s.modGroup 1 (fun g => { g with ver := { h := [], p := [(2^48 * 5 + 64, 9)] } })
def closed (f : Frond) : Frond := f.setQueue 1 { q1 with fin := some 3 }
def cq1 := { q1 with fin := some 3 }
-- events
def Lx (f : Frond) : Launch := { queue := 0, ctx := 1, st := .running, frond := some f, words := [0,0,0,0,4,5,6,7] }
def noq (f : Frond) : Frond := f.setQueue 0 { q0 with items := [] }
def last (f : Frond) : Frond := { f with lastFrame := 2 }
def fixd (f : Frond) : Frond := { f with fixed := true }
-- rebalance: queue 0 (cons pinna 0) is over, group 1 waits at pinna 1
def overFull (f : Frond) : Frond := { f.setQueue 0 { q0 with items := [(0, it 0), (1, it 1), (2, it 2)] } with }
def waitP : Strand := { X 0 0 with life := .waiting, wait := .rachis }
def rb : State := wF waitP overFull { pinna := 1, number := 4 }
def rbb : State := wF (X 0 0) overFull { pinna := 1, number := 4 }
def mvP : PinnaSlot := { pinna := 1, number := 4, mark := some 0, moving := true }
def mv : State := (wF { life := .done } overFull mvP).modGroup 1 (fun g => { g with st := .exiting, finalBound := some 9 })
def mvg : Group := { fg mvP with st := .exiting, finalBound := some 9 }
def rec0 := (fr).pinnae.headD { kidx := 0, inq := 0, ginit := 1, gmin := 0, gmax := 4 }

theorem meets_FrondInstructions_pp1 :
    let x : Reg := nopart.me.rd 0
    let pop : Instr := Instr.qpop bare 1 0
    let g : State := nopart.granted pop 1
    (nopart.issues pop 1 = true) ∧
    (x.poison = false) ∧
    (g.queueCheck x.v QEnd.input = none) := by decide +kernel

theorem meets_FrondInstructions_pt1 :
    let x : Reg := nopart.me.rd 0
    let try' : Instr := Instr.qtry bare 1 0
    let g : State := nopart.granted try' 1
    (nopart.issues try' 1 = true) ∧
    (x.poison = false) ∧
    (g.queueCheck x.v QEnd.input = none) := by decide +kernel

theorem meets_FrondInstructions_pp2 :
    let s : State := wF (X 0 0) drain
    let x : Reg := s.me.rd 0
    let result : Word → State → State := fun v u => u.modMe fun t => t.result 1 { v := v }
    let pop : Instr := Instr.qpop bare 1 0
    let g : State := s.granted pop 1
    (s.issues pop 1 = true) ∧
    (x.poison = false) ∧
    (g.queueCheck x.v QEnd.input = some (1, 0, dq, 0)) ∧
    (g.marked = false) ∧
    (dq.drained = true) ∧
    (s.hasRoom pop (result (BitVec.allOnes 64) g) = true) := by decide +kernel

theorem meets_FrondInstructions_pp3 :
    let s : State := wF (X 64 0)
    let x : Reg := s.me.rd 0
    let result : Word → State → State := fun v u_1 => u_1.modMe fun t => t.result 1 { v := v }
    let pop : Instr := Instr.qpop bare 1 0
    let g : State := s.granted pop 1
    let item : List Word := it 0
    let as : List Nat := addrs 64 64
    let u : State := ((g.modFrond 1 fun f => f.setQueue 0 (q0.take s.pkg.clocks)).sWrite s.core as (wordsBytes item) (Tbl.get false q0.spoilt q0.head)).beginPhase.modGroup s.grp fun y => { y with pinna := Option.map (fun p => { p with taken := some q0.head }) y.pinna }
    (s.issues pop 1 = true) ∧
    (x.poison = false) ∧
    (g.queueCheck x.v QEnd.input = some (1, 0, q0, 64)) ∧
    (g.marked = false) ∧
    (q0.drained = false) ∧
    (q0.served s.pkg.clocks = some item) ∧
    (g.sLoc s.core s.grp (↑64) 64 = SLoc.ok as) ∧
    (s.hasRoom pop (result (BitVec.ofNat 64 q0.head) u) = true) := by decide +kernel

theorem meets_FrondInstructions_pt4 :
    let s : State := wF (X 64 0) empty
    let x : Reg := s.me.rd 0
    let result : Word → State → State := fun v u => u.modMe fun t => t.result 1 { v := v }
    let try' : Instr := Instr.qtry bare 1 0
    let g : State := s.granted try' 1
    (s.issues try' 1 = true) ∧
    (x.poison = false) ∧
    (g.queueCheck x.v QEnd.input = some (1, 0, eq0, 64)) ∧
    (g.marked = false) ∧
    (eq0.drained = false) ∧
    (eq0.served s.pkg.clocks = none) ∧
    (try' = try') ∧
    (s.hasRoom try' (result (BitVec.allOnes 64 - 1#64) g) = true) := by decide +kernel

theorem meets_FrondInstructions_pp5 :
    let s : State := wF (X 64 0) empty
    let x : Reg := s.me.rd 0
    let pop : Instr := Instr.qpop bare 1 0
    let g : State := s.granted pop 1
    (s.issues pop 1 = true) ∧
    (x.poison = false) ∧
    (g.queueCheck x.v QEnd.input = some (1, 0, eq0, 64)) ∧
    (g.marked = false) ∧
    (eq0.drained = false) ∧
    (eq0.served s.pkg.clocks = none) ∧
    (pop = pop) := by decide +kernel

theorem meets_FrondInstructions_ppm :
    let s : State := wF (X 64 0) id mkd
    let x : Reg := s.me.rd 0
    let pop : Instr := Instr.qpop bare 1 0
    let g : State := s.granted pop 1
    let y : Group := fg mkd
    (s.issues pop 1 = true) ∧
    (x.poison = false) ∧
    (g.queueCheck x.v QEnd.input = some (1, 0, q0, 64)) ∧
    (g.marked = true) ∧
    (g.groups.find? g.grp = some y) := by decide +kernel

theorem meets_FrondInstructions_ptm :
    let s : State := wF (X 64 0) id mkd
    let x : Reg := s.me.rd 0
    let try' : Instr := Instr.qtry bare 1 0
    let g : State := s.granted try' 1
    (s.issues try' 1 = true) ∧
    (x.poison = false) ∧
    (g.queueCheck x.v QEnd.input = some (1, 0, q0, 64)) ∧
    (g.marked = true) := by decide +kernel

theorem meets_FrondInstructions_qu1 :
    let s : State := wF (X 65 4294967296)
    let x : Reg := s.me.rd 0
    let i : Instr := Instr.qpush bare 1 0
    let n : Nat := BitVec.toNat (s.me.rd 1).v
    (s.issues i 1 = true) ∧
    (x.poison = false) ∧
    ((s.me.rd 1#6).poison = false) ∧
    ((s.granted i 1).queueCheck x.v QEnd.output = some (1, 1, q1, 64)) ∧
    (2 ^ 32 ≤ n ∨ n < q1.head ∨ q1.full n = true ∨ ∃ e, q1.fin = some e ∧ e ≤ n) := by decide +kernel

theorem meets_FrondInstructions_qu2 :
    let s : State := wF (X 65 3)
    let x : Reg := s.me.rd 0
    let i : Instr := Instr.qpush bare 1 0
    let n : Nat := BitVec.toNat (s.me.rd 1).v
    let as : List Nat := addrs 64 64
    (s.issues i 1 = true) ∧
    (x.poison = false) ∧
    ((s.me.rd 1#6).poison = false) ∧
    ((s.granted i 1).queueCheck x.v QEnd.output = some (1, 1, q1, 64)) ∧
    (n < 2 ^ 32) ∧
    (q1.head ≤ n) ∧
    (q1.full n = false) ∧
    (∀ (e : Nat), q1.fin = some e → n < e) ∧
    ((s.granted i 1).sLoc s.core s.grp (↑64) 64 = SLoc.ok as) ∧
    (((s.granted i 1).sRead s.core as).snd.fst = false) := by decide +kernel

theorem meets_FrondInstructions_qu4 :
    let s : State := dirty (wF (X 65 4))
    let x : Reg := s.me.rd 0
    let i : Instr := Instr.qpush bare 1 0
    let n : Nat := BitVec.toNat (s.me.rd 1).v
    let as : List Nat := addrs 64 64
    (s.issues i 1 = true) ∧
    (x.poison = false) ∧
    ((s.me.rd 1#6).poison = false) ∧
    ((s.granted i 1).queueCheck x.v QEnd.output = some (1, 1, q1, 64)) ∧
    (n < 2 ^ 32) ∧
    (q1.head ≤ n) ∧
    (q1.full n = false) ∧
    (∀ (e : Nat), q1.fin = some e → n < e) ∧
    ((s.granted i 1).sLoc s.core s.grp (↑64) 64 = SLoc.ok as) ∧
    (((s.granted i 1).sRead s.core as).snd.fst = false) := by decide +kernel

theorem meets_FrondInstructions_qu5 :
    let s : State := wF { X 65 3 with micro := { stage := 1, id := 3 } }
    let x : Reg := s.me.rd 0
    let i : Instr := Instr.qpush bare 1 0
    let n : Nat := BitVec.toNat (s.me.rd 1).v
    let as : List Nat := addrs 64 64
    (s.me.micro.stage = 1 ∧ s.boundaryDone s.grp s.me.micro.id = true ∨ s.me.micro.stage = 2) ∧
    (x.poison = false) ∧
    ((s.me.rd 1#6).poison = false) ∧
    (s.queueCheck x.v QEnd.output = some (1, 1, q1, 64)) ∧
    (((s.frondOf 1).bind fun f => f.queue 1) = some q1) ∧
    (s.sLoc s.core s.grp (↑64) 64 = SLoc.ok as) ∧
    ((s.sRead s.core as).snd.fst = false) ∧
    (n < q1.head + q1.depth) ∧
    (q1.head ≤ n) ∧
    (q1.full n = false) ∧
    (s.hasRoom i ((s.sRead s.core as).snd.snd.modFrond 1 fun f => f.setQueue 1 (q1.enter n (bytesWords 8 (s.sRead s.core as).fst) s.pkg.clocks)) = true) := by decide +kernel

theorem meets_FrondInstructions_qu6 :
    let s : State := wF { X 65 4 with micro := { stage := 2 } }
    let x : Reg := s.me.rd 0
    let n : Nat := BitVec.toNat (s.me.rd 1).v
    let as : List Nat := addrs 64 64
    (s.me.micro.stage = 1 ∧ s.boundaryDone s.grp s.me.micro.id = true ∨ s.me.micro.stage = 2) ∧
    (x.poison = false) ∧
    ((s.me.rd 1#6).poison = false) ∧
    (s.queueCheck x.v QEnd.output = some (1, 1, q1, 64)) ∧
    (((s.frondOf 1).bind fun f => f.queue 1) = some q1) ∧
    (s.sLoc s.core s.grp (↑64) 64 = SLoc.ok as) ∧
    ((s.sRead s.core as).snd.fst = false) ∧
    (q1.head + q1.depth ≤ n) := by decide +kernel

theorem meets_FrondInstructions_qc1 :
    let s : State := wF (X 1 4294967297)
    let x : Reg := s.me.rd 0
    let i : Instr := Instr.qclose bare 1 0
    let e : Nat := BitVec.toNat (s.me.rd 1).v
    (s.issues i 1 = true) ∧
    (x.poison = false) ∧
    ((s.me.rd 1#6).poison = false) ∧
    ((s.granted i 1).queueCheck x.v QEnd.output = some (1, 1, q1, 0)) ∧
    (2 ^ 32 < e ∨ e < q1.head ∨ (∃ k, k ∈ q1.items ∧ e ≤ k.fst) ∨ ∃ v, q1.fin = some v ∧ v ≠ e) := by decide +kernel

theorem meets_FrondInstructions_qc2 :
    let s : State := wF (X 1 4294967296)
    let x : Reg := s.me.rd 0
    let i : Instr := Instr.qclose bare 1 0
    let e : Nat := BitVec.toNat (s.me.rd 1).v
    (s.issues i 1 = true) ∧
    (x.poison = false) ∧
    ((s.me.rd 1#6).poison = false) ∧
    ((s.granted i 1).queueCheck x.v QEnd.output = some (1, 1, q1, 0)) ∧
    (e ≤ 2 ^ 32) ∧
    (q1.head ≤ e) ∧
    (∀ (k : Nat × List Word), k ∈ q1.items → k.fst < e) ∧
    (q1.fin = none) ∧
    (s.hasRoom i ((s.granted i 1).modFrond 1 fun f => f.setQueue 1 { q1 with fin := some e }) = true) := by decide +kernel

theorem meets_FrondInstructions_qc3 :
    let s : State := wF (X 1 3) closed
    let x : Reg := s.me.rd 0
    let i : Instr := Instr.qclose bare 1 0
    let e : Nat := BitVec.toNat (s.me.rd 1).v
    (s.issues i 1 = true) ∧
    (x.poison = false) ∧
    ((s.me.rd 1#6).poison = false) ∧
    ((s.granted i 1).queueCheck x.v QEnd.output = some (1, 1, cq1, 0)) ∧
    (e ≤ 2 ^ 32) ∧
    (cq1.head ≤ e) ∧
    (∀ (k : Nat × List Word), k ∈ cq1.items → k.fst < e) ∧
    (cq1.fin = some e) ∧
    (s.hasRoom i (s.granted i 1) = true) := by decide +kernel

theorem meets_FrondInstructions_pi1 :
    let i : Instr := Instr.pid bare 1 0
    (nopart.issues i 1 = true) ∧
    ((nopart.granted i 1).myFrond = none) := by decide +kernel

theorem meets_FrondInstructions_pi2 :
    let s : State := wF (X 1 3)
    let result : Word → State → State := fun v_1 u => u.modMe fun t => t.result 1 { v := v_1 }
    let i : Instr := Instr.pid bare 1 2
    let p : PinnaSlot := { pinna := 0, number := 0 }
    let v : Word := (match 2 with
      | 0 => BitVec.ofNat 64 p.pinna
      | 1 => BitVec.ofNat 64 (s.pinnaGroups 1 p.pinna).length
      | 2 => ((List.find? (fun r => r.cons == p.pinna) fr.queues).bind fun r => r.fin).elim (BitVec.allOnes 64) (BitVec.ofNat 64)
      | 3 => BitVec.ofNat 64 fr.nitems
      | _ => BitVec.ofNat 64 p.number)
    (s.issues i 1 = true) ∧
    ((s.granted i 1).myFrond = some (1, fr, p)) ∧
    (s.hasRoom i (result v (s.granted i 1)) = true) := by decide +kernel

theorem meets_FrondInstructions_pi2b :
    let s : State := wF (X 1 3)
    let result : Word → State → State := fun v_1 u => u.modMe fun t => t.result 1 { v := v_1 }
    let i : Instr := Instr.pid bare 1 1
    let p : PinnaSlot := { pinna := 0, number := 0 }
    let v : Word := (match 1 with
      | 0 => BitVec.ofNat 64 p.pinna
      | 1 => BitVec.ofNat 64 (s.pinnaGroups 1 p.pinna).length
      | 2 => ((List.find? (fun r => r.cons == p.pinna) fr.queues).bind fun r => r.fin).elim (BitVec.allOnes 64) (BitVec.ofNat 64)
      | 3 => BitVec.ofNat 64 fr.nitems
      | _ => BitVec.ofNat 64 p.number)
    (s.issues i 1 = true) ∧
    ((s.granted i 1).myFrond = some (1, fr, p)) ∧
    (s.hasRoom i (result v (s.granted i 1)) = true) := by decide +kernel

theorem meets_FrondEvents_fe1 :
    let s : State := wF (X 0 0) noq
    let x : Launch := Lx (fr noq)
    let f : Frond := fr noq
    let r : Rachis := { q0 with items := [] }
    (s.launches.find? 1 = some x) ∧
    (x.frond = some f) ∧
    (f.queue f.feedQueue = some r) ∧
    (x.st = LState.running) ∧
    (f.feedNext < f.nitems) ∧
    (f.feedNext < r.head + r.depth) ∧
    (r.full f.feedNext = false) := by decide +kernel

theorem meets_FrondEvents_fe2 :
    let s : State := wF (X 0 0) last
    let x : Launch := Lx (fr last)
    let f : Frond := fr last
    let frame : Nat := s.pkg.ns / 10000
    let rbal : Nat := if f.rbal = 0 then 1 else f.rbal
    let due : Prop := x.st = LState.running ∧ f.lastFrame / rbal < frame / rbal
    (s.launches.find? 1 = some x) ∧
    (x.frond = some f) ∧
    (¬due) := by decide +kernel

theorem meets_FrondEvents_fe3 :
    let s : State := wF (X 0 0) fixd
    let x : Launch := Lx (fr fixd)
    let f : Frond := fr fixd
    let frame : Nat := s.pkg.ns / 10000
    let rbal : Nat := if f.rbal = 0 then 1 else f.rbal
    let due : Prop := x.st = LState.running ∧ f.lastFrame / rbal < frame / rbal
    (s.launches.find? 1 = some x) ∧
    (x.frond = some f) ∧
    (due) ∧
    (f.fixed = true) := by decide +kernel

theorem meets_FrondEvents_fe4 :
    let x : Launch := Lx (fr overFull)
    let f : Frond := fr overFull
    let frame : Nat := rb.pkg.ns / 10000
    let u : State := rb.modFrond 1 fun f_1 => { f_1 with lastFrame := frame }
    let rbal : Nat := if f.rbal = 0 then 1 else f.rbal
    let due : Prop := x.st = LState.running ∧ f.lastFrame / rbal < frame / rbal
    let idle : Prop := ∀ (e : Nat × Group), e ∈ rb.groups → e.snd.launch = 1 → e.snd.st ≠ GState.retired → e.snd.st ≠ GState.ended → ∀ (p : PinnaSlot), e.snd.pinna = some p → p.mark = none ∧ p.moving = false
    let y : Group := fg { pinna := 1, number := 4 }
    (rb.launches.find? 1 = some x) ∧
    (x.frond = some f) ∧
    (due) ∧
    (f.fixed = false) ∧
    (idle) ∧
    (u.rebalancePair 1 f = some (0, 1)) ∧
    ((1, y) ∈ u.pinnaGroups 1 1) ∧
    (u.leadWaits y = true) ∧
    (∀ (e : Nat × Group), e ∈ u.pinnaGroups 1 1 → u.leadWaits e.snd = true → y.number ≤ e.snd.number) ∧
    (∀ (e : Nat × Group), e ∈ u.pinnaGroups 1 1 → e.snd.number = y.number → e = (1, y)) := by decide +kernel

theorem meets_FrondEvents_fe4b :
    let x : Launch := Lx (fr overFull)
    let f : Frond := fr overFull
    let frame : Nat := rbb.pkg.ns / 10000
    let u : State := rbb.modFrond 1 fun f_1 => { f_1 with lastFrame := frame }
    let rbal : Nat := if f.rbal = 0 then 1 else f.rbal
    let due : Prop := x.st = LState.running ∧ f.lastFrame / rbal < frame / rbal
    let idle : Prop := ∀ (e : Nat × Group), e ∈ rbb.groups → e.snd.launch = 1 → e.snd.st ≠ GState.retired → e.snd.st ≠ GState.ended → ∀ (p : PinnaSlot), e.snd.pinna = some p → p.mark = none ∧ p.moving = false
    let y : Group := fg { pinna := 1, number := 4 }
    (rbb.launches.find? 1 = some x) ∧
    (x.frond = some f) ∧
    (due) ∧
    (f.fixed = false) ∧
    (idle) ∧
    (u.rebalancePair 1 f = some (0, 1)) ∧
    ((1, y) ∈ u.pinnaGroups 1 1) ∧
    (∀ (e : Nat × Group), e ∈ u.pinnaGroups 1 1 → u.leadWaits e.snd = false) ∧
    (∀ (e : Nat × Group), e ∈ u.pinnaGroups 1 1 → e.snd.number ≤ y.number) ∧
    (∀ (e : Nat × Group), e ∈ u.pinnaGroups 1 1 → e.snd.number = y.number → e = (1, y)) := by decide +kernel

theorem meets_FrondEvents_fe4c :
    let x : Launch := Lx (fr overFull)
    let f : Frond := fr overFull
    (rbb.launches.find? 1 = some x) ∧
    (x.frond = some f) := by decide +kernel

theorem meets_FrondEvents_fe5 :
    let x : Launch := Lx (fr overFull)
    let f : Frond := fr overFull
    (mv.launches.find? 1 = some x) ∧
    (x.frond = some f) ∧
    (mv.groups.find? 1 = some mvg) ∧
    (mvg.launch = 1) ∧
    (mvg.pinna = some mvP) ∧
    (mvP.mark = some 0) ∧
    (f.pinnae[0]? = some rec0) ∧
    (mvP.moving = true) ∧
    (mv.finished mvg 1 = true) ∧
    (mvg.cores.Nodup) ∧
    (∀ (c : Nat), c ∈ mvg.cores → rec0.kdesc.pieces ≤ (mv.coreAt c).freePieces.length + (List.filter (fun e => e.snd.grp == 1) (mv.coreAt c).pieces).length) := by decide +kernel



end Sys2Proof.Tests.Fronds

namespace Sys2Proof.Tests.Placings
open Sys2Proof Sys2Proof.Machine Sys2Proof.Claims
set_option Elab.async false

def lau : Launch := { queue := 0, ctx := 1, st := .running, ntasks := 4, next := 2, words := [0,0,0x500000000,0,4,5,6,7], kdesc := { gsize := 2, pieces := 0 } }
def pl : State := { base with contexts := [(1, { st := .running, desc := [(2, 64)], deficit := 5 })], launches := [(1, lau)] }
def fro : Frond := { gsize := 2, rbal := 1, fixed := false, nitems := 9, pinnae := [{ kidx := 0, inq := 0, ginit := 2, gmin := 0, gmax := 4 }, { kidx := 0, inq := 1, ginit := 2, gmin := 0, gmax := 4 }], queues := [{ depth := 4, high := 2, low := 1, prod := 15, cons := 0 }] }
def lauF (n : Nat) : Launch := { lau with next := n, frond := some { fro with die := if n = 0 then none else some 0 } }
def plF (n : Nat) : State := { pl with launches := [(1, lauF n)] }
def ld : Group := { group1 with st := .loading }
def ldS : State := { withGroup ld with launches := [(1, lau)] }
def lau5 : Launch := { lau with words := [5,0,0x500000000,0,4,5,6,7] }
def ldR : State := { mapped (withGroup ld) with launches := [(1, lau5)] }
def okWords (r : BlockRead) : List Word × State := match r with | .ok ws v => (ws, v) | _ => ([], base)
def ldRu : State := ld.cores.foldl (fun u c => u.startCore c ld) (ldR.modGroup 1 (fun y =>
        { y with st := .running, barriers := [(0, { part := 8 * y.size, arrive := 8 * y.size, used := true })] }))
def ldv : Group := { ld with saved := some [{}] }
def ldvS : State := ((withGroup ldv).setMe { life := .saved, pc := 36, loops := [{ remain := 3, susp := true }] }).modPort 2 (fun p => { p with seq := { p.seq with st := .paused, grp := some 1 } })
def ex : Group := { group1 with st := .exiting, ver := { h := [(2^29, 5)] } }
def exS : State := { withGroup ex with launches := [(1, lau)] }
def ef : Group := { group1 with st := .exiting, finalBound := some 7 }
def efS : State := { withGroup ef with launches := [(1, lau)] }
def bd : Boundary := { id := 7, hunits := [{ addr := 2^29, bytes := [(2^29, 5)] }, { addr := 2^29 + 8, bytes := [(2^29 + 8, 6)] }] }
def eb : Group := { group1 with ver := { bounds := [bd] } }
def ebf : Group := { group1 with ver := { bounds := [{ bd with fresh := true }] } }
-- preemption: every core of every die taken, a waiting group of higher priority
def bigx : Group := { group1 with prio := 3, kdesc := { imax := 5 } }
def big : State := { base with
  cores := base.cores ++ (List.range 511).map (fun k => (k + 1, { group := some 3 }))
  contexts := [(1, { st := .running, desc := [(2, 64), (6, 0x0004000000000000)] }), (2, { st := .runnable })]
  groups := [(1, bigx), (2, { ctx := 2, launch := 2, st := .saved })] }
def st1 (m : Micro) : State := ({ withGroup { group1 with kdesc := { imax := 5 } } with pkg := { st := .serving, clocks := 20 } }).setMe { life := .running, preemptAt := some 5, pc := 36, loops := [{ remain := 3 }], micro := m }
def svx : Group := { group1 with preemptAt := some 1 }
def svS : State := (withGroup svx).setMe { life := .saved }
def svxe : Group := { svx with leave := some .exits }
def svd : Group := { svx with saveDue := true, slot := some 0 }
def svdS : State := (withGroup svd).setMe { life := .saved }
def svde : Group := { svd with leave := some .exits }
def scS : State := svS.modCore 0 (fun c => { c with tiles := [(2, { st := .scanning, owner := some 1 })] })
def pcS : State := { (withGroup { group1 with kdesc := { pieces := 24 } }) with groups := [(1, group1), (3, { group1 with cores := [0], st := .saved, kdesc := { pieces := 24 }, saved := some [{}] }), (2, { group1 with cores := [0], st := .saved, kdesc := { pieces := 24 }, saved := some [{}] })], cores := [(0, { pieces := [(0, { grp := 2, idx := 0 })], spad := { bytes := [(3, 7)] } })] }
def rsx (l : Bool) : Group := { group1 with st := .saved, saved := some [{ strands := first { life := .saved }, lost := l }] }
def rsS (l : Bool) : State := { withGroup (rsx l) with cores := [], contexts := [(1, { st := .running, desc := [(2, 64)], deficit := 5 })] }
def rdx (b : Bool) : Group := { group1 with images := [(0, [(0, { bytes := [(1, 9)] })])], badImages := if b then [(0, 0)] else [], slot := some 0 }
def rdS (b : Bool) : State := (withGroup (rdx b)).modCore 0 (fun c => { c with pieces := [(0, { grp := 1, idx := 0, present := false })] })

theorem meets_GroupsArePlaced_gp :
    let u : State := (pl.serve (pl.queueAt 0).prio 1).getD pl
    let cores : List Nat := [1, 2]
    (pl.launches.find? 1 = some lau) ∧
    (pl.placeable 1 lau = true) ∧
    (pl.serve (pl.queueAt lau.queue).prio lau.ctx = some u) ∧
    (lau.frond = none) ∧
    (pl.takes cores lau.kdesc.gsize lau.kdesc.pieces lau.ctx (pl.queueAt lau.queue).prio 0 = true) := by decide +kernel

theorem meets_GroupsArePlaced_gf0 :
    let s : State := plF 0
    let u : State := (s.serve (s.queueAt 0).prio 1).getD pl
    let cores : List Nat := [1, 2]
    let x : Launch := lauF 0
    let r : PinnaRec := { kidx := 0, inq := 0, ginit := 2, gmin := 0, gmax := 4 }
    let first : Nat := (List.map (fun r_1 => r_1.ginit) (List.take 0 fro.pinnae)).sum
    let die : Nat := dieOf (cores.headD 0)
    (s.launches.find? 1 = some x) ∧
    (s.placeable 1 x = true) ∧
    (s.serve (s.queueAt x.queue).prio x.ctx = some u) ∧
    (x.frond = some fro) ∧
    (fro.pinnae[0]? = some r) ∧
    (first ≤ x.next) ∧
    (x.next < first + r.ginit) ∧
    (∀ (d : Nat), fro.die = some d → d = die) ∧
    (s.takes cores fro.gsize r.kdesc.pieces x.ctx (s.queueAt x.queue).prio 0 = true) := by
  intro s u cores x r first die
  exact ⟨by decide +kernel, by decide +kernel, by decide +kernel, by decide +kernel, by decide +kernel, by decide +kernel, by decide +kernel, (fun d hd => nomatch (show (none : Option Nat) = some d from hd)), by decide +kernel⟩

theorem meets_GroupsArePlaced_gf2 :
    let s : State := plF 2
    let u : State := (s.serve (s.queueAt 0).prio 1).getD pl
    let cores : List Nat := [1, 2]
    let x : Launch := lauF 2
    let f : Frond := { fro with die := some 0 }
    let r : PinnaRec := { kidx := 0, inq := 1, ginit := 2, gmin := 0, gmax := 4 }
    let first : Nat := (List.map (fun r_1 => r_1.ginit) (List.take 1 f.pinnae)).sum
    let die : Nat := dieOf (cores.headD 0)
    (s.launches.find? 1 = some x) ∧
    (s.placeable 1 x = true) ∧
    (s.serve (s.queueAt x.queue).prio x.ctx = some u) ∧
    (x.frond = some f) ∧
    (f.pinnae[1]? = some r) ∧
    (first ≤ x.next) ∧
    (x.next < first + r.ginit) ∧
    (∀ (d : Nat), f.die = some d → d = die) ∧
    (s.takes cores f.gsize r.kdesc.pieces x.ctx (s.queueAt x.queue).prio 0 = true) := by
  intro s u cores x f r first die
  exact ⟨by decide +kernel, by decide +kernel, by decide +kernel, by decide +kernel, by decide +kernel, by decide +kernel, by decide +kernel, (fun d hd => Option.some.inj (show some 0 = some d from hd) ▸ by decide +kernel), by decide +kernel⟩

theorem meets_GroupsAreLoaded_gl :
    (ldS.groups.find? 1 = some ld) ∧
    (ld.st = GState.loading) ∧
    (ld.contain = none) ∧
    (ld.saved = none) ∧
    (ldS.launches.find? ld.launch = some lau) ∧
    (bitsOf (lau.words.getD 0 0#64) 0 4 ≠ 5) := by decide +kernel

theorem meets_GroupsAreLoaded_gl5 :
    let u : State := List.foldl (fun u_1 c => u_1.startCore c ld) (ldR.modGroup 1 fun y => { y with st := GState.running, barriers := [(0, { part := 8 * y.size, arrive := 8 * y.size, used := true })] }) ld.cores
    let ws : List Word := (okWords (ldRu.readWords 1 1 0 0 32)).fst
    let v : State := (okWords (ldRu.readWords 1 1 0 0 32)).snd
    (ldR.groups.find? 1 = some ld) ∧
    (ld.st = GState.loading) ∧
    (ld.contain = none) ∧
    (ld.saved = none) ∧
    (ldR.launches.find? ld.launch = some lau5) ∧
    (bitsOf (lau5.words.getD 0 0#64) 0 4 = 5) ∧
    (u.readWords ld.ctx 1 0 (bitsOf (lau5.words.getD 3 0#64) 16 48) 32 = BlockRead.ok ws v) := by decide +kernel

theorem meets_GroupsAreLoaded_glv :
    let img : List CoreSave := [{ }]
    (ldvS.groups.find? 1 = some ldv) ∧
    (ldv.st = GState.loading) ∧
    (ldv.contain = none) ∧
    (ldv.saved = some img) ∧
    (ldv.cores.Nodup) := by decide +kernel

theorem meets_GroupsRetire_tr :
    (exS.groups.find? 1 = some ex) ∧
    (ex.st = GState.exiting) ∧
    (ex.finalBound = none) ∧
    (ex.contain = none) ∧
    (exS.emptied ex 1 = true) := by decide +kernel

theorem meets_GroupsRetire_gr :
    (efS.groups.find? 1 = some ef) ∧
    (ef.st = GState.exiting) ∧
    (ef.contain = none) ∧
    (ef.finalBound = some 7) ∧
    (efS.boundaryDone 1 7 = true) ∧
    (ef.pinna = none) := by decide +kernel

theorem meets_GroupsRetire_bc :
    let s : State := withGroup eb
    (s.groups.find? 1 = some eb) ∧
    (eb.ver.bounds = [bd]) ∧
    (bd.fresh = false) := by decide +kernel

theorem meets_GroupsRetire_bc1 :
    let s : State := withGroup eb
    (s.groups.find? 1 = some eb) ∧
    (eb.ver.bounds = [bd]) ∧
    (bd.fresh = false) := by decide +kernel

theorem meets_GroupsRetire_bcf :
    let s : State := withGroup ebf
    let b : Boundary := { bd with fresh := true }
    (s.groups.find? 1 = some ebf) ∧
    (ebf.ver.bounds = [b]) ∧
    (b.fresh = true) := by decide +kernel

theorem meets_GroupsArePreempted_pr :
    (big.groups.find? 1 = some bigx) ∧
    (bigx.st = GState.running) ∧
    (bigx.preemptAt = none) ∧
    (bigx.contain = none) ∧
    (bigx.leave ≠ some Leave.exits) ∧
    (big.mayPreempt 1 bigx = true) := by decide +kernel

theorem meets_GroupsArePreempted_pr2 :
    (exS.groups.find? 1 = some ex) ∧
    (ex.st ≠ GState.running) := by decide +kernel

theorem meets_GroupsArePreempted_to :
    let s : State := st1 { }
    let x : Group := { group1 with kdesc := { imax := 5 } }
    (s.groups.find? 1 = some x) ∧
    (s.groupOf 0 = some 1) ∧
    ((s.strandAt 0 0).preemptAt = some 5) ∧
    (5 + 3 * x.kdesc.imax ≤ s.pkg.clocks) ∧
    ((s.strandAt 0 0).life = Life.running) ∧
    ((s.strandAt 0 0).ending = false) := by decide +kernel

theorem meets_GroupsArePreempted_to1 :
    let s : State := st1 { stage := 1 }
    let x : Group := { group1 with kdesc := { imax := 5 } }
    (s.groups.find? 1 = some x) ∧
    (s.groupOf 0 = some 1) ∧
    ((s.strandAt 0 0).preemptAt = some 5) ∧
    (5 + 3 * x.kdesc.imax ≤ s.pkg.clocks) ∧
    ((s.strandAt 0 0).life = Life.running) ∧
    ((s.strandAt 0 0).ending = false) := by decide +kernel

theorem meets_GroupsAreSaved_sv :
    (svS.groups.find? 1 = some svx) ∧
    (svx.leaving = true) ∧
    (svx.leave ≠ some Leave.exits) ∧
    (svx.contain = none) ∧
    (svS.linkBusy 1 = false) ∧
    (∀ (c : Nat), c ∈ svx.cores → (svS.coreAt c).quiet = true) := by decide +kernel

theorem meets_GroupsAreSaved_sve :
    let s : State := (withGroup svxe).setMe { life := Life.saved }
    (s.groups.find? 1 = some svxe) ∧
    (svxe.leave = some Leave.exits ∨ svxe.contain.isSome = true ∨ svxe.leaving = false) := by decide +kernel

theorem meets_GroupsAreSaved_svg :
    (svdS.groups.find? 1 = some svd) ∧
    (svd.saveDue = true) ∧
    (svdS.saveReady 1 svd = true) := by decide +kernel

theorem meets_GroupsAreSaved_svn :
    let s : State := (withGroup svde).setMe { life := Life.saved }
    (s.groups.find? 1 = some svde) ∧
    (svde.saveDue = true) ∧
    (s.saveReady 1 svde = false) := by decide +kernel

theorem meets_GroupsAreSaved_svr :
    (svdS.groups.find? 1 = some svd) ∧
    (svd.slot = some 0) := by decide +kernel

theorem meets_GroupsAreSaved_svw :
    let a : Nat := 2 ^ 30
    (svdS.groups.find? 1 = some svd) ∧
    (svdS.canonical = true) ∧
    (a + 98304 ≤ Config.hbmBytes) := by decide +kernel

theorem meets_GroupsAreSaved_ts2 :
    (scS.groups.find? 1 = some svx) ∧
    (2 < 4) ∧
    (((scS.coreAt 0).tile 2).st = TileState.scanning) := by decide +kernel

theorem meets_GroupsAreSaved_pc :
    let p : Piece := { grp := 2, idx := 0 }
    (pcS.groups.find? 1 = some group1) ∧
    ((pcS.coreAt 0).pieces.find? 0 = some p) ∧
    ((pcS.coreAt 0).group ≠ some p.grp) ∧
    (pcS.groupMoving p.grp = false) ∧
    (pcS.piecesLacking 0 = true) ∧
    (∀ (r : Nat), r < 0 → ∀ (o : Piece), (pcS.coreAt 0).pieces.find? r = some o → (pcS.coreAt 0).group = some o.grp) := by decide +kernel

theorem meets_GroupsAreResumed_rs :
    let s : State := rsS false
    let x : Group := rsx false
    let u : State := ((rsS false).serve 0 1).getD base
    (s.groups.find? 1 = some x) ∧
    (x.st = GState.saved) ∧
    (x.contain = none) ∧
    (s.pkg.st = PkgState.serving ∨ s.pkg.st = PkgState.draining) ∧
    (s.groupMoving 1 = false) ∧
    (s.takes [3] x.size x.kdesc.pieces x.ctx x.prio 1 = true) ∧
    (∀ (v : CoreSave), v ∈ x.saved.getD [] → v.lost = false) ∧
    (s.serve x.prio x.ctx = some u) := by decide +kernel

theorem meets_GroupsAreResumed_rsl :
    let s : State := rsS true
    let x : Group := rsx true
    (s.groups.find? 1 = some x) ∧
    (x.st = GState.saved) ∧
    (x.contain = none) ∧
    (s.pkg.st = PkgState.serving ∨ s.pkg.st = PkgState.draining) ∧
    (s.groupMoving 1 = false) ∧
    (s.takes [3] x.size x.kdesc.pieces x.ctx x.prio 1 = true) ∧
    (∃ v, v ∈ x.saved.getD [] ∧ v.lost = true) := by decide +kernel

theorem meets_GroupsAreResumed_rd :
    let s : State := rdS false
    let x : Group := rdx false
    let p : Piece := { grp := 1, idx := 0, present := false }
    let c : Nat := x.cores.getD 0 0
    (s.groups.find? 1 = some x) ∧
    (0 < x.cores.length) ∧
    (x.st ≠ GState.loading) ∧
    (s.groupOf c = some 1) ∧
    (0 < 24) ∧
    ((s.coreAt c).pieceOf 1 0 = some (0, p)) ∧
    (p.present = false) ∧
    (∀ (j : Nat), j < 0 → ∀ (q' : Nat) (p' : Piece), (s.coreAt c).pieceOf 1 j = some (q', p') → p'.present = true) ∧
    (x.badImages.contains (0, 0) = false) := by
  intro s x p c
  exact ⟨by decide +kernel, by decide +kernel, by decide +kernel, by decide +kernel, by decide +kernel, by decide +kernel, by decide +kernel, (fun j hj => absurd hj (Nat.not_lt_zero j)), by decide +kernel⟩

theorem meets_GroupsAreResumed_rdw :
    let s : State := rdS false
    let x : Group := rdx false
    let p : Piece := { grp := 1, idx := 0, present := false }
    let c : Nat := x.cores.getD 0 0
    (s.groups.find? 1 = some x) ∧
    (0 < x.cores.length) ∧
    (x.st ≠ GState.loading) ∧
    (s.groupOf c = some 1) ∧
    (0 < 24) ∧
    ((s.coreAt c).pieceOf 1 0 = some (0, p)) ∧
    (p.present = false) ∧
    (∀ (j : Nat), j < 0 → ∀ (q' : Nat) (p' : Piece), (s.coreAt c).pieceOf 1 j = some (q', p') → p'.present = true) ∧
    (x.badImages.contains (0, 0) = false) ∧
    (x.slot = some 0) ∧
    (s.canonical = true) := by
  intro s x p c
  exact ⟨by decide +kernel, by decide +kernel, by decide +kernel, by decide +kernel, by decide +kernel, by decide +kernel, by decide +kernel, (fun j hj => absurd hj (Nat.not_lt_zero j)), by decide +kernel, by decide +kernel, by decide +kernel⟩

theorem meets_GroupsAreResumed_rdb :
    let s : State := rdS true
    let x : Group := rdx true
    let p : Piece := { grp := 1, idx := 0, present := false }
    let c : Nat := x.cores.getD 0 0
    (s.groups.find? 1 = some x) ∧
    (0 < x.cores.length) ∧
    (x.st ≠ GState.loading) ∧
    (s.groupOf c = some 1) ∧
    (0 < 24) ∧
    ((s.coreAt c).pieceOf 1 0 = some (0, p)) ∧
    (p.present = false) ∧
    (∀ (j : Nat), j < 0 → ∀ (q' : Nat) (p' : Piece), (s.coreAt c).pieceOf 1 j = some (q', p') → p'.present = true) ∧
    (x.badImages.contains (0, 0) = true) := by
  intro s x p c
  exact ⟨by decide +kernel, by decide +kernel, by decide +kernel, by decide +kernel, by decide +kernel, by decide +kernel, by decide +kernel, (fun j hj => absurd hj (Nat.not_lt_zero j)), by decide +kernel⟩



end Sys2Proof.Tests.Placings
end

