-- ==== Sys2Proof/Tests/Link.lean ====
section
/-! SUPPORT. States that meet the hypotheses of the statements about ports, flits and time. -/

namespace Sys2Proof.Tests.Ports
open Sys2Proof Sys2Proof.Machine Sys2Proof.Claims
set_option Elab.async false

theorem meets_PortCommands_pm0 :
    let s : State := { base with ports := [(2, { })] }
    let via : Via := Via.guest 1
    let may : Prop := via = Via.host ∧ 2 < 80 ∧ s.pkg.st ≠ PkgState.reset
    (¬may) := by decide +kernel

theorem meets_PortCommands_en0 :
    let s : State := { base with ports := [(2, { st := PortState.seek })] }
    let q : Port := s.portAt 2
    let may : Prop := Via.host = Via.host ∧ 2 < 80 ∧ s.pkg.st ≠ PkgState.reset
    (may) ∧
    (q.st ≠ PortState.dark) := by decide +kernel

theorem meets_PortCommands_en1 :
    let s : State := { base with ports := [(2, { })] }
    let q : Port := s.portAt 2
    let may : Prop := Via.host = Via.host ∧ 2 < 80 ∧ s.pkg.st ≠ PkgState.reset
    (may) ∧
    (q.st = PortState.dark) := by decide +kernel

theorem meets_PortCommands_en2 :
    let s : State := { base with flash := { ret := [(33, true)] }, ports := [(2, { })] }
    let q : Port := s.portAt 2
    let may : Prop := Via.host = Via.host ∧ 2 < 80 ∧ s.pkg.st ≠ PkgState.reset
    (may) ∧
    (q.st = PortState.dark) := by decide +kernel

theorem meets_PortCommands_by0 :
    let s : State := { base with ports := [(2, { st := PortState.bypassed })] }
    let q : Port := s.portAt 2
    let may : Prop := Via.host = Via.host ∧ 2 < 80 ∧ s.pkg.st ≠ PkgState.reset
    (may) ∧
    (q.st = PortState.bypassed) := by decide +kernel

theorem meets_PortCommands_di1 :
    let s : State := { base with ports := [(2, { st := PortState.active, w := 16, lanes := [(1, { lit := true })], txLanes := 65535, rxLanes := 65535, replay := [(3, { first := true, last := true, opc := 3, tag := 4, data := [] })] })] }
    let q : Port := s.portAt 2
    let may : Prop := Via.host = Via.host ∧ 2 < 80 ∧ s.pkg.st ≠ PkgState.reset
    (may) ∧
    (q.st ≠ PortState.bypassed) ∧
    (q.seq.st = SqState.idle) := by decide +kernel

theorem meets_PortCommands_di2 :
    let s : State := { base with ports := [(2, { st := PortState.active, w := 16, lanes := [(1, { lit := true })], txLanes := 65535, rxLanes := 65535, replay := [(3, { first := true, last := true, opc := 3, tag := 4, data := [] })], seq := { st := SqState.running, grp := some 1 } })] }
    let q : Port := s.portAt 2
    let may : Prop := Via.host = Via.host ∧ 2 < 80 ∧ s.pkg.st ≠ PkgState.reset
    (may) ∧
    (q.st ≠ PortState.bypassed) ∧
    (q.seq.st ≠ SqState.idle) := by decide +kernel

theorem meets_PortCommands_rt1 :
    let s : State := { base with ports := [(2, { st := PortState.active, w := 16, lanes := [(1, { lit := true })], txLanes := 65535, rxLanes := 65535, replay := [(3, { first := true, last := true, opc := 3, tag := 4, data := [] })] })] }
    let q : Port := s.portAt 2
    let may : Prop := Via.host = Via.host ∧ 2 < 80 ∧ s.pkg.st ≠ PkgState.reset
    (may) ∧
    (q.st = PortState.active ∨ q.st = PortState.degraded) := by decide +kernel

theorem meets_PortCommands_rt2 :
    let s : State := { base with ports := [(2, { st := PortState.seek })] }
    let q : Port := s.portAt 2
    let may : Prop := Via.host = Via.host ∧ 2 < 80 ∧ s.pkg.st ≠ PkgState.reset
    (may) ∧
    (q.st ≠ PortState.active) ∧
    (q.st ≠ PortState.degraded) := by decide +kernel

theorem meets_PortCommands_ub1 :
    let s : State := { base with ports := [(2, { st := PortState.bypassed })] }
    let q : Port := s.portAt 2
    let may : Prop := Via.host = Via.host ∧ 2 < 80 ∧ s.pkg.st ≠ PkgState.reset
    (may) ∧
    (q.st = PortState.bypassed) := by decide +kernel

theorem meets_PortCommands_ub2 :
    let s : State := { base with ports := [(2, { })] }
    let q : Port := s.portAt 2
    let may : Prop := Via.host = Via.host ∧ 2 < 80 ∧ s.pkg.st ≠ PkgState.reset
    (may) ∧
    (q.st ≠ PortState.bypassed) := by decide +kernel

theorem meets_PortCommands_lr1 :
    let s : State := { base with flash := { ret := [(33, true)] }, ports := [(2, { })] }
    let q : Port := s.portAt 2
    let may : Prop := Via.host = Via.host ∧ 2 < 80 ∧ s.pkg.st ≠ PkgState.reset
    let genuine : Prop := s.flash.key = none ∧ s.pkg.flashSeen ≤ s.flash.counter
    (may) ∧
    (genuine) ∧
    (q.st = PortState.bypassed ∨ q.st = PortState.dark) ∧
    (1 < 16) ∧
    (s.retired 2 1 = true) := by decide +kernel

theorem meets_PortCommands_lrb :
    let s : State := { base with pkg := { st := PkgState.serving, flashSeen := 4 }, flash := { counter := 3, ret := [(33, true)] }, ports := [(2, { })] }
    let may : Prop := Via.host = Via.host ∧ 2 < 80 ∧ s.pkg.st ≠ PkgState.reset
    (may) ∧
    (s.flashAnswers = false) := by decide +kernel

theorem meets_PortCommands_lr2 :
    let s : State := { base with ports := [(2, { st := PortState.active })] }
    let q : Port := s.portAt 2
    let may : Prop := Via.host = Via.host ∧ 2 < 80 ∧ s.pkg.st ≠ PkgState.reset
    (may) ∧
    (¬(q.st = PortState.bypassed ∨ q.st = PortState.dark) ∨ s.retired 2 1 = false) := by decide +kernel

theorem meets_Lasers_la1 :
    let s : State := { base with ports := [(2, { lanes := [(1, { lit := true })] })] }
    let q : Port := s.portAt 2
    (∀ (i : Nat), i < 16 → BitVec.getLsbD 1#16 i = true → (q.lane i).lit = false ∨ s.retired 2 i = true) := by decide +kernel

theorem meets_Lasers_la2 :
    let s : State := { base with ports := [(2, { lanes := [(1, { lit := true })] })] }
    let q : Port := s.portAt 2
    let x : Lane := q.lane 1
    (1 < 16) ∧
    (x.lit = true) ∧
    (s.retired 2 1 = false) ∧
    (q.up = false) := by decide +kernel

theorem meets_Lasers_la3 :
    let s : State := { base with ports := [(2, { })] }
    let q : Port := s.portAt 2
    let x : Lane := q.lane 1
    (x.lit = false ∨ 16 ≤ 1) := by decide +kernel

theorem meets_Lasers_la4 :
    let s : State := { base with ports := [(2, { lanes := [(1, { lit := true })] })] }
    let q : Port := s.portAt 2
    let x : Lane := q.lane 1
    (x.lit = true) ∧
    (1 < 16) ∧
    (5 < q.bmax.toNat) := by decide +kernel

theorem meets_Lasers_la5 :
    let s : State := { base with ports := [(2, { lanes := [(1, { lit := true })] })] }
    let q : Port := s.portAt 2
    let x : Lane := q.lane 1
    (x.lit = true) ∧
    (1 < 16) ∧
    (q.bmax.toNat ≤ 12000) ∧
    (s.retired 2 1 = false) ∧
    (q.up = false) := by decide +kernel

theorem meets_Lasers_la6 :
    let s : State := { base with ports := [(2, { })] }
    let q : Port := s.portAt 2
    let x : Lane := q.lane 1
    (x.lit = false) := by decide +kernel

theorem meets_Lasers_la7 :
    let s : State := { base with ports := [(2, { lanes := [(1, { lit := true })] })] }
    let q : Port := s.portAt 2
    let x : Lane := q.lane 1
    (x.lit = true) := by decide +kernel

theorem meets_Lasers_la8 :
    let s : State := { base with ports := [(2, { lanes := [(1, { lit := true, fresh := 59 })] })] }
    let q : Port := s.portAt 2
    let x : Lane := q.lane 1
    (x.lit = true) := by decide +kernel

theorem meets_PortTrains_cl1 :
    let s : State := { base with ports := [(2, { st := PortState.bypassed })], switches := [(2, true)] }
    (Tbl.get false s.switches 2 = true ∨ 16 ≤ 3 ∨ s.pkg.st = PkgState.reset) := by decide +kernel

theorem meets_PortTrains_cl2 :
    let s : State := { base with ports := [(2, { st := PortState.active })] }
    let q : Port := s.portAt 2
    let e : Exchange := q.exch
    let lit : Nat → State := fun l => s.modLane 2 l fun l_1 => { l_1 with rxlos := false, locked := true }
    (s.pkg.st ≠ PkgState.reset) ∧
    (Tbl.get false s.switches 2 = false) ∧
    (3 < 16) ∧
    (q.st ≠ PortState.seek ∨ e.offer = none ∨ laneCount ((lit 3).portAt 2).healthyRx < 4) := by decide +kernel

theorem meets_PortTrains_cl3 :
    let s : State := { base with ports := [(2, { st := PortState.seek, lanes := List.map (fun i => (i, { lit := true, locked := true })) (List.range 3), exch := { tseq := 5, offer := some { trate := 0, tseq := 5, txset := 65535, rxset := 65535, usea := 0, useb := 0, pid := 9 } } })] }
    let m : TrainMsg := { trate := 0, tseq := 5, txset := 65535, rxset := 65535, usea := 0, useb := 0, pid := 9 }
    let q : Port := s.portAt 2
    let e : Exchange := q.exch
    let lit : Nat → State := fun l => s.modLane 2 l fun l_1 => { l_1 with rxlos := false, locked := true }
    (s.pkg.st ≠ PkgState.reset) ∧
    (Tbl.get false s.switches 2 = false) ∧
    (3 < 16) ∧
    (q.st = PortState.seek) ∧
    (e.offer = some m) ∧
    (e.accept = none) ∧
    (4 ≤ laneCount ((lit 3).portAt 2).healthyRx) := by decide +kernel

theorem meets_PortTrains_of1 :
    let s : State := { base with ports := [(2, { st := PortState.active })] }
    let q : Port := s.portAt 2
    let training : Prop := q.st = PortState.train ∨ q.st = PortState.retrain
    (q.st ≠ PortState.seek) ∧
    (¬training) := by decide +kernel

theorem meets_PortTrains_of2 :
    let s : State := { base with ports := [(2, { st := PortState.train, exch := { tseq := 6 } })] }
    let m : TrainMsg := { trate := 0, tseq := 5, txset := 65535, rxset := 65535, usea := 0, useb := 0, pid := 9 }
    let q : Port := s.portAt 2
    let e : Exchange := q.exch
    (m.tseq ≠ e.tseq) ∧
    (tseqAhead m.tseq e.tseq = false) := by decide +kernel

theorem meets_PortTrains_of3 :
    let s : State := { base with ports := [(2, { st := PortState.seek, exch := { tseq := 5 } })] }
    let m : TrainMsg := { trate := 0, tseq := 5, txset := 65535, rxset := 65535, usea := 0, useb := 0, pid := 9 }
    let q : Port := s.portAt 2
    let e : Exchange := q.exch
    (q.st = PortState.seek) ∧
    (m.tseq = e.tseq) ∧
    (laneCount q.healthyRx < 4) := by decide +kernel

theorem meets_PortTrains_of4 :
    let s : State := { base with ports := [(2, { st := PortState.train, lanes := List.map (fun i => (i, { lit := true, locked := true })) (List.range 16), exch := { tseq := 5 } })] }
    let m : TrainMsg := { trate := 0, tseq := 5, txset := 65535, rxset := 65535, usea := 0, useb := 0, pid := 9 }
    let q : Port := s.portAt 2
    let e : Exchange := q.exch
    (q.st = PortState.train ∨ q.st = PortState.seek ∧ 4 ≤ laneCount q.healthyRx) ∧
    (m.tseq = e.tseq) ∧
    (e.accept = none) := by decide +kernel

theorem meets_PortTrains_of5 :
    let s : State := { base with ports := [(2, { st := PortState.seek, lanes := List.map (fun i => (i, { lit := true, locked := true })) (List.range 16), exch := { tseq := 5 } })] }
    let m : TrainMsg := { trate := 0, tseq := 5, txset := 4095, rxset := 65295, usea := 0, useb := 0, pid := 9 }
    let q : Port := s.portAt 2
    let e : Exchange := q.exch
    (q.st = PortState.train ∨ q.st = PortState.seek ∧ 4 ≤ laneCount q.healthyRx) ∧
    (m.tseq = e.tseq) ∧
    (e.accept = none) := by decide +kernel

theorem meets_PortTrains_ac0 :
    let s : State := { base with ports := [(2, { st := PortState.active })] }
    let m : TrainMsg := { trate := 0, tseq := 5, txset := 65535, rxset := 65535, usea := 0, useb := 0, pid := 9 }
    let q : Port := s.portAt 2
    let e : Exchange := q.exch
    let training : Prop := q.st = PortState.train ∨ q.st = PortState.retrain
    (¬training ∨ m.tseq ≠ e.tseq) := by decide +kernel

theorem meets_PortTrains_ac1 :
    let s : State := { base with ports := [(2, { st := PortState.train, exch := { tseq := 5, acceptSent := some { trate := 0, tseq := 5, txset := 65535, rxset := 65535, usea := 65535, useb := 65535, pid := 9 } } })] }
    let m : TrainMsg := { trate := 0, tseq := 5, txset := 65535, rxset := 65535, usea := 4095, useb := 65535, pid := 9 }
    let q : Port := s.portAt 2
    let e : Exchange := q.exch
    let training : Prop := q.st = PortState.train ∨ q.st = PortState.retrain
    let a : TrainMsg := { trate := 0, tseq := 5, txset := 65535, rxset := 65535, usea := 65535, useb := 65535, pid := 9 }
    let agree : Prop := a.trate = m.trate ∧ a.usea = m.usea ∧ a.useb = m.useb
    (training) ∧
    (m.tseq = e.tseq) ∧
    (e.acceptSent = some a) ∧
    (¬agree) := by decide +kernel

theorem meets_PortTrains_ac2 :
    let s : State := { base with ports := [(2, { st := PortState.train, exch := { tseq := 5, acceptSent := some { trate := 0, tseq := 5, txset := 65535, rxset := 65535, usea := 65535, useb := 65535, pid := 9 } } })] }
    let m : TrainMsg := { trate := 0, tseq := 5, txset := 65535, rxset := 65535, usea := 65535, useb := 65535, pid := 9 }
    let q : Port := s.portAt 2
    let e : Exchange := q.exch
    let training : Prop := q.st = PortState.train ∨ q.st = PortState.retrain
    let agree : Prop := m.trate = m.trate ∧ m.usea = m.usea ∧ m.useb = m.useb
    (training) ∧
    (m.tseq = e.tseq) ∧
    (e.acceptSent = some m) ∧
    (agree) ∧
    (e.readySent = false) ∧
    (m.usea ≠ 0#16) ∧
    (m.useb ≠ 0#16) ∧
    (e.readyGot = false) := by decide +kernel

theorem meets_PortTrains_rd1 :
    let s : State := { base with ports := [(2, { st := PortState.train, exch := { tseq := 5, offer := some { trate := 0, tseq := 5, txset := 65535, rxset := 65535, usea := 0, useb := 0, pid := 9 }, acceptSent := some { trate := 0, tseq := 5, txset := 65535, rxset := 65535, usea := 65535, useb := 65535, pid := 9 }, readySent := true } })] }
    let m : TrainMsg := { trate := 0, tseq := 5, txset := 65535, rxset := 65535, usea := 65535, useb := 65535, pid := 9 }
    let q : Port := s.portAt 2
    let e : Exchange := q.exch
    let training : Prop := q.st = PortState.train ∨ q.st = PortState.retrain
    let peer : TrainMsg := { trate := 0, tseq := 5, txset := 65535, rxset := 65535, usea := 0, useb := 0, pid := 9 }
    (training) ∧
    (m.tseq = e.tseq) ∧
    (e.acceptSent = some m) ∧
    (e.offer = some peer) ∧
    (e.readySent = true) ∧
    (q.txRestripe = none) ∧
    (q.rxRestripe = none) ∧
    (q.laterRetrain = []) := by decide +kernel

theorem meets_PortTrains_rd4 :
    let s : State := { base with ports := [(2, { st := PortState.train, exch := { tseq := 5, offer := some { trate := 0, tseq := 5, txset := 65535, rxset := 65535, usea := 0, useb := 0, pid := 9 }, acceptSent := some { trate := 0, tseq := 5, txset := 65535, rxset := 65535, usea := 65535, useb := 65535, pid := 9 }, readySent := true }, laterRetrain := [{ trate := 1, tseq := 9, txset := 65535, rxset := 65535, usea := 0, useb := 0, pid := 9 }] })] }
    let m : TrainMsg := { trate := 0, tseq := 5, txset := 65535, rxset := 65535, usea := 65535, useb := 65535, pid := 9 }
    let q : Port := s.portAt 2
    let e : Exchange := q.exch
    let training : Prop := q.st = PortState.train ∨ q.st = PortState.retrain
    let peer : TrainMsg := { trate := 0, tseq := 5, txset := 65535, rxset := 65535, usea := 0, useb := 0, pid := 9 }
    let next : TrainMsg := { trate := 1, tseq := 9, txset := 65535, rxset := 65535, usea := 0, useb := 0, pid := 9 }
    (training) ∧
    (m.tseq = e.tseq) ∧
    (e.acceptSent = some m) ∧
    (e.offer = some peer) ∧
    (e.readySent = true) ∧
    (q.txRestripe = none) ∧
    (q.rxRestripe = none) ∧
    (q.laterRetrain = [next]) := by decide +kernel

theorem meets_PortTrains_rd2 :
    let s : State := { base with ports := [(2, { st := PortState.retrain, exch := { tseq := 5, offer := some { trate := 0, tseq := 5, txset := 65535, rxset := 4095, usea := 0, useb := 0, pid := 9 }, acceptSent := some { trate := 0, tseq := 5, txset := 65535, rxset := 65535, usea := 65535, useb := 65535, pid := 9 }, readySent := true } })] }
    let m : TrainMsg := { trate := 0, tseq := 5, txset := 65535, rxset := 65535, usea := 65535, useb := 65535, pid := 9 }
    let q : Port := s.portAt 2
    let e : Exchange := q.exch
    let training : Prop := q.st = PortState.train ∨ q.st = PortState.retrain
    let peer : TrainMsg := { trate := 0, tseq := 5, txset := 65535, rxset := 4095, usea := 0, useb := 0, pid := 9 }
    (training) ∧
    (m.tseq = e.tseq) ∧
    (e.acceptSent = some m) ∧
    (e.offer = some peer) ∧
    (e.readySent = true) ∧
    (q.txRestripe = none) ∧
    (q.rxRestripe = none) ∧
    (q.laterRetrain = []) := by decide +kernel

theorem meets_PortTrains_rd3 :
    let s : State := { base with ports := [(2, { st := PortState.retrain, exch := { tseq := 5, acceptSent := some { trate := 0, tseq := 5, txset := 65535, rxset := 65535, usea := 65535, useb := 65535, pid := 9 } } })] }
    let m : TrainMsg := { trate := 0, tseq := 5, txset := 65535, rxset := 65535, usea := 65535, useb := 65535, pid := 9 }
    let q : Port := s.portAt 2
    let e : Exchange := q.exch
    let training : Prop := q.st = PortState.train ∨ q.st = PortState.retrain
    (training) ∧
    (m.tseq = e.tseq) ∧
    (e.readySent = false) := by decide +kernel

theorem meets_PortTrains_tt1 :
    let s : State := { base with pkg := { st := PkgState.serving, up := 100004 }, ports := [(2, { st := PortState.train, since := 5 })] }
    let q : Port := s.portAt 2
    let training : Prop := q.st = PortState.train ∨ q.st = PortState.retrain
    (s.pkg.up < q.since + 100000 ∨ ¬training) := by decide +kernel

theorem meets_PortTrains_tt2 :
    let s : State := { base with pkg := { st := PkgState.serving, up := 100005 }, ports := [(2, { st := PortState.train, attempts := 14, since := 5 })] }
    let q : Port := s.portAt 2
    (q.st = PortState.train) ∧
    (q.since + 100000 ≤ s.pkg.up) ∧
    (q.attempts + 1 < 16) := by decide +kernel

theorem meets_PortTrains_tt3 :
    let s : State := { base with pkg := { st := PkgState.serving, up := 100005 }, ports := [(2, { st := PortState.train, lanes := List.map (fun i => (i, { lit := true, locked := true })) (List.range 16), attempts := 15, since := 5 })] }
    let q : Port := s.portAt 2
    (q.st = PortState.retrain ∨ q.st = PortState.train ∧ 16 ≤ q.attempts + 1) ∧
    (q.since + 100000 ≤ s.pkg.up) ∧
    (q.seq.st = SqState.idle) := by decide +kernel

theorem meets_PortTrains_tt4 :
    let s : State := { base with pkg := { st := PkgState.serving, up := 100005 }, ports := [(2, { st := PortState.retrain, lanes := List.map (fun i => (i, { lit := true, locked := true })) (List.range 16), since := 5 })] }
    let q : Port := s.portAt 2
    (q.st = PortState.retrain ∨ q.st = PortState.train ∧ 16 ≤ q.attempts + 1) ∧
    (q.since + 100000 ≤ s.pkg.up) ∧
    (q.seq.st = SqState.idle) := by decide +kernel

theorem meets_PortTrains_rr1 :
    let s : State := { base with ports := [(2, { st := PortState.train })] }
    let q : Port := s.portAt 2
    (q.up = false) ∧
    (q.st ≠ PortState.retrain) := by decide +kernel

theorem meets_PortTrains_rr4 :
    let s : State := { base with ports := [(2, { st := PortState.retrain })] }
    let q : Port := s.portAt 2
    let e : Exchange := q.exch
    (q.st = PortState.retrain) ∧
    (e.requestSent = none) := by decide +kernel

theorem meets_PortTrains_rr2 :
    let s : State := { base with ports := [(2, { st := PortState.active, txRestripe := some { lanes := 4095 } })] }
    let q : Port := s.portAt 2
    (q.up = true) ∧
    (q.txRestripe ≠ none ∨ q.rxRestripe ≠ none) := by decide +kernel

theorem meets_PortTrains_rr3 :
    let s : State := { base with ports := [(2, { st := PortState.active })] }
    let q : Port := s.portAt 2
    (q.up = true) ∧
    (q.txRestripe = none) ∧
    (q.rxRestripe = none) := by decide +kernel

theorem meets_LanesAreLostAndRestriped_lo0 :
    let s : State := { base with ports := [(2, { lanes := [(3, { rxlos := true })] })] }
    let q : Port := s.portAt 2
    ((∀ (i : Nat), i < 16 → BitVec.getLsbD 8#16 i = true → (q.lane i).rxlos = true) ∨ s.pkg.st = PkgState.reset) := by decide +kernel

theorem meets_LanesAreLostAndRestriped_lo1 :
    let s : State := { base with ports := [(2, { st := PortState.active, w := 16, rxw := 16, lanes := List.map (fun i => (i, { lit := true, locked := true })) (List.range 16), txLanes := 65535, rxLanes := 65535 })] }
    let q : Port := s.portAt 2
    let rxNow : BitVec 16 := (match q.rxRestripe with
      | some r => r.lanes
      | none => q.rxLanes)
    let left : BitVec 16 := rxNow &&& ~~~8
    (s.pkg.st ≠ PkgState.reset) ∧
    (∀ (i : Nat), i < 16 → BitVec.getLsbD 8#16 i = true → (q.lane i).rxlos = false) ∧
    (8#16 ≠ 0#16) ∧
    (q.up = true) ∧
    (left ≠ rxNow) ∧
    (4 ≤ laneCount left) := by decide +kernel

theorem meets_LanesAreLostAndRestriped_lo4 :
    let s : State := { base with ports := [(2, { st := PortState.active, w := 16, rxw := 16, lanes := List.map (fun i => (i, { lit := true, locked := true })) (List.range 16), txLanes := 65535, rxLanes := 65535, rxRestripe := some { lanes := 4080 } })] }
    let q : Port := s.portAt 2
    let rxNow : BitVec 16 := (match q.rxRestripe with
      | some r => r.lanes
      | none => q.rxLanes)
    let left : BitVec 16 := rxNow &&& ~~~8
    (s.pkg.st ≠ PkgState.reset) ∧
    (∀ (i : Nat), i < 16 → BitVec.getLsbD 8#16 i = true → (q.lane i).rxlos = false) ∧
    (8#16 ≠ 0#16) ∧
    (q.up = true) ∧
    (left = rxNow) := by decide +kernel

theorem meets_LanesAreLostAndRestriped_lo2 :
    let s : State := { base with ports := [(2, { st := PortState.active, w := 16, rxw := 16, lanes := List.map (fun i => (i, { lit := true, locked := true })) (List.range 16), txLanes := 65535, rxLanes := 65535 })] }
    let q : Port := s.portAt 2
    let rxNow : BitVec 16 := (match q.rxRestripe with
      | some r => r.lanes
      | none => q.rxLanes)
    let left : BitVec 16 := rxNow &&& ~~~8191
    (s.pkg.st ≠ PkgState.reset) ∧
    (∀ (i : Nat), i < 16 → BitVec.getLsbD 8191#16 i = true → (q.lane i).rxlos = false) ∧
    (8191#16 ≠ 0#16) ∧
    (q.up = true) ∧
    (left ≠ rxNow) ∧
    (laneCount left < 4) ∧
    (q.seq.st = SqState.idle) := by decide +kernel

theorem meets_LanesAreLostAndRestriped_lo3 :
    let s : State := { base with ports := [(2, { st := PortState.train, w := 16, rxw := 16, lanes := List.map (fun i => (i, { lit := true, locked := true })) (List.range 16), txLanes := 65535, rxLanes := 65535 })] }
    let q : Port := s.portAt 2
    (s.pkg.st ≠ PkgState.reset) ∧
    (∀ (i : Nat), i < 16 → BitVec.getLsbD 8#16 i = true → (q.lane i).rxlos = false) ∧
    (8#16 ≠ 0#16) ∧
    (q.st = PortState.train ∨ q.st = PortState.retrain) := by decide +kernel

theorem meets_LanesAreLostAndRestriped_rs0 :
    let s : State := { base with ports := [(2, { st := PortState.train, w := 16, rxw := 16, lanes := List.map (fun i => (i, { lit := true, locked := true })) (List.range 16), txLanes := 65535, rxLanes := 65535 })] }
    let q : Port := s.portAt 2
    (q.up = false) := by decide +kernel

theorem meets_LanesAreLostAndRestriped_rs1 :
    let s : State := { base with ports := [(2, { st := PortState.active, w := 16, rxw := 16, lanes := List.map (fun i => (i, { lit := true, locked := true })) (List.range 16), txLanes := 65535, rxLanes := 65535 })] }
    let m : TrainMsg := { trate := 0, tseq := 5, txset := 4095, rxset := 65535, usea := 255, useb := 0, pid := 9 }
    let q : Port := s.portAt 2
    let lower : Prop := BitVec.toNat s.pkg.pid < BitVec.toNat q.peerPid
    let forRx : BitVec 16 := if lower then m.useb else m.usea
    let rxNow : BitVec 16 := (match q.rxRestripe with
      | some r => r.lanes
      | none => q.rxLanes)
    let left : BitVec 16 := rxNow &&& m.txset
    (q.up = true) ∧
    (q.laterRetrain = []) ∧
    (forRx ≠ 0#16) ∧
    (forRx &&& ~~~left = 0#16) ∧
    (4 ≤ laneCount left) := by decide +kernel

theorem meets_LanesAreLostAndRestriped_rs1b :
    let s : State := { base with ports := [(2, { st := PortState.active, w := 16, rxw := 16, lanes := List.map (fun i => (i, { lit := true, locked := true })) (List.range 16), txLanes := 65535, rxLanes := 65535, rxRestripe := some { lanes := 4080 } })] }
    let m : TrainMsg := { trate := 0, tseq := 5, txset := 4095, rxset := 65535, usea := 255, useb := 0, pid := 9 }
    let q : Port := s.portAt 2
    let lower : Prop := BitVec.toNat s.pkg.pid < BitVec.toNat q.peerPid
    let forRx : BitVec 16 := if lower then m.useb else m.usea
    let rxNow : BitVec 16 := (match q.rxRestripe with
      | some r => r.lanes
      | none => q.rxLanes)
    let left : BitVec 16 := rxNow &&& m.txset
    (q.up = true) ∧
    (q.laterRetrain = []) ∧
    (forRx &&& ~~~left ≠ 0#16) ∧
    (4 ≤ laneCount left) := by decide +kernel

theorem meets_LanesAreLostAndRestriped_rs2 :
    let s : State := { base with ports := [(2, { st := PortState.active, w := 16, rxw := 16, lanes := List.map (fun i => (i, { lit := true, locked := true })) (List.range 16), txLanes := 65535, rxLanes := 65535 })] }
    let m : TrainMsg := { trate := 0, tseq := 5, txset := 7, rxset := 65535, usea := 255, useb := 0, pid := 9 }
    let q : Port := s.portAt 2
    let lower : Prop := BitVec.toNat s.pkg.pid < BitVec.toNat q.peerPid
    let forRx : BitVec 16 := if lower then m.useb else m.usea
    let rxNow : BitVec 16 := (match q.rxRestripe with
      | some r => r.lanes
      | none => q.rxLanes)
    (q.up = true) ∧
    (q.laterRetrain = []) ∧
    (forRx ≠ 0#16) ∧
    (laneCount (rxNow &&& m.txset) < 4) ∧
    (q.seq.st = SqState.idle) := by decide +kernel

theorem meets_LanesAreLostAndRestriped_rs3 :
    let s : State := { base with ports := [(2, { st := PortState.active, w := 16, rxw := 16, lanes := List.map (fun i => (i, { lit := true, locked := true })) (List.range 16), txLanes := 65535, rxLanes := 65535 })] }
    let m : TrainMsg := { trate := 0, tseq := 5, txset := 65535, rxset := 65535, usea := 0, useb := 255, pid := 9 }
    let q : Port := s.portAt 2
    let lower : Prop := BitVec.toNat s.pkg.pid < BitVec.toNat q.peerPid
    let forRx : BitVec 16 := if lower then m.useb else m.usea
    let forTx : BitVec 16 := if lower then m.usea else m.useb
    (q.up = true) ∧
    (q.laterRetrain = []) ∧
    (forRx = 0#16) ∧
    (forTx ≠ 0#16) ∧
    (q.txRestripe = none) := by decide +kernel

theorem meets_LanesAreLostAndRestriped_rs4 :
    let s : State := { base with ports := [(2, { st := PortState.active, w := 16, rxw := 16, lanes := List.map (fun i => (i, { lit := true, locked := true })) (List.range 16), txLanes := 65535, rxLanes := 65535, txRestripe := some { lanes := 4094 }, replay := [(3, { first := true, last := true, opc := 3, tag := 4, data := [] })] })] }
    let m : TrainMsg := { trate := 0, tseq := 5, txset := 65535, rxset := 65535, usea := 0, useb := 255, pid := 9 }
    let q : Port := s.portAt 2
    let lower : Prop := BitVec.toNat s.pkg.pid < BitVec.toNat q.peerPid
    let forRx : BitVec 16 := if lower then m.useb else m.usea
    let forTx : BitVec 16 := if lower then m.usea else m.useb
    let r : Restripe := { lanes := 4094 }
    (q.up = true) ∧
    (q.laterRetrain = []) ∧
    (forRx = 0#16) ∧
    (forTx ≠ 0#16) ∧
    (q.txRestripe = some r) ∧
    (forTx ≠ activeLanes r.lanes) := by decide +kernel

theorem meets_LanesAreLostAndRestriped_rs5 :
    let s : State := { base with ports := [(2, { st := PortState.active, w := 16, rxw := 16, lanes := List.map (fun i => (i, { lit := true, locked := true })) (List.range 16), txLanes := 65535, rxLanes := 65535, txRestripe := some { lanes := 4094 }, replay := [(3, { first := true, last := true, opc := 3, tag := 4, data := [] })] })] }
    let m : TrainMsg := { trate := 0, tseq := 5, txset := 65535, rxset := 65535, usea := 0, useb := activeLanes 4094, pid := 9 }
    let q : Port := s.portAt 2
    let lower : Prop := BitVec.toNat s.pkg.pid < BitVec.toNat q.peerPid
    let forRx : BitVec 16 := if lower then m.useb else m.usea
    let forTx : BitVec 16 := if lower then m.usea else m.useb
    let r : Restripe := { lanes := 4094 }
    (q.up = true) ∧
    (q.laterRetrain = []) ∧
    (forRx = 0#16) ∧
    (forTx ≠ 0#16) ∧
    (q.txRestripe = some r) ∧
    (forTx = activeLanes r.lanes) := by decide +kernel

theorem meets_LanesAreLostAndRestriped_rs6 :
    let s : State := { base with ports := [(2, { st := PortState.active, w := 16, rxw := 16, lanes := List.map (fun i => (i, { lit := true, locked := true })) (List.range 16), txLanes := 65535, rxLanes := 65535 })] }
    let m : TrainMsg := { trate := 0, tseq := 5, txset := 65535, rxset := 65535, usea := 0, useb := 0, pid := 9 }
    let q : Port := s.portAt 2
    let lower : Prop := BitVec.toNat s.pkg.pid < BitVec.toNat q.peerPid
    let forRx : BitVec 16 := if lower then m.useb else m.usea
    let forTx : BitVec 16 := if lower then m.usea else m.useb
    let txNow : BitVec 16 := (match q.txRestripe with
      | some r => r.lanes
      | none => q.txLanes)
    (q.up = true) ∧
    (q.laterRetrain = []) ∧
    (forRx = 0#16) ∧
    (forTx = 0#16) ∧
    (txNow &&& ~~~m.rxset = 0#16) := by decide +kernel

theorem meets_LanesAreLostAndRestriped_rs7 :
    let s : State := { base with ports := [(2, { st := PortState.active, w := 16, rxw := 16, lanes := List.map (fun i => (i, { lit := true, locked := true })) (List.range 16), txLanes := 65535, rxLanes := 65535 })] }
    let m : TrainMsg := { trate := 0, tseq := 5, txset := 65535, rxset := 65295, usea := 0, useb := 0, pid := 9 }
    let q : Port := s.portAt 2
    let lower : Prop := BitVec.toNat s.pkg.pid < BitVec.toNat q.peerPid
    let forRx : BitVec 16 := if lower then m.useb else m.usea
    let forTx : BitVec 16 := if lower then m.usea else m.useb
    let txNow : BitVec 16 := (match q.txRestripe with
      | some r => r.lanes
      | none => q.txLanes)
    let left : BitVec 16 := txNow &&& ~~~(txNow &&& ~~~m.rxset)
    (q.up = true) ∧
    (q.laterRetrain = []) ∧
    (forRx = 0#16) ∧
    (forTx = 0#16) ∧
    (txNow &&& ~~~m.rxset ≠ 0#16) ∧
    (4 ≤ laneCount left) := by decide +kernel



end Sys2Proof.Tests.Ports

namespace Sys2Proof.Tests.Flits
open Sys2Proof Sys2Proof.Machine Sys2Proof.Claims
set_option Elab.async false

def bd : FlitBody := { first := true, last := true, opc := 3, tag := 4, data := [1] }
def fl (q : Port) (ns : Nat := 5000) : State := { base with pkg := { st := .serving, ns := ns, up := ns }, ports := [(2, q)] }
def bad1 : List Byte := Sys2Proof.Machine.spoilt { kind := 1, seq := 7, plen := 2 } [1, 2]
def m9 : TrainMsg := { trate := 0, tseq := 5, txset := 65535, rxset := 65535, usea := 0, useb := 0, pid := 9 }
theorem noSync (n : Nat) (t2 : Nat) (fu : Bool) : Tbl.find? ({} : Ptp).syncAt 5 = some (n, t2, fu) → n ≠ 7 := by
  intro hf; cases hf

theorem meets_FlitsAreAcknowledgedAndReplayed_fx0 :
    (receiveFlit [] = Received.nothing) := by decide +kernel

theorem meets_FlitsAreAcknowledgedAndReplayed_fx1 :
    let s : State := fl { }
    let q : Port := s.portAt 2
    (q.up = false) := by decide +kernel

theorem meets_FlitsAreAcknowledgedAndReplayed_fx1b :
    let s : State := fl { }
    let q : Port := s.portAt 2
    (q.up = false) ∧
    (trainPayload [] = none) := by decide +kernel

theorem meets_FlitsAreAcknowledgedAndReplayed_fk1 :
    let bytes : List Byte := flitBytes { kind := 2, plen := 48 } (trainBytes 1 m9)
    let h : FlitHead := { kind := 2, plen := 48 }
    let payload : List Byte := trainBytes 1 m9
    (receiveFlit bytes = Received.good h payload) ∧
    (h.kind = 2) ∧
    (trainOf payload = some (1, m9)) ∧
    (1 = 1) := by
  intro bytes h payload
  exact ⟨receiveFlit_flitBytes _ _ (by decide +kernel), by decide +kernel, by decide +kernel, by decide +kernel⟩

theorem meets_FlitsAreAcknowledgedAndReplayed_fk2 :
    let bytes : List Byte := flitBytes { kind := 2, plen := 48 } (trainBytes 2 m9)
    let h : FlitHead := { kind := 2, plen := 48 }
    let payload : List Byte := trainBytes 2 m9
    (receiveFlit bytes = Received.good h payload) ∧
    (h.kind = 2) ∧
    (trainOf payload = some (2, m9)) ∧
    (2 = 2) := by
  intro bytes h payload
  exact ⟨receiveFlit_flitBytes _ _ (by decide +kernel), by decide +kernel, by decide +kernel, by decide +kernel⟩

theorem meets_FlitsAreAcknowledgedAndReplayed_fk3 :
    let bytes : List Byte := flitBytes { kind := 2, plen := 48 } (trainBytes 3 m9)
    let h : FlitHead := { kind := 2, plen := 48 }
    let payload : List Byte := trainBytes 3 m9
    (receiveFlit bytes = Received.good h payload) ∧
    (h.kind = 2) ∧
    (trainOf payload = some (3, m9)) ∧
    (3 = 3) := by
  intro bytes h payload
  exact ⟨receiveFlit_flitBytes _ _ (by decide +kernel), by decide +kernel, by decide +kernel, by decide +kernel⟩

theorem meets_FlitsAreAcknowledgedAndReplayed_fk4 :
    let bytes : List Byte := flitBytes { kind := 2, plen := 48 } (trainBytes 4 m9)
    let h : FlitHead := { kind := 2, plen := 48 }
    let payload : List Byte := trainBytes 4 m9
    (receiveFlit bytes = Received.good h payload) ∧
    (h.kind = 2) ∧
    (trainOf payload = some (4, m9)) ∧
    (4 = 4) := by
  intro bytes h payload
  exact ⟨receiveFlit_flitBytes _ _ (by decide +kernel), by decide +kernel, by decide +kernel, by decide +kernel⟩

theorem meets_FlitsAreAcknowledgedAndReplayed_fk5 :
    let bytes : List Byte := flitBytes { kind := 2, plen := 48 } (trainBytes 5 m9)
    let h : FlitHead := { kind := 2, plen := 48 }
    let payload : List Byte := trainBytes 5 m9
    (receiveFlit bytes = Received.good h payload) ∧
    (h.kind = 2) ∧
    (trainOf payload = some (5, m9)) ∧
    (5 = 5) := by
  intro bytes h payload
  exact ⟨receiveFlit_flitBytes _ _ (by decide +kernel), by decide +kernel, by decide +kernel, by decide +kernel⟩

theorem meets_FlitsAreAcknowledgedAndReplayed_fk0 :
    let bytes : List Byte := flitBytes { kind := 2, plen := 2 } [1, 2]
    let h : FlitHead := { kind := 2, plen := 2 }
    let payload : List Byte := [1, 2]
    (receiveFlit bytes = Received.good h payload) ∧
    (h.kind = 2) ∧
    (trainOf payload = none) := by
  intro bytes h payload
  exact ⟨receiveFlit_flitBytes _ _ (by decide +kernel), by decide +kernel, by decide +kernel⟩

theorem meets_FlitsAreAcknowledgedAndReplayed_fx2 :
    let s : State := fl { }
    let q : Port := s.portAt 2
    (q.up = false) := by decide +kernel

theorem meets_FlitsAreAcknowledgedAndReplayed_fd1 :
    let s : State := fl { st := PortState.active, txSeq := 9, replay := [(7, bd), (8, bd)], rxSeq := 7, lastProgress := 3000 }
    let bytes : List Byte := flitBytes { kind := 1, seq := 7, first := true, opc := 3, tag := 5, plen := 2 } [1, 2]
    let q : Port := s.portAt 2
    let h : FlitHead := { kind := 1, seq := 7, first := true, opc := 3, tag := 5, plen := 2 }
    let payload : List Byte := [1, 2]
    (q.up = true) ∧
    (receiveFlit bytes = Received.good h payload) ∧
    (h.kind = 1) ∧
    (h.ackv = false) ∧
    (h.seq = q.rxSeq) ∧
    (h.last = false) ∧
    (h.first = true ∨ q.incoming ≠ none) := by
  intro s bytes q h payload
  exact ⟨by decide +kernel, receiveFlit_flitBytes _ _ (by decide +kernel), by decide +kernel, by decide +kernel, by decide +kernel, by decide +kernel, by decide +kernel⟩

theorem meets_FlitsAreAcknowledgedAndReplayed_fd6 :
    let s : State := fl { st := PortState.active, txSeq := 9, replay := [(7, bd), (8, bd)], rxSeq := 31, lastProgress := 3000 }
    let bytes : List Byte := flitBytes { kind := 1, seq := 31, first := true, opc := 3, tag := 5, plen := 2 } [1, 2]
    let q : Port := s.portAt 2
    let h : FlitHead := { kind := 1, seq := 31, first := true, opc := 3, tag := 5, plen := 2 }
    let payload : List Byte := [1, 2]
    (q.up = true) ∧
    (receiveFlit bytes = Received.good h payload) ∧
    (h.kind = 1) ∧
    (h.ackv = false) ∧
    (h.seq = q.rxSeq) ∧
    (h.last = false) ∧
    (h.first = true ∨ q.incoming ≠ none) := by
  intro s bytes q h payload
  exact ⟨by decide +kernel, receiveFlit_flitBytes _ _ (by decide +kernel), by decide +kernel, by decide +kernel, by decide +kernel, by decide +kernel, by decide +kernel⟩

theorem meets_FlitsAreAcknowledgedAndReplayed_fd2 :
    let s : State := fl { st := PortState.active, txSeq := 9, replay := [(7, bd), (8, bd)], rxSeq := 7, lastProgress := 3000, incoming := some { opc := 3, tag := 5, bytes := [9] } }
    let bytes : List Byte := flitBytes { kind := 1, seq := 7, plen := 2 } [1, 2]
    let q : Port := s.portAt 2
    let h : FlitHead := { kind := 1, seq := 7, plen := 2 }
    let payload : List Byte := [1, 2]
    (q.up = true) ∧
    (receiveFlit bytes = Received.good h payload) ∧
    (h.kind = 1) ∧
    (h.ackv = false) ∧
    (h.seq = q.rxSeq) ∧
    (h.last = false) ∧
    (h.first = true ∨ q.incoming ≠ none) := by
  intro s bytes q h payload
  exact ⟨by decide +kernel, receiveFlit_flitBytes _ _ (by decide +kernel), by decide +kernel, by decide +kernel, by decide +kernel, by decide +kernel, by decide +kernel⟩

theorem meets_FlitsAreAcknowledgedAndReplayed_fd3 :
    let s : State := fl { st := PortState.active, txSeq := 9, replay := [(7, bd), (8, bd)], rxSeq := 7, lastProgress := 3000 }
    let bytes : List Byte := flitBytes { kind := 1, seq := 6, plen := 2 } [1, 2]
    let q : Port := s.portAt 2
    let h : FlitHead := { kind := 1, seq := 6, plen := 2 }
    let payload : List Byte := [1, 2]
    (q.up = true) ∧
    (receiveFlit bytes = Received.good h payload) ∧
    (h.kind = 1) ∧
    (h.ackv = false) ∧
    (h.seq ≠ q.rxSeq) ∧
    ((q.rxSeq + 4096 - h.seq) % 4096 ≤ 512) := by
  intro s bytes q h payload
  exact ⟨by decide +kernel, receiveFlit_flitBytes _ _ (by decide +kernel), by decide +kernel, by decide +kernel, by decide +kernel, by decide +kernel⟩

theorem meets_FlitsAreAcknowledgedAndReplayed_fd4 :
    let s : State := fl { st := PortState.active, txSeq := 9, replay := [(7, bd), (8, bd)], rxSeq := 7, lastProgress := 3000 }
    let bytes : List Byte := flitBytes { kind := 1, seq := 8, plen := 2 } [1, 2]
    let q : Port := s.portAt 2
    let h : FlitHead := { kind := 1, seq := 8, plen := 2 }
    let payload : List Byte := [1, 2]
    (q.up = true) ∧
    (receiveFlit bytes = Received.good h payload) ∧
    (h.kind = 1) ∧
    (h.ackv = false) ∧
    (h.seq ≠ q.rxSeq) ∧
    (512 < (q.rxSeq + 4096 - h.seq) % 4096) ∧
    (s.pkg.st ≠ PkgState.failed) ∧
    (q.nakTimes.length < 16) ∧
    (q.lastNak = none) := by
  intro s bytes q h payload
  exact ⟨by decide +kernel, receiveFlit_flitBytes _ _ (by decide +kernel), by decide +kernel, by decide +kernel, by decide +kernel, by decide +kernel, by decide +kernel, by decide +kernel, by decide +kernel⟩

theorem meets_FlitsAreAcknowledgedAndReplayed_fd5 :
    let s : State := fl { st := PortState.active, txSeq := 9, replay := [(7, bd), (8, bd)], rxSeq := 7, lastNak := some (7, 3001), lastProgress := 3000 }
    let bytes : List Byte := flitBytes { kind := 1, seq := 8, plen := 2 } [1, 2]
    let q : Port := s.portAt 2
    let h : FlitHead := { kind := 1, seq := 8, plen := 2 }
    let payload : List Byte := [1, 2]
    (q.up = true) ∧
    (receiveFlit bytes = Received.good h payload) ∧
    (h.kind = 1) ∧
    (h.ackv = false) ∧
    (h.seq ≠ q.rxSeq) ∧
    (512 < (q.rxSeq + 4096 - h.seq) % 4096) ∧
    (q.lastNak = some (q.rxSeq, 3001)) ∧
    (s.pkg.up < 3001 + 2000) := by
  intro s bytes q h payload
  exact ⟨by decide +kernel, receiveFlit_flitBytes _ _ (by decide +kernel), by decide +kernel, by decide +kernel, by decide +kernel, by decide +kernel, by decide +kernel, by decide +kernel⟩

theorem meets_FlitsAreAcknowledgedAndReplayed_fi1 :
    let s : State := fl { st := PortState.active, txSeq := 9, replay := [(7, bd), (8, bd)], rxSeq := 7, lastProgress := 3000 }
    let bytes : List Byte := flitBytes { ackseq := 10, ackv := true } []
    let q : Port := s.portAt 2
    let oldest : Nat := (q.txSeq + 4096 - q.replay.length) % 4096
    let h : FlitHead := { ackseq := 10, ackv := true }
    let d : Nat := (h.ackseq + 4096 - oldest) % 4096
    (q.up = true) ∧
    (receiveFlit bytes = Received.good h []) ∧
    (h.kind = 0) ∧
    (h.ackv = true) ∧
    (q.outq = []) ∧
    (q.replay.length < d) := by
  intro s bytes q oldest h d
  exact ⟨by decide +kernel, receiveFlit_flitBytes _ _ (by decide +kernel), by decide +kernel, by decide +kernel, by decide +kernel, by decide +kernel⟩

theorem meets_FlitsAreAcknowledgedAndReplayed_fi2 :
    let s : State := fl { st := PortState.active, txSeq := 9, replay := [(7, bd), (8, bd)], rxSeq := 7, lastProgress := 3000 }
    let bytes : List Byte := flitBytes { ackseq := 9, ackv := true } []
    let q : Port := s.portAt 2
    let oldest : Nat := (q.txSeq + 4096 - q.replay.length) % 4096
    let h : FlitHead := { ackseq := 9, ackv := true }
    let d : Nat := (h.ackseq + 4096 - oldest) % 4096
    (q.up = true) ∧
    (receiveFlit bytes = Received.good h []) ∧
    (h.kind = 0) ∧
    (h.ackv = true) ∧
    (q.outq = []) ∧
    (d ≤ q.replay.length) := by
  intro s bytes q oldest h d
  exact ⟨by decide +kernel, receiveFlit_flitBytes _ _ (by decide +kernel), by decide +kernel, by decide +kernel, by decide +kernel, by decide +kernel⟩

theorem meets_FlitsAreAcknowledgedAndReplayed_fn1 :
    let s : State := fl { st := PortState.active, txSeq := 9, replay := [(7, bd), (8, bd)], rxSeq := 7, lastProgress := 3000 }
    let bytes : List Byte := flitBytes { kind := 3, ackseq := 8, ackv := true } []
    let q : Port := s.portAt 2
    let oldest : Nat := (q.txSeq + 4096 - q.replay.length) % 4096
    let h : FlitHead := { kind := 3, ackseq := 8, ackv := true }
    let d : Nat := (h.ackseq + 4096 - oldest) % 4096
    (q.up = true) ∧
    (receiveFlit bytes = Received.good h []) ∧
    (h.kind = 3) ∧
    (h.ackv = true) ∧
    (q.outq = []) ∧
    (q.txRestripe = none) ∧
    (d ≤ q.replay.length) := by
  intro s bytes q oldest h d
  exact ⟨by decide +kernel, receiveFlit_flitBytes _ _ (by decide +kernel), by decide +kernel, by decide +kernel, by decide +kernel, by decide +kernel, by decide +kernel⟩

theorem meets_FlitsAreAcknowledgedAndReplayed_fb1 :
    let s : State := fl { st := PortState.active, txSeq := 9, replay := [(7, bd), (8, bd)], rxSeq := 7, lastProgress := 3000 }
    let q : Port := s.portAt 2
    (q.up = true) ∧
    (receiveFlit bad1 = Received.bad none) ∧
    (s.pkg.st ≠ PkgState.failed) ∧
    (q.lastNak = none) ∧
    (q.nakTimes.length < 16) := by
  intro s q
  exact ⟨by decide +kernel, receiveFlit_spoilt _ _, by decide +kernel, by decide +kernel, by decide +kernel⟩

theorem meets_FlitsAreAcknowledgedAndReplayed_fa1 :
    let s : State := fl { st := PortState.active, txSeq := 9, replay := [(7, bd), (8, bd)], rxSeq := 7, unacked := 4, lastProgress := 3000 }
    let q : Port := s.portAt 2
    (q.up = true) ∧
    (0 < q.unacked ∨ 512 ≤ q.replay.length) ∧
    (s.pkg.st ≠ PkgState.failed) := by decide +kernel

theorem meets_FlitsAreAcknowledgedAndReplayed_fa2 :
    let s : State := fl { st := PortState.active, txSeq := 9, replay := [(7, bd), (8, bd)], rxSeq := 7, lastProgress := 3000 }
    let q : Port := s.portAt 2
    (q.unacked = 0) ∧
    (q.replay.length < 512) := by decide +kernel

theorem meets_FlitsAreAcknowledgedAndReplayed_fr1 :
    let s : State := fl { st := PortState.active, txSeq := 9, replay := [(7, bd), (8, bd)], rxSeq := 7, lastProgress := 3000 } 4999
    let q : Port := s.portAt 2
    (q.replay = [] ∨ s.pkg.up < q.lastProgress + 2000) := by decide +kernel

theorem meets_FlitsAreAcknowledgedAndReplayed_fr2 :
    let s : State := fl { st := PortState.active, txSeq := 9, replay := [(7, bd), (8, bd)], rxSeq := 7, lastProgress := 3000 }
    let q : Port := s.portAt 2
    (q.up = true) ∧
    (q.txRestripe = none) ∧
    (q.replay ≠ []) ∧
    (q.lastProgress + 2000 ≤ s.pkg.up) := by decide +kernel

theorem meets_AttestationAndFlash_at1 :
    let s : State := { base with attest := { st := 1 } }
    let a : Attest := s.attest
    (a.st = 1#3 ∨ s.pkg.st = PkgState.reset) := by decide +kernel

theorem meets_AttestationAndFlash_at1r :
    let s : State := { base with pkg := { } }
    let a : Attest := s.attest
    (a.st = 1#3 ∨ s.pkg.st = PkgState.reset) := by decide +kernel

theorem meets_AttestationAndFlash_at3 :
    let s : State := { base with flash := { leaf := 2 ^ 20 }, attest := { st := 2 } }
    let a : Attest := s.attest
    (a.st ≠ 1#3) ∧
    (s.pkg.st ≠ PkgState.reset) ∧
    (2 ^ 20 ≤ s.flash.leaf) := by decide +kernel

theorem meets_AttestationAndFlash_at2 :
    let s : State := { base with contexts := [(1, { desc := [(0, BitVec.ofNat 64 (2 ^ 56))] })], attest := { st := 3 } }
    let a : Attest := s.attest
    let world : BitVec 8 := (s.ctxAt (1 % 4096)).world
    let mine : Prop := (BitVec.getLsbD 1#64 12 = true ∨
        match Via.host with
        | Via.host => world = 0#8
        | Via.guest g => g ≠ 0#8 ∧ world = g)
    (a.st ≠ 1#3) ∧
    (s.pkg.st ≠ PkgState.reset) ∧
    (s.flash.leaf < 2 ^ 20) ∧
    (¬mine ∨ s.flashAnswers = false) := by decide +kernel

theorem meets_AttestationAndFlash_at2f :
    let s : State := { base with pkg := { st := PkgState.serving, flashSeen := 4 }, flash := { counter := 3 } }
    let a : Attest := s.attest
    let world : BitVec 8 := (s.ctxAt (69633 % 4096)).world
    let mine : Prop := (BitVec.getLsbD 0x11001#64 12 = true ∨
        match Via.host with
        | Via.host => world = 0#8
        | Via.guest g => g ≠ 0#8 ∧ world = g)
    (a.st ≠ 1#3) ∧
    (s.pkg.st ≠ PkgState.reset) ∧
    (s.flash.leaf < 2 ^ 20) ∧
    (¬mine ∨ s.flashAnswers = false) := by decide +kernel

theorem meets_AttestationAndFlash_at4 :
    let s : State := { base with flash := { leaf := 2 ^ 20 - 1 }, attest := { st := 2 } }
    let a : Attest := s.attest
    let world : BitVec 8 := (s.ctxAt (69633 % 4096)).world
    let mine : Prop := (BitVec.getLsbD 0x11001#64 12 = true ∨
        match Via.host with
        | Via.host => world = 0#8
        | Via.guest g => g ≠ 0#8 ∧ world = g)
    (a.st ≠ 1#3) ∧
    (s.pkg.st ≠ PkgState.reset) ∧
    (s.flash.leaf < 2 ^ 20) ∧
    (mine) ∧
    (s.flashAnswers = true) := by decide +kernel

theorem meets_AttestationAndFlash_at5 :
    let s : State := { base with attest := { st := 2 } }
    let a : Attest := s.attest
    (a.st ≠ 1#3 ∨ s.pkg.st = PkgState.reset) := by decide +kernel

theorem meets_AttestationAndFlash_at6 :
    let s : State := { base with attest := { st := 1 } }
    let a : Attest := s.attest
    (a.st = 1#3) ∧
    (s.pkg.st ≠ PkgState.reset) := by decide +kernel

theorem meets_AttestationAndFlash_fu1 :
    let s : State := { base with pkg := { st := PkgState.quiesced }, flash := { recoveryFloor := 5 } }
    let image : Image := { length := 1, version := 4, bytes := [1], key := [], signature := [] }
    let floor : BitVec 32 := if true = true then s.flash.recoveryFloor else s.flash.bitstreamFloor
    let good : Prop := image.length = image.bytes.length ∧ shake256 image.key 64 = Config.romKeyDigest ∧ Config.xmssVerify image.key (bytesLE 8 image.length ++ bytesLE 4 image.version.toNat ++ image.bytes) image.signature = true ∧ floor.toNat ≤ image.version.toNat
    (s.pkg.st ≠ PkgState.quiesced ∨ ¬good ∨ s.flashAnswers = false) := by
  intro s image floor good
  exact Or.inr (Or.inl (fun hg => absurd hg.2.2.2 (by decide +kernel)))

theorem meets_AttestationAndFlash_fu0 :
    let s : State := { base with pkg := { st := PkgState.draining } }
    let image : Image := { length := 1, version := 4, bytes := [1], key := [], signature := [] }
    let floor : BitVec 32 := if false = true then s.flash.recoveryFloor else s.flash.bitstreamFloor
    let good : Prop := image.length = image.bytes.length ∧ shake256 image.key 64 = Config.romKeyDigest ∧ Config.xmssVerify image.key (bytesLE 8 image.length ++ bytesLE 4 image.version.toNat ++ image.bytes) image.signature = true ∧ floor.toNat ≤ image.version.toNat
    (s.pkg.st ≠ PkgState.quiesced ∨ ¬good ∨ s.flashAnswers = false) := by
  intro s image floor good
  exact Or.inl (by decide +kernel)

theorem meets_AttachmentAndMonitors_uc1 :
    let s : State := { base with pkg := { st := PkgState.serving, ucieDown := 4 } }
    (2 < 4) ∧
    (s.pkg.ucieDown.getLsbD 2 = true) := by decide +kernel

theorem meets_AttachmentAndMonitors_uc2 :
    let s : State := { base with pkg := { st := PkgState.serving } }
    (2 < 4) ∧
    (s.pkg.ucieDown.getLsbD 2 = false) := by decide +kernel

theorem meets_AttachmentAndMonitors_uc3 :
    let s : State := { base with pkg := { st := PkgState.serving } }
    let down : BitVec 4 := s.pkg.ucieDown ||| 1#4 <<< 2
    (2 < 4) ∧
    (s.pkg.ucieDown.getLsbD 2 = false) ∧
    (down ≠ 15#4) := by decide +kernel

theorem meets_AttachmentAndMonitors_uc4 :
    let s : State := { base with pkg := { st := PkgState.serving, ucieDown := 11 } }
    let down : BitVec 4 := s.pkg.ucieDown ||| 1#4 <<< 2
    (2 < 4) ∧
    (s.pkg.ucieDown.getLsbD 2 = false) ∧
    (down = 15#4) ∧
    (s.pkg.st ≠ PkgState.reset) ∧
    (s.pkg.st ≠ PkgState.failed) := by decide +kernel

theorem meets_AttachmentAndMonitors_uc5 :
    let s : State := { base with pkg := { st := PkgState.serving, ucieDown := 15 } }
    (2 < 4) ∧
    (s.pkg.ucieDown.getLsbD 2 = true) := by decide +kernel

theorem meets_AttachmentAndMonitors_cr1 :
    let s : State := { base with pkg := { st := PkgState.failed } }
    let on : Prop := s.pkg.st = PkgState.train ∨ s.pkg.st = PkgState.serving ∨ s.pkg.st = PkgState.draining ∨ s.pkg.st = PkgState.quiesced
    (¬on) := by decide +kernel

theorem meets_AttachmentAndMonitors_cr2 :
    let s : State := { base with pkg := { st := PkgState.train } }
    let on : Prop := s.pkg.st = PkgState.train ∨ s.pkg.st = PkgState.serving ∨ s.pkg.st = PkgState.draining ∨ s.pkg.st = PkgState.quiesced
    (on) := by decide +kernel

theorem meets_AttachmentAndMonitors_cr3 :
    let s : State := { base with pkg := { st := PkgState.train } }
    let on : Prop := s.pkg.st = PkgState.train ∨ s.pkg.st = PkgState.serving ∨ s.pkg.st = PkgState.draining ∨ s.pkg.st = PkgState.quiesced
    (on) := by decide +kernel

theorem meets_AttachmentAndMonitors_cr4 :
    let s : State := { base with pkg := { st := PkgState.train, ns := 1000000001, up := 1000000001, frameFails := [(6, [1, 2])] } }
    let on : Prop := s.pkg.st = PkgState.train ∨ s.pkg.st = PkgState.serving ∨ s.pkg.st = PkgState.draining ∨ s.pkg.st = PkgState.quiesced
    let recent : List Nat := List.filter (fun t => decide (s.pkg.up ≤ t + 1000000000)) (Tbl.get [] s.pkg.frameFails 6)
    (on) ∧
    (2 ≤ recent.length) := by decide +kernel

theorem meets_AttachmentAndMonitors_cr5 :
    let s : State := { base with pkg := { st := PkgState.train, ns := 1000000001, up := 1000000001, frameFails := [(6, [1, 0])] } }
    let on : Prop := s.pkg.st = PkgState.train ∨ s.pkg.st = PkgState.serving ∨ s.pkg.st = PkgState.draining ∨ s.pkg.st = PkgState.quiesced
    let recent : List Nat := List.filter (fun t => decide (s.pkg.up ≤ t + 1000000000)) (Tbl.get [] s.pkg.frameFails 6)
    (on) ∧
    (recent.length < 2) := by decide +kernel

theorem meets_PackageTime_pt0 :
    let s : State := { base with pkg := { st := PkgState.serving, ns := 2000000, up := 2000000 }, ports := [(2, { st := PortState.seek })], ptp := { master := some 5, syncAt := [(5, 7, 1500, false)], syncUp := [(5, 1999000)] } }
    let runs : Prop := s.pkg.st = PkgState.train ∨ s.pkg.st = PkgState.serving ∨ s.pkg.st = PkgState.draining ∨ s.pkg.st = PkgState.quiesced
    let heard : Prop := runs ∧ 2 < 80 ∧ peerFacing 2 = false ∧ (s.portAt 2).up = true
    (¬heard) := by decide +kernel

theorem meets_PackageTime_pt1r :
    let s : State := { base with pkg := { st := PkgState.serving, ns := 2000000, up := 2000000 }, ports := [(2, { st := PortState.active })], ptp := { master := some 5, syncAt := [(5, 7, 1500, false)], syncUp := [(5, 1999000)] } }
    let runs : Prop := s.pkg.st = PkgState.train ∨ s.pkg.st = PkgState.serving ∨ s.pkg.st = PkgState.draining ∨ s.pkg.st = PkgState.quiesced
    let heard : Prop := runs ∧ 2 < 80 ∧ peerFacing 2 = false ∧ (s.portAt 2).up = true
    (heard) ∧
    (s.ptp.syncAt.find? 5 = some (7, 1500, false)) := by decide +kernel

theorem meets_PackageTime_pt1 :
    let s : State := { base with pkg := { st := PkgState.serving, ns := 2000000, up := 2000000 }, ports := [(2, { st := PortState.active })], ptp := { } }
    let runs : Prop := s.pkg.st = PkgState.train ∨ s.pkg.st = PkgState.serving ∨ s.pkg.st = PkgState.draining ∨ s.pkg.st = PkgState.quiesced
    let heard : Prop := runs ∧ 2 < 80 ∧ peerFacing 2 = false ∧ (s.portAt 2).up = true
    (heard) ∧
    (∀ (n t2 : Nat) (fu : Bool), s.ptp.syncAt.find? 5 = some (n, t2, fu) → n ≠ 7) := by
  intro s runs heard
  exact ⟨by decide +kernel, (fun n t2 fu hf => noSync n t2 fu hf)⟩

theorem meets_PackageTime_pt2 :
    let s : State := { base with pkg := { st := PkgState.serving, ns := 2000000, up := 2000000 }, ports := [(2, { st := PortState.active })], ptp := { good := 7, master := some 5, syncAt := [(5, 7, 1500, false)], syncUp := [(5, 1999000)] } }
    let runs : Prop := s.pkg.st = PkgState.train ∨ s.pkg.st = PkgState.serving ∨ s.pkg.st = PkgState.draining ∨ s.pkg.st = PkgState.quiesced
    let heard : Prop := runs ∧ 2 < 80 ∧ peerFacing 2 = false ∧ (s.portAt 2).up = true
    let mine : Prop := s.ptp.master = some 5
    (heard) ∧
    (mine) ∧
    (s.ptp.syncAt.find? 5 = some (7, 1500, false)) := by decide +kernel

theorem meets_PackageTime_pt2s :
    let s : State := { base with pkg := { st := PkgState.serving, ns := 62505000, up := 62505000 }, ports := [(2, { st := PortState.active })], ptp := { master := some 5, since := some 5000, syncAt := [(5, 7, 1500, false)], syncUp := [(5, 1999000)] } }
    let runs : Prop := s.pkg.st = PkgState.train ∨ s.pkg.st = PkgState.serving ∨ s.pkg.st = PkgState.draining ∨ s.pkg.st = PkgState.quiesced
    let heard : Prop := runs ∧ 2 < 80 ∧ peerFacing 2 = false ∧ (s.portAt 2).up = true
    let mine : Prop := s.ptp.master = some 5
    (heard) ∧
    (mine) ∧
    (s.ptp.syncAt.find? 5 = some (7, 1500, false)) := by decide +kernel

theorem meets_PackageTime_pt3 :
    let s : State := { base with pkg := { st := PkgState.train, ns := 2000000, up := 2000000 }, ports := [(2, { st := PortState.active })], ptp := { master := some 5, syncAt := [(5, 7, 1500, false)], syncUp := [(5, 1999000)] } }
    let runs : Prop := s.pkg.st = PkgState.train ∨ s.pkg.st = PkgState.serving ∨ s.pkg.st = PkgState.draining ∨ s.pkg.st = PkgState.quiesced
    let heard : Prop := runs ∧ 2 < 80 ∧ peerFacing 2 = false ∧ (s.portAt 2).up = true
    let mine : Prop := s.ptp.master = some 5
    (heard) ∧
    (mine) ∧
    (s.ptp.syncAt.find? 5 = some (7, 1500, false)) := by decide +kernel

theorem meets_PackageTime_pt3b :
    let s : State := { base with pkg := { st := PkgState.train, ns := 2000000, up := 2000000 }, pool := { pages := [(3, { st := PageState.leased })] }, ports := [(2, { st := PortState.active })], ptp := { master := some 5, syncAt := [(5, 7, 1500, false)], syncUp := [(5, 1999000)] } }
    let runs : Prop := s.pkg.st = PkgState.train ∨ s.pkg.st = PkgState.serving ∨ s.pkg.st = PkgState.draining ∨ s.pkg.st = PkgState.quiesced
    let heard : Prop := runs ∧ 2 < 80 ∧ peerFacing 2 = false ∧ (s.portAt 2).up = true
    let mine : Prop := s.ptp.master = some 5
    (heard) ∧
    (mine) ∧
    (s.ptp.syncAt.find? 5 = some (7, 1500, false)) := by decide +kernel

theorem meets_PackageTime_pt4 :
    let s : State := { base with pkg := { st := PkgState.serving, ns := 2000000, up := 2000000 }, ports := [(2, { st := PortState.active })], ptp := { master := some 5, syncAt := [(5, 7, 1500, false)], syncUp := [(5, 1999000)] } }
    let runs : Prop := s.pkg.st = PkgState.train ∨ s.pkg.st = PkgState.serving ∨ s.pkg.st = PkgState.draining ∨ s.pkg.st = PkgState.quiesced
    let heard : Prop := runs ∧ 2 < 80 ∧ peerFacing 2 = false ∧ (s.portAt 2).up = true
    let mine : Prop := s.ptp.master = some 5
    (heard) ∧
    (mine) ∧
    (s.ptp.syncAt.find? 5 = some (7, 1500, false)) := by decide +kernel

theorem meets_PackageTime_pt4b :
    let s : State := { base with pkg := { st := PkgState.serving, ns := 2000000, up := 2000000 }, ports := [(2, { st := PortState.active })], ptp := { master := some 5, syncAt := [(5, 7, 1500, false)], syncUp := [(5, 1999000)] } }
    let runs : Prop := s.pkg.st = PkgState.train ∨ s.pkg.st = PkgState.serving ∨ s.pkg.st = PkgState.draining ∨ s.pkg.st = PkgState.quiesced
    let heard : Prop := runs ∧ 2 < 80 ∧ peerFacing 2 = false ∧ (s.portAt 2).up = true
    let mine : Prop := s.ptp.master = some 5
    (heard) ∧
    (mine) ∧
    (s.ptp.syncAt.find? 5 = some (7, 1500, false)) := by decide +kernel

theorem meets_PackageTime_pt4c :
    let s : State := { base with pkg := { st := PkgState.serving, ns := 2000000, up := 2000000 }, ports := [(2, { st := PortState.active })], ptp := { master := some 5, syncAt := [(5, 7, 1500, false)], syncUp := [(5, 1999000)] } }
    let runs : Prop := s.pkg.st = PkgState.train ∨ s.pkg.st = PkgState.serving ∨ s.pkg.st = PkgState.draining ∨ s.pkg.st = PkgState.quiesced
    let heard : Prop := runs ∧ 2 < 80 ∧ peerFacing 2 = false ∧ (s.portAt 2).up = true
    let mine : Prop := s.ptp.master = some 5
    (heard) ∧
    (mine) ∧
    (s.ptp.syncAt.find? 5 = some (7, 1500, false)) := by decide +kernel

theorem meets_PackageTime_pt4n :
    let s : State := { base with pkg := { st := PkgState.serving, ns := 2000000, up := 2000000 }, ports := [(2, { st := PortState.active })], ptp := { syncAt := [(5, 7, 1500, false)] } }
    let runs : Prop := s.pkg.st = PkgState.train ∨ s.pkg.st = PkgState.serving ∨ s.pkg.st = PkgState.draining ∨ s.pkg.st = PkgState.quiesced
    let heard : Prop := runs ∧ 2 < 80 ∧ peerFacing 2 = false ∧ (s.portAt 2).up = true
    let mine : Prop := s.ptp.master = some 5
    (heard) ∧
    (¬mine) ∧
    (s.ptp.syncAt.find? 5 = some (7, 1500, false)) := by decide +kernel

theorem meets_PackageTime_pt5 :
    let s : State := { base with pkg := { st := PkgState.serving, ns := 2000000, up := 2000000 }, ports := [(2, { st := PortState.active })], ptp := { master := some 5, syncAt := [(5, 7, 1500, false)], syncUp := [(5, 1999000)] } }
    let runs : Prop := s.pkg.st = PkgState.train ∨ s.pkg.st = PkgState.serving ∨ s.pkg.st = PkgState.draining ∨ s.pkg.st = PkgState.quiesced
    let heard : Prop := runs ∧ 2 < 80 ∧ peerFacing 2 = false ∧ (s.portAt 2).up = true
    (heard) ∧
    (s.ptp.syncAt.find? 5 = some (7, 1500, false)) ∧
    (7 ≠ 8 ∨ false = true) := by decide +kernel

theorem meets_PackageTime_pt6 :
    let s : State := { base with pkg := { st := PkgState.serving, ns := 2000000, up := 2000000 }, ports := [(2, { st := PortState.active })], ptp := { pair := [(5, 1400, 1500)], reqAt := [(5, 7, 1800)] } }
    let runs : Prop := s.pkg.st = PkgState.train ∨ s.pkg.st = PkgState.serving ∨ s.pkg.st = PkgState.draining ∨ s.pkg.st = PkgState.quiesced
    let heard : Prop := runs ∧ 2 < 80 ∧ peerFacing 2 = false ∧ (s.portAt 2).up = true
    (heard) ∧
    (s.ptp.reqAt.find? 5 = some (7, 1800)) ∧
    (s.ptp.pair.find? 5 = some (1400, 1500)) ∧
    (7 = 7) := by decide +kernel

theorem meets_PackageTime_pt6n :
    let s : State := { base with pkg := { st := PkgState.serving, ns := 2000000, up := 2000000 }, ports := [(2, { st := PortState.active })], ptp := { pair := [(5, 1400, 1500)], reqAt := [(5, 7, 1800)] } }
    let runs : Prop := s.pkg.st = PkgState.train ∨ s.pkg.st = PkgState.serving ∨ s.pkg.st = PkgState.draining ∨ s.pkg.st = PkgState.quiesced
    let heard : Prop := runs ∧ 2 < 80 ∧ peerFacing 2 = false ∧ (s.portAt 2).up = true
    (heard) ∧
    (s.ptp.reqAt.find? 5 = some (7, 1800)) ∧
    (s.ptp.pair.find? 5 = some (1400, 1500)) ∧
    (7 ≠ 8) := by decide +kernel

theorem meets_PackageTime_pt7 :
    let s : State := { base with pkg := { st := PkgState.serving, ns := 2000000, up := 2000000 }, ports := [(2, { st := PortState.active })], ptp := { master := some 5, syncAt := [(5, 7, 1500, false)], syncUp := [(5, 1999000)] } }
    let runs : Prop := s.pkg.st = PkgState.train ∨ s.pkg.st = PkgState.serving ∨ s.pkg.st = PkgState.draining ∨ s.pkg.st = PkgState.quiesced
    let heard : Prop := runs ∧ 2 < 80 ∧ peerFacing 2 = false ∧ (s.portAt 2).up = true
    (heard) := by decide +kernel

theorem meets_PackageTime_pt8 :
    let s : State := { base with pkg := { st := PkgState.serving, ns := 2000000, up := 2000000 }, ports := [(2, { st := PortState.active })], ptp := { } }
    (s.ptp.lastSync = none) := by decide +kernel

theorem meets_PackageTime_pt9 :
    let s : State := { base with pkg := { st := PkgState.serving, ns := 2000000, up := 2000000 }, ports := [(2, { st := PortState.active })], ptp := { master := some 5, lastSync := some 1500, syncAt := [(5, 7, 1500, false)], syncUp := [(5, 1999000)] } }
    let runs : Prop := s.pkg.st = PkgState.train ∨ s.pkg.st = PkgState.serving ∨ s.pkg.st = PkgState.draining ∨ s.pkg.st = PkgState.quiesced
    let k : Nat := s.ptp.missed + 1
    let due : Prop := runs ∧ 1500 + (2 * k + 1) * 3906250 ≤ s.pkg.up
    (s.ptp.lastSync = some 1500) ∧
    (¬due) := by decide +kernel

theorem meets_PackageTime_pta :
    let s : State := { base with pkg := { st := PkgState.serving, ns := 35157750, up := 35157750 }, ports := [(2, { st := PortState.active })], ptp := { lock := true, missed := 3, master := some 5, lastSync := some 1500, syncAt := [(5, 7, 1500, false)], syncUp := [(5, 1999000)] } }
    let runs : Prop := s.pkg.st = PkgState.train ∨ s.pkg.st = PkgState.serving ∨ s.pkg.st = PkgState.draining ∨ s.pkg.st = PkgState.quiesced
    let k : Nat := s.ptp.missed + 1
    let due : Prop := runs ∧ 1500 + (2 * k + 1) * 3906250 ≤ s.pkg.up
    (s.ptp.lastSync = some 1500) ∧
    (due) := by decide +kernel

theorem meets_PackageTime_ptb :
    let s : State := { base with pkg := { ns := 2000000, up := 2000000 }, ports := [(2, { st := PortState.active })], ptp := { master := some 5, syncAt := [(5, 7, 1500, false)], syncUp := [(5, 1999000)] } }
    let runs : Prop := s.pkg.st = PkgState.train ∨ s.pkg.st = PkgState.serving ∨ s.pkg.st = PkgState.draining ∨ s.pkg.st = PkgState.quiesced
    (s.ptp.master = none ∨ ¬runs ∨ ∃ t0, s.ptp.reqUp = some t0 ∧ s.pkg.up < t0 + 7812500) := by
  intro s runs
  exact Or.inr (Or.inl (by decide +kernel))

theorem meets_PackageTime_ptbn :
    let s : State := { base with pkg := { st := PkgState.serving, ns := 2000000, up := 2000000 }, ports := [(2, { st := PortState.active })], ptp := { } }
    let runs : Prop := s.pkg.st = PkgState.train ∨ s.pkg.st = PkgState.serving ∨ s.pkg.st = PkgState.draining ∨ s.pkg.st = PkgState.quiesced
    (s.ptp.master = none ∨ ¬runs ∨ ∃ t0, s.ptp.reqUp = some t0 ∧ s.pkg.up < t0 + 7812500) := by
  intro s runs
  exact Or.inl (by decide +kernel)

theorem meets_PackageTime_ptbi :
    let s : State := { base with pkg := { st := PkgState.serving, ns := 2000000, up := 2000000 }, ports := [(2, { st := PortState.active })], ptp := { master := some 5, syncAt := [(5, 7, 1500, false)], syncUp := [(5, 1999000)], reqUp := some 1999999 } }
    let runs : Prop := s.pkg.st = PkgState.train ∨ s.pkg.st = PkgState.serving ∨ s.pkg.st = PkgState.draining ∨ s.pkg.st = PkgState.quiesced
    (s.ptp.master = none ∨ ¬runs ∨ ∃ t0, s.ptp.reqUp = some t0 ∧ s.pkg.up < t0 + 7812500) := by
  intro s runs
  exact Or.inr (Or.inr ⟨1999999, by decide +kernel, by decide +kernel⟩)

theorem meets_PackageTime_ptc :
    let s : State := { base with pkg := { st := PkgState.serving, ns := 2000000, up := 2000000 }, ports := [(2, { st := PortState.active })], ptp := { master := some 5, syncAt := [(5, 7, 1500, false)], syncUp := [(5, 1999000)] } }
    let runs : Prop := s.pkg.st = PkgState.train ∨ s.pkg.st = PkgState.serving ∨ s.pkg.st = PkgState.draining ∨ s.pkg.st = PkgState.quiesced
    let mine : Prop := s.ptp.master = some 5
    (mine) ∧
    (runs) ∧
    (∀ (t0 : Nat), s.ptp.reqUp = some t0 → t0 + 7812500 ≤ s.pkg.up) := by
  intro s runs mine
  exact ⟨by decide +kernel, by decide +kernel, (fun t0 h => nomatch (show (none : Option Nat) = some t0 from h))⟩

theorem meets_PackageTime_ptci :
    let s : State := { base with pkg := { st := PkgState.serving, ns := 7812505, up := 7812505 }, ports := [(2, { st := PortState.active })], ptp := { master := some 5, syncAt := [(5, 7, 1500, false)], syncUp := [(5, 1999000)], reqUp := some 5 } }
    let runs : Prop := s.pkg.st = PkgState.train ∨ s.pkg.st = PkgState.serving ∨ s.pkg.st = PkgState.draining ∨ s.pkg.st = PkgState.quiesced
    let mine : Prop := s.ptp.master = some 5
    (mine) ∧
    (runs) ∧
    (∀ (t0 : Nat), s.ptp.reqUp = some t0 → t0 + 7812500 ≤ s.pkg.up) := by
  intro s runs mine
  exact ⟨by decide +kernel, by decide +kernel, (fun t0 h => Option.some.inj (show some 5 = some t0 from h) ▸ by decide +kernel)⟩

theorem meets_PackageTime_ptd0 :
    let s : State := { base with pkg := { st := PkgState.serving, ns := 2000000, up := 2000000 }, ports := [(2, { st := PortState.active })], ptp := { } }
    (s.ptp.heardAt.find? 5 = none) := by decide +kernel

theorem meets_PackageTime_ptd :
    let s : State := { base with pkg := { st := PkgState.serving, ns := 2000000, up := 2000000 }, ports := [(2, { st := PortState.active })], ptp := { heardAt := [(5, 5)] } }
    (s.ptp.heardAt.find? 5 = some 5) ∧
    (s.pkg.up < 5 + 3000000000) := by decide +kernel

theorem meets_PackageTime_pte :
    let s : State := { base with pkg := { st := PkgState.serving, ns := 3000000005, up := 3000000005 }, ports := [(2, { st := PortState.active })], ptp := { announced := [(5, [1]), (6, [2, 3])], heardAt := [(5, 5)] } }
    (s.ptp.heardAt.find? 5 = some 5) ∧
    (5 + 3000000000 ≤ s.pkg.up) := by decide +kernel

/-- Whatever image the opaque verification takes, an update with it meets the premises. -/
theorem meets_AttestationAndFlash_fu2 (key sig : List Byte) (hk : shake256 key 64 = Config.romKeyDigest)
    (hv : Config.xmssVerify key (bytesLE 8 0 ++ bytesLE 4 0 ++ []) sig = true) :
    let s : State := { base with pkg := { st := .quiesced } }
    let image : Image := { length := 0, version := 0, bytes := [], key := key, signature := sig }
    ∀ recovery : Bool,
    let floor := if recovery then s.flash.recoveryFloor else s.flash.bitstreamFloor
    s.pkg.st = .quiesced ∧ (image.length = image.bytes.length ∧ shake256 image.key 64 = Config.romKeyDigest ∧
      Config.xmssVerify image.key (bytesLE 8 image.length ++ bytesLE 4 image.version.toNat ++ image.bytes) image.signature = true ∧
      floor.toNat ≤ image.version.toNat) ∧ s.flashAnswers = true := by
  intro s image recovery floor
  exact ⟨rfl, ⟨rfl, hk, hv, by cases recovery <;> exact Nat.le_refl 0⟩, by decide +kernel⟩

end Sys2Proof.Tests.Flits
end

