-- ==== Sys2Proof/Tests/Memory.lean ====
section
/-! SUPPORT. States that meet the hypotheses of the statements about memory. -/

namespace Sys2Proof.Tests.Accesses
open Sys2Proof Sys2Proof.Machine Sys2Proof.Claims
set_option Elab.async false

def hx (a b : Word) : State := mapped (withX a b)
def stH : Instr := .stHTwoWord bare 1 0 0 3 60 0 0
def stHa : Access := { store := true, reg := 1, addr := 8, poison := false, bytes := 8 }
def full : State := (hx 8 1).modGroup 1 (fun x => { x with ver := { h := (List.range 9000).map (fun k => (k * 64, 1)) } })

theorem meets_ScratchpadAccess_smis :
    let i : Instr := Instr.ldSTwoWord bare 2 0 3 60 0 0
    let s : State := withX 16380 0
    let m : Access := { store := false, reg := 2, addr := 16380, poison := false, bytes := 8 }
    let a : Int := m.addr
    (accessS i s.me = some m) ∧
    (s.issues i 1 = true) ∧
    (m.poison = false) ∧
    (a % ↑m.bytes ≠ 0) := by decide +kernel

theorem meets_ScratchpadAccess_sout :
    let i : Instr := Instr.stSTwoWord bare 1 0 3 60 0 0
    let s : State := withX 16384 0
    let m : Access := { store := true, reg := 1, addr := 16384, poison := false, bytes := 8 }
    let a : Int := m.addr
    (accessS i s.me = some m) ∧
    (s.issues i 1 = true) ∧
    (m.poison = false) ∧
    (a % ↑m.bytes = 0) ∧
    (s.sLoc s.core s.grp a m.bytes = SLoc.outside) := by decide +kernel

theorem meets_ScratchpadAccess_sst :
    let i : Instr := Instr.stSTwoWord bare 1 0 3 60 0 0
    let s : State := withX 16376 1234605616436508552
    let m : Access := { store := true, reg := 1, addr := 16376, poison := false, bytes := 8 }
    let g : State := s.granted i 1
    let a : Int := m.addr
    let as : List Nat := addrs 16376 8
    let r : List Byte × Bool × State := g.sRead s.core as
    let s' : State := if m.store = true then (g.sWrite s.core as (bytesLE m.bytes (BitVec.toNat (s.me.rd m.reg).v)) (s.me.rd m.reg).poison).watch a.toNat m.bytes false true else afterLoad (r.snd.snd.watch a.toNat m.bytes true false) m.reg false r.fst r.snd.fst
    (accessS i s.me = some m) ∧
    (s.issues i 1 = true) ∧
    (m.poison = false) ∧
    (a % ↑m.bytes = 0) ∧
    (s.sLoc s.core s.grp a m.bytes = SLoc.ok as) ∧
    (s.hasRoom i s' = true) := by decide +kernel

theorem meets_ScratchpadAccess_sld :
    let i : Instr := Instr.ldSOneWord bare 2 0 15
    let s : State := withX 16 0
    let m : Access := { store := false, reg := 2, addr := 8, poison := false, bytes := 8 }
    let g : State := s.granted i 1
    let a : Int := m.addr
    let as : List Nat := addrs 8 8
    let r : List Byte × Bool × State := g.sRead s.core as
    let s' : State := if m.store = true then (g.sWrite s.core as (bytesLE m.bytes (BitVec.toNat (s.me.rd m.reg).v)) (s.me.rd m.reg).poison).watch a.toNat m.bytes false true else afterLoad (r.snd.snd.watch a.toNat m.bytes true false) m.reg false r.fst r.snd.fst
    (accessS i s.me = some m) ∧
    (s.issues i 1 = true) ∧
    (m.poison = false) ∧
    (a % ↑m.bytes = 0) ∧
    (s.sLoc s.core s.grp a m.bytes = SLoc.ok as) ∧
    (s.hasRoom i s' = true) := by decide +kernel

theorem meets_ScratchpadAccess_sabsent :
    let i : Instr := Instr.ldSOneWord bare 2 0 15
    let s : State := (withX 16 0).modCore 0 fun c => { c with pieces := [] }
    let m : Access := { store := false, reg := 2, addr := 8, poison := false, bytes := 8 }
    let a : Int := m.addr
    (accessS i s.me = some m) ∧
    (s.issues i 1 = true) ∧
    (m.poison = false) ∧
    (a % ↑m.bytes = 0) ∧
    (s.sLoc s.core s.grp a m.bytes = SLoc.absent) := by decide +kernel

theorem meets_HostSpaceAccess_hmis :
    let i : Instr := Instr.ldHTwoWord bare 2 0 0 1 60 0 0
    let s : State := hx 1 0
    let m : Access := { store := false, reg := 2, addr := 1, poison := false, bytes := 2 }
    let a : Int := m.addr
    (accessH i s.me = some m) ∧
    (s.issues i 1 = true) ∧
    (m.poison = false) ∧
    (m.store = true → (s.me.rd m.reg).poison = false) ∧
    (a % ↑m.bytes ≠ 0) := by decide +kernel

theorem meets_HostSpaceAccess_hout :
    let i : Instr := Instr.ldHTwoWord bare 2 0 0 3 60 0 0
    let s : State := hx 268435456 0
    let m : Access := { store := false, reg := 2, addr := 268435456, poison := false, bytes := 8 }
    let g : State := s.granted i 1
    let a : Int := m.addr
    let phys : Option Nat := g.hPhys s.myCtx a (if m.store = true then Right.wr else Right.rd)
    (accessH i s.me = some m) ∧
    (s.issues i 1 = true) ∧
    (m.poison = false) ∧
    (m.store = true → (s.me.rd m.reg).poison = false) ∧
    (a % ↑m.bytes = 0) ∧
    (phys = none) := by decide +kernel

theorem meets_HostSpaceAccess_hld :
    let i : Instr := Instr.ldHTwoWord bare 2 0 0 3 60 0 0
    let s : State := hx 268435448 0
    let m : Access := { store := false, reg := 2, addr := 268435448, poison := false, bytes := 8 }
    let g : State := s.granted i 1
    let a : Int := m.addr
    let phys : Option Nat := g.hPhys s.myCtx a (if m.store = true then Right.wr else Right.rd)
    let pa : Nat := 2 ^ 29 + 268435448
    let r : List Byte × Bool × State := g.readH s.grp g.me.mark.rf a.toNat pa m.bytes
    let s' : State := afterLoad r.snd.snd m.reg false r.fst r.snd.fst
    (accessH i s.me = some m) ∧
    (s.issues i 1 = true) ∧
    (m.poison = false) ∧
    (m.store = true → (s.me.rd m.reg).poison = false) ∧
    (a % ↑m.bytes = 0) ∧
    (phys = some pa) ∧
    (m.store = false) ∧
    (s.hasRoom i s' = true) := by decide +kernel

theorem meets_HostSpaceAccess_hst :
    let s : State := hx 8 1234605616436508552
    let g : State := s.granted stH 1
    let a : Int := stHa.addr
    let phys : Option Nat := g.hPhys s.myCtx a (if stHa.store = true then Right.wr else Right.rd)
    let pa : Nat := 2 ^ 29 + 8
    let ws : List (Nat × Byte) := place (addrs pa stHa.bytes) (bytesLE stHa.bytes (BitVec.toNat (s.me.rd stHa.reg).v))
    let s' : State := (g.acceptBytes 1 false (place (addrs pa 8) (bytesLE 8 1234605616436508552))).getD base
    (accessH stH s.me = some stHa) ∧
    (s.issues stH 1 = true) ∧
    (stHa.poison = false) ∧
    (stHa.store = true → (s.me.rd stHa.reg).poison = false) ∧
    (a % ↑stHa.bytes = 0) ∧
    (phys = some pa) ∧
    (stHa.store = true) ∧
    (g.acceptBytes s.grp false ws = some s') ∧
    (s.hasRoom stH s' = true) := by decide +kernel

theorem meets_WeightAndLiteralLoads_wout :
    let i : Instr := Instr.ldWTwoWord bare 2 0 0 3 60 0 0
    let s : State := hx 1073741824 0
    let m : Access := { store := false, reg := 2, addr := 1073741824, poison := false, bytes := 8 }
    let g : State := s.granted i 1
    let a : Int := m.addr
    (accessW i s.me = some m) ∧
    (s.issues i 1 = true) ∧
    (m.poison = false) ∧
    (a % ↑m.bytes = 0) ∧
    (g.wPhys s.myCtx a m.bytes = none) := by decide +kernel

theorem meets_WeightAndLiteralLoads_wmis :
    let i : Instr := Instr.ldWTwoWord bare 2 0 0 3 60 0 0
    let s : State := hx 4 0
    let m : Access := { store := false, reg := 2, addr := 4, poison := false, bytes := 8 }
    let a : Int := m.addr
    (accessW i s.me = some m) ∧
    (s.issues i 1 = true) ∧
    (m.poison = false) ∧
    (a % ↑m.bytes ≠ 0) := by decide +kernel

theorem meets_WeightAndLiteralLoads_wld :
    let i : Instr := Instr.ldWTwoWord bare 2 0 0 3 60 0 0
    let s : State := hx 1073741816 0
    let m : Access := { store := false, reg := 2, addr := 1073741816, poison := false, bytes := 8 }
    let g : State := s.granted i 1
    let a : Int := m.addr
    let r : List Byte × Bool × State := g.wRead 1073741816 m.bytes
    let s' : State := afterLoad r.snd.snd m.reg false r.fst r.snd.fst
    (accessW i s.me = some m) ∧
    (s.issues i 1 = true) ∧
    (m.poison = false) ∧
    (a % ↑m.bytes = 0) ∧
    (g.wPhys s.myCtx a m.bytes = some 1073741816) ∧
    (s.hasRoom i s' = true) := by decide +kernel

theorem meets_WeightAndLiteralLoads_litout :
    let s : State := hx 0 0
    let i : Instr := Instr.ldlit bare 2 4095
    let g : State := s.granted i 1
    let a : Int := 8 * (↑(s.me.pc.toNat / 8) + BitVec.toInt 4095#12)
    (s.issues i 1 = true) ∧
    ((g.iLeaf s.myCtx a fun _ => true) = none) := by decide +kernel

theorem meets_WeightAndLiteralLoads_litld :
    let s : State := hx 0 0
    let i : Instr := Instr.ldlit bare 2 2047
    let g : State := s.granted i 1
    let a : Int := 8 * (↑(s.me.pc.toNat / 8) + BitVec.toInt 2047#12)
    let l : Leaf := { pa := 2 ^ 29, size := 2 ^ 28, rd := true, wr := false, at_ := false, ex := true }
    let as : List Nat := addrs (l.pa + a.toNat % l.size) 8
    let r : List Byte × Bool × State := g.homeRead as
    let bytes : List Byte := if r.snd.fst = true then r.fst else g.bytesAt none as
    let s' : State := r.snd.snd.modMe fun t => t.result 2 { v := BitVec.ofNat 64 (natLE bytes), poison := r.snd.fst }
    (s.issues i 1 = true) ∧
    ((g.iLeaf s.myCtx a fun _ => true) = some (l, none)) ∧
    (s.hasRoom i s' = true) := by decide +kernel



end Sys2Proof.Tests.Accesses

namespace Sys2Proof.Tests.Fulls
open Sys2Proof Sys2Proof.Machine Sys2Proof.Claims
set_option Elab.async false

def hx (a b : Word) : State := mapped (withX a b)
def stH : Instr := .stHTwoWord bare 1 0 0 3 60 0 0
def stHa : Access := { store := true, reg := 1, addr := 8, poison := false, bytes := 8 }

theorem meets_HostSpaceAccess_hfull :
    let s : State := filled (hx 8 1)
    let g : State := s.granted stH 1
    let a : Int := stHa.addr
    let phys : Option Nat := g.hPhys s.myCtx a (if stHa.store = true then Right.wr else Right.rd)
    let pa : Nat := 2 ^ 29 + 8
    let ws : List (Nat × Byte) := place (addrs pa stHa.bytes) (bytesLE stHa.bytes (BitVec.toNat (s.me.rd stHa.reg).v))
    (accessH stH s.me = some stHa) ∧
    (s.issues stH 1 = true) ∧
    (stHa.poison = false) ∧
    (stHa.store = true → (s.me.rd stHa.reg).poison = false) ∧
    (a % ↑stHa.bytes = 0) ∧
    (phys = some pa) ∧
    (stHa.store = true) ∧
    (g.acceptBytes s.grp false ws = none) := by decide +kernel



end Sys2Proof.Tests.Fulls

namespace Sys2Proof.Tests.Pools
open Sys2Proof Sys2Proof.Machine Sys2Proof.Claims
set_option Elab.async false

def ldP (o : BitVec 2) : Instr := .ldPTwoWord bare 2 o 1 0 3 0 0 0
def ldPa (a : Int) (po : Bool := false) : Access := { store := false, reg := 2, addr := a, poison := po, bytes := 8 }
def stP (o : BitVec 2) : Instr := .stPTwoWord bare 1 o 1 0 3 0 0 0
def stPa (a : Int) : Access := { store := true, reg := 1, addr := a, poison := false, bytes := 8 }
def pst : State := withMe { life := .running, x := [(0, { v := 4088 }), (1, { v := 3, poison := true })], c := [(1, { v := cap false })] }
def key : Nat := 5 * 2^48 + 4088
def ownedS : State := (withCap true 4088 0).modGroup 1 (fun x => { x with ver := { p := (List.range 8).map (fun k => (key + k, BitVec.ofNat 8 (k + 1))) } })
def rem : Remote := { kind := .homeRead key 4088 8, grp := 1, answer := some (0x0102030405060708, false) }
def homed : State := { (withCap true 4088 0) with pool := { token := some 1, remotes := [(3, rem)] } }
def homed2 : State := homed.modMe (fun t => { t with micro := { stage := 1, id := 3 } })
def pg : Page := { st := .leased, frame := [(4088, 9)], expiry := 10000000, granted := 10000000 }
def leased : State := { (withCap false 4088 0) with pool := { token := some 1, pages := [(5 * 2^32, pg)] } }
def askedPage (st : PageState) : State := { (withCap false 4088 0) with pool := { token := some 1, pages := [(5 * 2^32, { pg with st := st })] }, ptp := { lock := true } }
def dirty (t : Micro) : State := ((withCap false 4088 7).modMe (fun s => { s with micro := t })).modGroup 1 (fun x => { x with ver := { h := [(2^29, 1)] } })
def relFull : State := filled (withMe { (withCap false 4088 7).me with micro := { stage := 1, id := 9 } })

theorem meets_PoolAccessChecks_ppoison :
    let i : Instr := ldP 0
    let s : State := withCap false 8 0 true
    let m : Access := ldPa 8 true
    let cap : CapReg := s.me.cap 1
    (accessP i s.me = some (m, 1#4, 0#2, 0#2)) ∧
    (s.issues i 1 = true) ∧
    (m.poison = true ∨ cap.poison = true) := by decide +kernel

theorem meets_PoolAccessChecks_pmis :
    let i : Instr := ldP 0
    let s : State := withCap false 4097 0
    let m : Access := ldPa 4097
    let cap : CapReg := s.me.cap 1
    let a : Int := m.addr
    (accessP i s.me = some (m, 1#4, 0#2, 0#2)) ∧
    (s.issues i 1 = true) ∧
    (m.poison = false) ∧
    (cap.poison = false) ∧
    (a % ↑m.bytes ≠ 0) := by decide +kernel

theorem meets_PoolAccessChecks_pout :
    let i : Instr := ldP 0
    let s : State := withCap false 4096 0
    let m : Access := ldPa 4096
    let cap : CapReg := s.me.cap 1
    let a : Int := m.addr
    let inside : Prop := 0 ≤ a ∧ a + ↑m.bytes ≤ ↑(capLen cap.v) ∧ (if m.store = true then capWR cap.v else capRD cap.v) = true
    (accessP i s.me = some (m, 1#4, 0#2, 0#2)) ∧
    (s.issues i 1 = true) ∧
    (m.poison = false) ∧
    (cap.poison = false) ∧
    (a % ↑m.bytes = 0) ∧
    (¬inside) := by decide +kernel

theorem meets_PoolAccessChecks_pstp :
    let i : Instr := stP 0
    let m : Access := stPa 4088
    let cap : CapReg := pst.me.cap 1
    let a : Int := m.addr
    let inside : Prop := 0 ≤ a ∧ a + ↑m.bytes ≤ ↑(capLen cap.v) ∧ (if m.store = true then capWR cap.v else capRD cap.v) = true
    (accessP i pst.me = some (m, 1#4, 0#2, 0#2)) ∧
    (pst.issues i 1 = true) ∧
    (m.poison = false) ∧
    (cap.poison = false) ∧
    (a % ↑m.bytes = 0) ∧
    (inside) ∧
    (m.store = true) ∧
    ((pst.me.rd m.reg).poison = true) := by decide +kernel

theorem meets_PoolLoad_phomeAsks :
    let i : Instr := ldP 0
    let s : State := withCap true 4088 0
    let m : Access := ldPa 4088
    let cap : BitVec 128 := (s.me.cap 1).v
    let a : Int := m.addr
    (accessP i s.me = some (m, 1#4, 0#2, 0#2)) ∧
    (m.store = false) ∧
    (s.runs i = true) ∧
    (m.poison = false) ∧
    ((s.me.cap 1#4).poison = false) ∧
    (a % ↑m.bytes = 0) ∧
    (0 ≤ a) ∧
    (a + ↑m.bytes ≤ ↑(capLen cap)) ∧
    (capRD cap = true) ∧
    (capHome cap = true) ∧
    (s.me.micro.stage = 0) := by decide +kernel

theorem meets_PoolLoad_phomeAcq :
    let i : Instr := ldP 1
    let s : State := { homed2 with pool := { homed2.pool with remotes := [(3, { rem with answer := some (0, true) })] } }
    let m : Access := ldPa 4088
    let cap : BitVec 128 := (s.me.cap 1).v
    let a : Int := m.addr
    let acquire : Bool := 1 == 1
    let x : Remote := { rem with answer := some (0, true) }
    (accessP i s.me = some (m, 1#4, 1#2, 0#2)) ∧
    (m.store = false) ∧
    (s.runs i = true) ∧
    (m.poison = false) ∧
    ((s.me.cap 1#4).poison = false) ∧
    (a % ↑m.bytes = 0) ∧
    (0 ≤ a) ∧
    (a + ↑m.bytes ≤ ↑(capLen cap)) ∧
    (capRD cap = true) ∧
    (capHome cap = true) ∧
    (s.me.micro.stage ≠ 0) ∧
    (s.pool.remotes.find? s.me.micro.id = some x) ∧
    (x.answer = some (0#64, true)) ∧
    ((acquire && true) = true) := by decide +kernel

theorem meets_PoolLoad_phome :
    let i : Instr := ldP 0
    let m : Access := ldPa 4088
    let cap : BitVec 128 := (homed2.me.cap 1).v
    let a : Int := m.addr
    let acquire : Bool := 0 == 1
    let g : State := homed2.entered i
    let key : Nat := pKey cap a.toNat
    let own : List (Option Byte) := g.ownBytes key m.bytes
    let v : Word := 72623859790382856
    let s' : State := afterLoad (g.dropRemote homed2.me.micro.id) m.reg acquire (overlay own (overlay rem.own (bytesLE m.bytes (BitVec.toNat v)))) false
    (accessP i homed2.me = some (m, 1#4, 0#2, 0#2)) ∧
    (m.store = false) ∧
    (homed2.runs i = true) ∧
    (m.poison = false) ∧
    ((homed2.me.cap 1#4).poison = false) ∧
    (a % ↑m.bytes = 0) ∧
    (0 ≤ a) ∧
    (a + ↑m.bytes ≤ ↑(capLen cap)) ∧
    (capRD cap = true) ∧
    (capHome cap = true) ∧
    (homed2.me.micro.stage ≠ 0) ∧
    (homed2.pool.remotes.find? homed2.me.micro.id = some rem) ∧
    (rem.answer = some (v, false)) ∧
    ((acquire && false) = false) ∧
    (homed2.hasRoom i s' = true) := by decide +kernel

theorem meets_PoolLoad_pleased :
    let i : Instr := ldP 0
    let m : Access := ldPa 4088
    let cap : BitVec 128 := (leased.me.cap 1).v
    let a : Int := m.addr
    let acquire : Bool := 0 == 1
    let g : State := leased.entered i
    let key : Nat := pKey cap a.toNat
    let own : List (Option Byte) := g.ownBytes key m.bytes
    let f : List Byte × Bool × State := ((g.modPage (pageOf key) fun p => { p with reuse := 0 }).modPage (pageOf key) fun p => { p with requestedMs := max p.requestedMs (leaseMs cap) }).frameRead leased.grp (pageOf key) (key % 65536) m.bytes
    let s' : State := afterLoad (f.snd.snd.countMine 5 1) m.reg acquire (overlay own f.fst) f.snd.fst
    (accessP i leased.me = some (m, 1#4, 0#2, 0#2)) ∧
    (m.store = false) ∧
    (leased.runs i = true) ∧
    (m.poison = false) ∧
    ((leased.me.cap 1#4).poison = false) ∧
    (a % ↑m.bytes = 0) ∧
    (0 ≤ a) ∧
    (a + ↑m.bytes ≤ ↑(capLen cap)) ∧
    (capRD cap = true) ∧
    (capHome cap = false) ∧
    (leased.page? (pageOf key) = some pg) ∧
    (pg.st = PageState.leased) ∧
    (leased.pkg.ns + 20000 < pg.expiry) ∧
    ((acquire && f.snd.fst) = false) ∧
    (leased.hasRoom i s' = true) := by decide +kernel

theorem meets_PoolLoad_pabsent :
    let i : Instr := ldP 0
    let s : State := withCap false 4088 0
    let m : Access := ldPa 4088
    let cap : BitVec 128 := (s.me.cap 1).v
    let a : Int := m.addr
    let key : Nat := pKey cap a.toNat
    let pk : Nat := pageOf key
    (accessP i s.me = some (m, 1#4, 0#2, 0#2)) ∧
    (m.store = false) ∧
    (s.runs i = true) ∧
    (m.poison = false) ∧
    ((s.me.cap 1#4).poison = false) ∧
    (a % ↑m.bytes = 0) ∧
    (0 ≤ a) ∧
    (a + ↑m.bytes ≤ ↑(capLen cap)) ∧
    (capRD cap = true) ∧
    (capHome cap = false) ∧
    (s.page? pk = none) := by decide +kernel

theorem meets_PoolLoad_pabsentLocked :
    let i : Instr := ldP 0
    let s : State := { withCap false 4088 0 with ptp := { lock := true } }
    let m : Access := ldPa 4088
    let cap : BitVec 128 := (s.me.cap 1).v
    let a : Int := m.addr
    let key : Nat := pKey cap a.toNat
    let pk : Nat := pageOf key
    (accessP i s.me = some (m, 1#4, 0#2, 0#2)) ∧
    (m.store = false) ∧
    (s.runs i = true) ∧
    (m.poison = false) ∧
    ((s.me.cap 1#4).poison = false) ∧
    (a % ↑m.bytes = 0) ∧
    (0 ≤ a) ∧
    (a + ↑m.bytes ≤ ↑(capLen cap)) ∧
    (capRD cap = true) ∧
    (capHome cap = false) ∧
    (s.page? pk = none) ∧
    (s.ptp.lock = true) := by decide +kernel

theorem meets_PoolLoad_pdropped :
    let i : Instr := ldP 0
    let s : State := askedPage PageState.dropped
    let m : Access := ldPa 4088
    let cap : BitVec 128 := (s.me.cap 1).v
    let a : Int := m.addr
    let key : Nat := pKey cap a.toNat
    let pk : Nat := pageOf key
    let p : Page := { pg with st := PageState.dropped }
    (accessP i s.me = some (m, 1#4, 0#2, 0#2)) ∧
    (m.store = false) ∧
    (s.runs i = true) ∧
    (m.poison = false) ∧
    ((s.me.cap 1#4).poison = false) ∧
    (a % ↑m.bytes = 0) ∧
    (0 ≤ a) ∧
    (a + ↑m.bytes ≤ ↑(capLen cap)) ∧
    (capRD cap = true) ∧
    (capHome cap = false) ∧
    (s.page? pk = some p) ∧
    (p.st = PageState.dropped) ∧
    (s.ptp.lock = true) := by decide +kernel

theorem meets_PoolLoad_prequested :
    let i : Instr := ldP 0
    let s : State := askedPage PageState.requested
    let m : Access := ldPa 4088
    let cap : BitVec 128 := (s.me.cap 1).v
    let a : Int := m.addr
    let key : Nat := pKey cap a.toNat
    let pk : Nat := pageOf key
    let p : Page := { pg with st := PageState.requested }
    (accessP i s.me = some (m, 1#4, 0#2, 0#2)) ∧
    (m.store = false) ∧
    (s.runs i = true) ∧
    (m.poison = false) ∧
    ((s.me.cap 1#4).poison = false) ∧
    (a % ↑m.bytes = 0) ∧
    (0 ≤ a) ∧
    (a + ↑m.bytes ≤ ↑(capLen cap)) ∧
    (capRD cap = true) ∧
    (capHome cap = false) ∧
    (s.page? pk = some p) ∧
    (p.st = PageState.requested ∨ p.st = PageState.revoking) := by decide +kernel

theorem meets_PoolStore_pfull :
    let i : Instr := stP 0
    let s : State := filled (withCap false 4088 7)
    let m : Access := stPa 4088
    let cap : BitVec 128 := (s.me.cap 1).v
    let x : Reg := s.me.rd m.reg
    let a : Int := m.addr
    let g : State := s.entered i
    let ws : List (Nat × Byte) := place (addrs (pKey cap a.toNat) m.bytes) (bytesLE m.bytes (BitVec.toNat x.v))
    (accessP i s.me = some (m, 1#4, 0#2, 0#2)) ∧
    (m.store = true) ∧
    (s.issues i 1 = true) ∧
    (m.poison = false) ∧
    ((s.me.cap 1#4).poison = false) ∧
    (x.poison = false) ∧
    (a % ↑m.bytes = 0) ∧
    (0 ≤ a) ∧
    (a + ↑m.bytes ≤ ↑(capLen cap)) ∧
    (capWR cap = true) ∧
    (0#2 ≠ 2#2) ∧
    (g.acceptBytes s.grp true ws = none) := by decide +kernel

theorem meets_PoolStore_pstore :
    let i : Instr := stP 0
    let s : State := withCap false 4088 7
    let m : Access := stPa 4088
    let cap : BitVec 128 := (s.me.cap 1).v
    let x : Reg := s.me.rd m.reg
    let a : Int := m.addr
    let g : State := s.entered i
    let ws : List (Nat × Byte) := place (addrs (pKey cap a.toNat) m.bytes) (bytesLE m.bytes (BitVec.toNat x.v))
    let s' : State := ((s.granted i 1).acceptBytes 1 true (place (addrs key 8) (bytesLE 8 7))).getD base
    (accessP i s.me = some (m, 1#4, 0#2, 0#2)) ∧
    (m.store = true) ∧
    (s.issues i 1 = true) ∧
    (m.poison = false) ∧
    ((s.me.cap 1#4).poison = false) ∧
    (x.poison = false) ∧
    (a % ↑m.bytes = 0) ∧
    (0 ≤ a) ∧
    (a + ↑m.bytes ≤ ↑(capLen cap)) ∧
    (capWR cap = true) ∧
    (0#2 ≠ 2#2) ∧
    (g.acceptBytes s.grp true ws = some s') ∧
    (s.hasRoom i s' = true) := by decide +kernel

theorem meets_PoolStore_prel0 :
    let i : Instr := stP 2
    let s : State := dirty { }
    let m : Access := stPa 4088
    let cap : BitVec 128 := (s.me.cap 1).v
    let x : Reg := s.me.rd m.reg
    let a : Int := m.addr
    (accessP i s.me = some (m, 1#4, 2#2, 0#2)) ∧
    (m.store = true) ∧
    (s.issues i 1 = true) ∧
    (m.poison = false) ∧
    ((s.me.cap 1#4).poison = false) ∧
    (x.poison = false) ∧
    (a % ↑m.bytes = 0) ∧
    (0 ≤ a) ∧
    (a + ↑m.bytes ≤ ↑(capLen cap)) ∧
    (capWR cap = true) ∧
    (2#2 = 2#2) := by decide +kernel

theorem meets_PoolStore_prelFull :
    let i : Instr := stP 2
    let m : Access := stPa 4088
    let cap : BitVec 128 := (relFull.me.cap 1).v
    let x : Reg := relFull.me.rd m.reg
    let a : Int := m.addr
    let ws : List (Nat × Byte) := place (addrs (pKey cap a.toNat) m.bytes) (bytesLE m.bytes (BitVec.toNat x.v))
    (accessP i relFull.me = some (m, 1#4, 2#2, 0#2)) ∧
    (m.store = true) ∧
    (relFull.me.micro.stage = 1) ∧
    (relFull.boundaryDone relFull.grp relFull.me.micro.id = true) ∧
    (relFull.acceptBytes relFull.grp true ws = none) := by decide +kernel

theorem meets_PoolStore_prel1 :
    let i : Instr := stP 2
    let s : State := dirty { stage := 1, id := 9 }
    let m : Access := stPa 4088
    let cap : BitVec 128 := (s.me.cap 1).v
    let x : Reg := s.me.rd m.reg
    let a : Int := m.addr
    let ws : List (Nat × Byte) := place (addrs (pKey cap a.toNat) m.bytes) (bytesLE m.bytes (BitVec.toNat x.v))
    (accessP i s.me = some (m, 1#4, 2#2, 0#2)) ∧
    (m.store = true) ∧
    (s.me.micro.stage = 1) ∧
    (s.boundaryDone s.grp s.me.micro.id = true) ∧
    ((s.acceptBytes s.grp true ws).isSome = true) := by decide +kernel

theorem meets_PoolStore_prel2 :
    let i : Instr := stP 2
    let s : State := dirty { stage := 2, id := 9 }
    let m : Access := stPa 4088
    (accessP i s.me = some (m, 1#4, 2#2, 0#2)) ∧
    (m.store = true) ∧
    (s.me.micro.stage = 2) ∧
    (s.boundaryDone s.grp s.me.micro.id = true) ∧
    (s.hasRoom i s = true) := by decide +kernel



end Sys2Proof.Tests.Pools

namespace Sys2Proof.Tests.Atomics
open Sys2Proof Sys2Proof.Machine Sys2Proof.Claims
set_option Elab.async false

def aHs (s : State) : Atomic := (atomicH (.amoH bare 2 0 1 60 0 0 1 1 1 0) s.me).getD { addr := 0, addrPoison := false, bytes := 8, poison := false, update := fun _ => none, ret := none, ord := 0 }
def hx (a b : Word) : State := mapped (withX a b)
def spo : State := (withX 16376 1).modCore 0 (fun c => { c with spad := { c.spad with poison := [(255, true)] } })
def amoH : Instr := .amoH bare 2 0 1 60 0 0 1 1 1 0
def aH (a b : Word) : Atomic := (atomicH amoH (hx a b).me).getD { addr := 0, addrPoison := false, bytes := 8, poison := false, update := fun _ => none, ret := none, ord := 0 }
def hpo : State := { (hx 8 5) with hbm := { (hx 8 5).hbm with poison := [(2^23, true)] } }
def own1 : Group := { group1 with ver := { h := [(2^29 + 15, 7)] } }
def hown : State := { (hx 8 5) with groups := [(1, own1)] }
def afterOwn (s : State) : Group := ((((s.entered amoH).publishUnit 1 false (2^26 + 1)).2).groups.find? 1).getD group1
def casH : Instr := .casH bare 2 0 1 1 60 0 0 0
def cH (a b : Word) : Atomic := (atomicH casH (hx a b).me).getD { addr := 0, addrPoison := false, bytes := 8, poison := false, update := fun _ => none, ret := none, ord := 0 }
-- release boundary done
def hrel : State := (hx 8 5).modMe (fun t => { t with micro := { stage := 1, id := 3 } })
def relH : Instr := .amoH bare 2 0 1 60 0 6 1 3 1 0
def hsecond : State := (hx 8 5).modMe (fun t => { t with micro := { stage := 2, id := 3 } })
def amoP : Instr := .amoP bare 2 1 1 60 0 0 1 1 1 0x1FF
def aP (s : State) : PoolAtomic := (atomicP amoP s.me).getD { cap := 0, off := 0, offPoison := false, bytes := 8, poison := false, op := 0, x := 0, cmp := 0, cas := false, ret := none, ord := 0 }
def rem2 (po : Bool) : Remote := { kind := .atomic (5*2^48+4088) 8 0 5 0 false, grp := 1, answer := some (7, po) }
def pans (po : Bool) : State := { (withCap true 0 5).modMe (fun t => { t with micro := { stage := 3, id := 3 } }) with pool := { token := some 1, remotes := [(3, rem2 po)] } }
def ownPool (m : Micro) : State := ((withCap true 0 5).modMe (fun t => { t with micro := m })).modGroup 1 (fun x => { x with ver := { p := [(5*2^48+4088, 7)] } })
def ownG : Group := { group1 with ver := { p := [(5*2^48+4088, 7)] } }
def afterOwnP (s : State) : Group := ((((s.entered amoP).publishUnit 1 true ((5*2^48+4088) / 8)).2).groups.find? 1).getD group1
def relP : Instr := .amoP bare 2 1 1 60 0 0 1 3 1 0x1FF
def secondP : State := (withCap true 0 5).modMe (fun t => { t with micro := { stage := 2, id := 9 } })
def lf : Leaf := { pa := 2^29, size := 2^28, rd := true, wr := true, at_ := true, ex := false }

theorem meets_ScratchpadAtomic_amos :
    let s : State := withX 16384 1
    let as : List Nat := addrs 16376 8
    let i : Instr := Instr.amoS bare 2 0 1 60 0 0 1 1 8191
    let n : Nat := if 1 = 0 then 4 else 8
    let addr : Int := atomicAddr s.me 0 60 0 8191 n
    let r : List Byte × Bool × State := (s.granted i 1).sRead s.core as
    let old : BitVec 64 := BitVec.ofNat 64 (natLE r.fst)
    let s' : State := returned ((r.snd.snd.sWrite s.core as (bytesLE n (BitVec.toNat (amoResult 0 n old (s.me.rd 1).v))) (s.me.rd 1).poison).watch addr.toNat n true true) (if 1 = 1 then some 2 else none) old
    (s.issues i 1 = true) ∧
    ((s.me.rd 0#6).poison = false) ∧
    ((s.me.rd 60#6).poison = false) ∧
    (addr % ↑n = 0) ∧
    (s.sLoc s.core s.grp addr n = SLoc.ok as) ∧
    (r.snd.fst = false) ∧
    (s.hasRoom i s' = true) := by decide +kernel

theorem meets_ScratchpadAtomic_amosp :
    let as : List Nat := addrs 16376 8
    let i : Instr := Instr.amoS bare 2 0 1 60 0 0 1 1 0
    let n : Nat := if 1 = 0 then 4 else 8
    let addr : Int := atomicAddr spo.me 0 60 0 0 n
    let r : List Byte × Bool × State := (spo.granted i 1).sRead spo.core as
    (spo.issues i 1 = true) ∧
    ((spo.me.rd 0#6).poison = false) ∧
    ((spo.me.rd 60#6).poison = false) ∧
    (addr % ↑n = 0) ∧
    (spo.sLoc spo.core spo.grp addr n = SLoc.ok as) ∧
    (r.snd.fst = true) := by decide +kernel

theorem meets_AtomicUpdates_upd :
    (4 = 4 ∨ 4 = 8) := by decide +kernel

theorem meets_AtomicUpdates_upd8 :
    (8 = 4 ∨ 8 = 8) := by decide +kernel

theorem meets_HostSpaceAtomic_amoh :
    let s : State := hx 268435448 5
    let m : Atomic := aH 268435448 5
    let g : State := s.entered amoH
    let pa : Nat := 2 ^ 29 + 268435448
    let unit : Nat := pa / 8
    let w : State := if (List.any group1.ver.h fun e => e.fst / 8 == unit) = true then (g.publishUnit g.grp false unit).snd else g
    let r : List Byte × Bool × State := w.homeRead (addrs pa m.bytes)
    let old : BitVec 64 := BitVec.ofNat 64 (natLE r.fst)
    let v : State := (match m.update old with
      | none => r.snd.snd
      | some v_1 => (r.snd.snd.commitUnit unit (place (addrs pa m.bytes) (bytesLE m.bytes (BitVec.toNat v_1)))).sawOwn g.grp unit)
    let s' : State := if m.ord.getLsbD 0 = true then (returned v m.ret old).beginPhase else returned v m.ret old
    (Claims.atomicH amoH s.me = some m) ∧
    (s.issues amoH 1 = true) ∧
    (m.addrPoison = false) ∧
    (m.addr % ↑m.bytes = 0) ∧
    (m.poison = false) ∧
    (m.ord.getLsbD 1 = false) ∧
    (g.hPhys g.myCtx m.addr Right.at_ = some pa) ∧
    (g.groups.find? g.grp = some group1) ∧
    (w.groups.find? g.grp = some group1) ∧
    (group1.ver.bounds = []) ∧
    (r.snd.fst = false) ∧
    (s.hasRoom amoH s' = true) := by
  intro s m g pa unit w r old v
  exact ⟨rfl, by decide +kernel, by decide +kernel, by decide +kernel, by decide +kernel, by decide +kernel, by decide +kernel, by decide +kernel, by decide +kernel, by decide +kernel, by decide +kernel, by decide +kernel⟩

theorem meets_HostSpaceAtomic_amohp :
    let m : Atomic := aHs hpo
    let g : State := hpo.entered amoH
    let pa : Nat := 2 ^ 29 + 8
    let unit : Nat := pa / 8
    let w : State := if (List.any group1.ver.h fun e => e.fst / 8 == unit) = true then (g.publishUnit g.grp false unit).snd else g
    let r : List Byte × Bool × State := w.homeRead (addrs pa m.bytes)
    (Claims.atomicH amoH hpo.me = some m) ∧
    (hpo.issues amoH 1 = true) ∧
    (m.addrPoison = false) ∧
    (m.addr % ↑m.bytes = 0) ∧
    (m.poison = false) ∧
    (m.ord.getLsbD 1 = false) ∧
    (g.hPhys g.myCtx m.addr Right.at_ = some pa) ∧
    (g.groups.find? g.grp = some group1) ∧
    (w.groups.find? g.grp = some group1) ∧
    (group1.ver.bounds = []) ∧
    (r.snd.fst = true) := by
  intro m g pa unit w r
  exact ⟨rfl, by decide +kernel, by decide +kernel, by decide +kernel, by decide +kernel, by decide +kernel, by decide +kernel, by decide +kernel, by decide +kernel, by decide +kernel, by decide +kernel⟩

theorem meets_HostSpaceAtomic_amohown :
    let m : Atomic := aHs hown
    let g : State := hown.entered amoH
    let pa : Nat := 2 ^ 29 + 8
    let unit : Nat := pa / 8
    let w : State := if (List.any own1.ver.h fun e => e.fst / 8 == unit) = true then (g.publishUnit g.grp false unit).snd else g
    let z : Group := afterOwn hown
    (Claims.atomicH amoH hown.me = some m) ∧
    (hown.issues amoH 1 = true) ∧
    (m.addrPoison = false) ∧
    (m.addr % ↑m.bytes = 0) ∧
    (m.poison = false) ∧
    (m.ord.getLsbD 1 = false) ∧
    (g.hPhys g.myCtx m.addr Right.at_ = some pa) ∧
    (g.groups.find? g.grp = some own1) ∧
    (w.groups.find? g.grp = some z) ∧
    (z.ver.bounds ≠ []) := by
  intro m g pa unit w z
  exact ⟨rfl, by decide +kernel, by decide +kernel, by decide +kernel, by decide +kernel, by decide +kernel, by decide +kernel, by decide +kernel, by decide +kernel, by decide +kernel⟩

theorem meets_HostSpaceAtomic_cash :
    let s : State := hx 4 0
    let m : Atomic := cH 4 0
    let g : State := s.entered casH
    let pa : Nat := 2 ^ 29 + 4
    let unit : Nat := pa / 8
    let w : State := if (List.any group1.ver.h fun e => e.fst / 8 == unit) = true then (g.publishUnit g.grp false unit).snd else g
    let r : List Byte × Bool × State := w.homeRead (addrs pa m.bytes)
    let old : BitVec 64 := BitVec.ofNat 64 (natLE r.fst)
    let v : State := (match m.update old with
      | none => r.snd.snd
      | some v_1 => (r.snd.snd.commitUnit unit (place (addrs pa m.bytes) (bytesLE m.bytes (BitVec.toNat v_1)))).sawOwn g.grp unit)
    let s' : State := if m.ord.getLsbD 0 = true then (returned v m.ret old).beginPhase else returned v m.ret old
    (Claims.atomicH casH s.me = some m) ∧
    (s.issues casH 1 = true) ∧
    (m.addrPoison = false) ∧
    (m.addr % ↑m.bytes = 0) ∧
    (m.poison = false) ∧
    (m.ord.getLsbD 1 = false) ∧
    (g.hPhys g.myCtx m.addr Right.at_ = some pa) ∧
    (g.groups.find? g.grp = some group1) ∧
    (w.groups.find? g.grp = some group1) ∧
    (group1.ver.bounds = []) ∧
    (r.snd.fst = false) ∧
    (s.hasRoom casH s' = true) := by
  intro s m g pa unit w r old v
  exact ⟨rfl, by decide +kernel, by decide +kernel, by decide +kernel, by decide +kernel, by decide +kernel, by decide +kernel, by decide +kernel, by decide +kernel, by decide +kernel, by decide +kernel, by decide +kernel⟩

theorem meets_HostSpaceAtomic_cash2 :
    let s : State := hx 4 1
    let m : Atomic := cH 4 1
    let g : State := s.entered casH
    let pa : Nat := 2 ^ 29 + 4
    let unit : Nat := pa / 8
    let w : State := if (List.any group1.ver.h fun e => e.fst / 8 == unit) = true then (g.publishUnit g.grp false unit).snd else g
    let r : List Byte × Bool × State := w.homeRead (addrs pa m.bytes)
    let old : BitVec 64 := BitVec.ofNat 64 (natLE r.fst)
    let v : State := (match m.update old with
      | none => r.snd.snd
      | some v_1 => (r.snd.snd.commitUnit unit (place (addrs pa m.bytes) (bytesLE m.bytes (BitVec.toNat v_1)))).sawOwn g.grp unit)
    let s' : State := if m.ord.getLsbD 0 = true then (returned v m.ret old).beginPhase else returned v m.ret old
    (Claims.atomicH casH s.me = some m) ∧
    (s.issues casH 1 = true) ∧
    (m.addrPoison = false) ∧
    (m.addr % ↑m.bytes = 0) ∧
    (m.poison = false) ∧
    (m.ord.getLsbD 1 = false) ∧
    (g.hPhys g.myCtx m.addr Right.at_ = some pa) ∧
    (g.groups.find? g.grp = some group1) ∧
    (w.groups.find? g.grp = some group1) ∧
    (group1.ver.bounds = []) ∧
    (r.snd.fst = false) ∧
    (s.hasRoom casH s' = true) := by
  intro s m g pa unit w r old v
  exact ⟨rfl, by decide +kernel, by decide +kernel, by decide +kernel, by decide +kernel, by decide +kernel, by decide +kernel, by decide +kernel, by decide +kernel, by decide +kernel, by decide +kernel, by decide +kernel⟩

theorem meets_HostSpaceAtomic_amohrel :
    let i : Instr := Instr.amoH bare 2 0 1 60 0 6 1 3 1 0
    let m : Atomic := (Claims.atomicH i hrel.me).getD (aH 0 0)
    let pa : Nat := 2 ^ 29 + 8
    let unit : Nat := pa / 8
    let w : State := if (List.any group1.ver.h fun e => e.fst / 8 == unit) = true then (hrel.publishUnit hrel.grp false unit).snd else hrel
    let r : List Byte × Bool × State := w.homeRead (addrs pa m.bytes)
    let old : BitVec 64 := BitVec.ofNat 64 (natLE r.fst)
    let v : State := (match m.update old with
      | none => r.snd.snd
      | some v_1 => (r.snd.snd.commitUnit unit (place (addrs pa m.bytes) (bytesLE m.bytes (BitVec.toNat v_1)))).sawOwn hrel.grp unit)
    let s' : State := if m.ord.getLsbD 0 = true then (returned v m.ret old).beginPhase else returned v m.ret old
    (Claims.atomicH i hrel.me = some m) ∧
    (hrel.me.micro.stage = 1) ∧
    (hrel.boundaryDone hrel.grp hrel.me.micro.id = true) ∧
    (hrel.hPhys hrel.myCtx m.addr Right.at_ = some pa) ∧
    (hrel.groups.find? hrel.grp = some group1) ∧
    (w.groups.find? hrel.grp = some group1) ∧
    (group1.ver.bounds = []) ∧
    (r.snd.fst = false) ∧
    (hrel.hasRoom i s' = true) := by
  intro i m pa unit w r old v
  exact ⟨rfl, by decide +kernel, by decide +kernel, by decide +kernel, by decide +kernel, by decide +kernel, by decide +kernel, by decide +kernel, by decide +kernel⟩

theorem meets_HostSpaceAtomic_amohrel0 :
    let s : State := hx 8 5
    let m : Atomic := (Claims.atomicH relH s.me).getD (aH 0 0)
    (Claims.atomicH relH s.me = some m) ∧
    (s.issues relH 1 = true) ∧
    (m.addrPoison = false) ∧
    (m.addr % ↑m.bytes = 0) ∧
    (m.poison = false) ∧
    (m.ord.getLsbD 1 = true) := by
  intro s m
  exact ⟨rfl, by decide +kernel, by decide +kernel, by decide +kernel, by decide +kernel, by decide +kernel⟩

theorem meets_HostSpaceAtomic_amoh2 :
    let m : Atomic := (Claims.atomicH amoH hsecond.me).getD (aH 0 0)
    let pa : Nat := 2 ^ 29 + 8
    let unit : Nat := pa / 8
    let w : State := if (List.any group1.ver.h fun e => e.fst / 8 == unit) = true then (hsecond.publishUnit hsecond.grp false unit).snd else hsecond
    let r : List Byte × Bool × State := w.homeRead (addrs pa m.bytes)
    let old : BitVec 64 := BitVec.ofNat 64 (natLE r.fst)
    let v : State := (match m.update old with
      | none => r.snd.snd
      | some v_1 => (r.snd.snd.commitUnit unit (place (addrs pa m.bytes) (bytesLE m.bytes (BitVec.toNat v_1)))).sawOwn hsecond.grp unit)
    let s' : State := if m.ord.getLsbD 0 = true then (returned v m.ret old).beginPhase else returned v m.ret old
    (Claims.atomicH amoH hsecond.me = some m) ∧
    (hsecond.me.micro.stage = 2) ∧
    (hsecond.hPhys hsecond.myCtx m.addr Right.at_ = some pa) ∧
    (hsecond.groups.find? hsecond.grp = some group1) ∧
    (w.groups.find? hsecond.grp = some group1) ∧
    (group1.ver.bounds = []) ∧
    (r.snd.fst = false) ∧
    (hsecond.hasRoom amoH s' = true) := by
  intro m pa unit w r old v
  exact ⟨rfl, by decide +kernel, by decide +kernel, by decide +kernel, by decide +kernel, by decide +kernel, by decide +kernel, by decide +kernel⟩

theorem meets_PoolAtomicOperation_amop :
    let s : State := withCap true 0 5
    let m : PoolAtomic := aP s
    let cap : BitVec 128 := (s.me.cap m.cap).v
    let a : Int := m.off
    let key : Nat := pKey cap a.toNat
    let g : State := s.entered amoP
    let w : State := if (List.any group1.ver.p fun e => e.fst / 8 == key / 8) = true then (g.publishUnit g.grp true (key / 8)).snd else g
    (Claims.atomicP amoP s.me = some m) ∧
    (s.issues amoP 1 = true) ∧
    (m.offPoison = false) ∧
    ((s.me.cap m.cap).poison = false) ∧
    (a % ↑m.bytes = 0) ∧
    (0 ≤ a) ∧
    (a + ↑m.bytes ≤ ↑(capLen cap)) ∧
    (capAT cap = true) ∧
    (m.poison = false) ∧
    (m.ord.getLsbD 1 = false) ∧
    (g.groups.find? g.grp = some group1) ∧
    (w.groups.find? g.grp = some group1) ∧
    (group1.ver.bounds = []) := by decide +kernel

theorem meets_PoolAtomicOperation_amopp :
    let s : State := pans true
    let m : PoolAtomic := aP (pans true)
    let q : Remote := rem2 true
    (Claims.atomicP amoP s.me = some m) ∧
    (s.me.micro.stage = 3) ∧
    (s.pool.remotes.find? s.me.micro.id = some q) ∧
    (q.answer = some (7#64, true)) ∧
    (true = true) := by decide +kernel

theorem meets_PoolAtomicOperation_amopd :
    let s : State := pans false
    let m : PoolAtomic := aP (pans false)
    let q : Remote := rem2 false
    let u : State := s.dropRemote s.me.micro.id
    let v : BitVec 64 := BitVec.ofNat 64 (natLE (bytesLE m.bytes 7))
    let s' : State := if m.ord.getLsbD 0 = true then (returned u m.ret v).beginPhase else returned u m.ret v
    (Claims.atomicP amoP s.me = some m) ∧
    (s.me.micro.stage = 3) ∧
    (s.pool.remotes.find? s.me.micro.id = some q) ∧
    (q.answer = some (7#64, false)) ∧
    (false = false) ∧
    (s.hasRoom amoP s' = true) := by decide +kernel

theorem meets_PoolAtomicOperation_amopOwn :
    let s : State := ownPool { }
    let m : PoolAtomic := aP s
    let cap : BitVec 128 := (s.me.cap m.cap).v
    let a : Int := m.off
    let key : Nat := pKey cap a.toNat
    let g : State := s.entered amoP
    let w : State := if (List.any ownG.ver.p fun e => e.fst / 8 == key / 8) = true then (g.publishUnit g.grp true (key / 8)).snd else g
    let z : Group := afterOwnP s
    (Claims.atomicP amoP s.me = some m) ∧
    (s.issues amoP 1 = true) ∧
    (m.offPoison = false) ∧
    ((s.me.cap m.cap).poison = false) ∧
    (a % ↑m.bytes = 0) ∧
    (0 ≤ a) ∧
    (a + ↑m.bytes ≤ ↑(capLen cap)) ∧
    (capAT cap = true) ∧
    (m.poison = false) ∧
    (m.ord.getLsbD 1 = false) ∧
    (g.groups.find? g.grp = some ownG) ∧
    (w.groups.find? g.grp = some z) ∧
    (z.ver.bounds ≠ []) := by decide +kernel

theorem meets_PoolAtomicOperation_amopRel :
    let s : State := withCap true 0 5
    let m : PoolAtomic := (Claims.atomicP relP s.me).getD (aP base)
    let cap : BitVec 128 := (s.me.cap m.cap).v
    let a : Int := m.off
    (Claims.atomicP relP s.me = some m) ∧
    (s.issues relP 1 = true) ∧
    (m.offPoison = false) ∧
    ((s.me.cap m.cap).poison = false) ∧
    (a % ↑m.bytes = 0) ∧
    (0 ≤ a) ∧
    (a + ↑m.bytes ≤ ↑(capLen cap)) ∧
    (capAT cap = true) ∧
    (m.poison = false) ∧
    (m.ord.getLsbD 1 = true) := by decide +kernel

theorem meets_PoolAtomicOperation_amop1 :
    let s : State := ownPool { stage := 1, id := 9 }
    let m : PoolAtomic := (Claims.atomicP relP s.me).getD (aP base)
    let cap : BitVec 128 := (s.me.cap m.cap).v
    let a : Int := m.off
    let key : Nat := pKey cap a.toNat
    let w : State := if (List.any ownG.ver.p fun e => e.fst / 8 == key / 8) = true then (s.publishUnit s.grp true (key / 8)).snd else s
    let z : Group := afterOwnP s
    (Claims.atomicP relP s.me = some m) ∧
    (s.me.micro.stage = 1) ∧
    (s.boundaryDone s.grp s.me.micro.id = true) ∧
    (s.groups.find? s.grp = some ownG) ∧
    (w.groups.find? s.grp = some z) ∧
    (z.ver.bounds ≠ []) := by decide +kernel

theorem meets_PoolAtomicOperation_amop2 :
    let m : PoolAtomic := aP secondP
    let cap : BitVec 128 := (secondP.me.cap m.cap).v
    let a : Int := m.off
    let key : Nat := pKey cap a.toNat
    let w : State := if (List.any group1.ver.p fun e => e.fst / 8 == key / 8) = true then (secondP.publishUnit secondP.grp true (key / 8)).snd else secondP
    (Claims.atomicP amoP secondP.me = some m) ∧
    (secondP.me.micro.stage = 2) ∧
    (secondP.groups.find? secondP.grp = some group1) ∧
    (w.groups.find? secondP.grp = some group1) ∧
    (group1.ver.bounds = []) := by decide +kernel

theorem meets_ProbeAndPrefetch_probeh :
    let s : State := hx 268435455 5
    let h : Instr := Instr.probeH bare 2 0 2 60 0 0
    let va : Int := longAddr s.me 0 60 0 0
    let right : Right := if 2 = 0 then Right.rd else if 2 = 1 then Right.wr else Right.at_
    let s' : State := (s.granted h 1).modMe fun t => t.result 2 { v := BitVec.ofNat 64 (lf.size - va.toNat % lf.size) }
    (s.issues h 1 = true) ∧
    ((s.me.rd 0#6).poison = false) ∧
    ((s.me.rd 60#6).poison = false) ∧
    (((s.granted h 1).hLeaf s.myCtx va fun l => l.grants right) = some lf) ∧
    (lf.grants right = true) ∧
    (s.hasRoom h s' = true) := by decide +kernel

theorem meets_ProbeAndPrefetch_probehf :
    let s : State := hx 268435456 5
    let h : Instr := Instr.probeH bare 2 0 2 60 0 0
    let va : Int := longAddr s.me 0 60 0 0
    let right : Right := if 2 = 0 then Right.rd else if 2 = 1 then Right.wr else Right.at_
    (s.issues h 1 = true) ∧
    ((s.me.rd 0#6).poison = false) ∧
    ((s.me.rd 60#6).poison = false) ∧
    (Option.all (fun l => !l.grants right) ((s.granted h 1).hLeaf s.myCtx va fun l => l.grants right) = true) := by decide +kernel

theorem meets_ProbeAndPrefetch_probep :
    let s : State := withCap true 4095 5
    let p : Instr := Instr.probeP bare 2 1 2 0 0 0
    let off : Int := longOff s.me 0 0 0
    let cap : CapReg := s.me.cap 1
    let right : Right := if 2 = 0 then Right.rd else if 2 = 1 then Right.wr else Right.at_
    let s' : State := (s.granted p 1).modMe fun t => t.result 2 { v := BitVec.ofInt 64 (↑(capLen cap.v) - off) }
    (s.issues p 1 = true) ∧
    ((s.me.rd 0#6).poison = false) ∧
    (cap.poison = false) ∧
    (0 ≤ off) ∧
    (off + 1 ≤ ↑(capLen cap.v)) ∧
    (capGrants cap.v right = true) ∧
    (s.hasRoom p s' = true) := by decide +kernel

theorem meets_ProbeAndPrefetch_probepf :
    let s : State := withCap true 4096 5
    let p : Instr := Instr.probeP bare 2 1 2 0 0 0
    let off : Int := longOff s.me 0 0 0
    let cap : CapReg := s.me.cap 1
    let right : Right := if 2 = 0 then Right.rd else if 2 = 1 then Right.wr else Right.at_
    (s.issues p 1 = true) ∧
    ((s.me.rd 0#6).poison = false) ∧
    (cap.poison = false) ∧
    (off < 0 ∨ ↑(capLen cap.v) < off + 1 ∨ capGrants cap.v right = false) := by decide +kernel

theorem meets_ProbeAndPrefetch_pfp :
    let s : State := withCap false 4092 4
    let f : Instr := Instr.pfP bare 1 1 2 0 0 0
    let off : Int := longOff s.me 0 0 0
    let cap : CapReg := s.me.cap 1
    let n : Nat := max (BitVec.toNat (s.me.rd 1).v) 1
    let s' : State := List.foldl State.renewPage ((s.granted f 1).claimPages cap.v off.toNat n 2 s.grp (dieOf s.core)) (claimedPages cap.v off.toNat n)
    (s.issues f 1 = true) ∧
    ((s.me.rd 0#6).poison = false) ∧
    (cap.poison = false) ∧
    ((s.me.rd 1#6).poison = false) ∧
    (0 ≤ off) ∧
    (off + ↑n ≤ ↑(capLen cap.v)) ∧
    (capRD cap.v = true) ∧
    (s.hasRoom f s' = true) := by decide +kernel

theorem meets_ProbeAndPrefetch_pfpf :
    let s : State := withCap false 4093 4
    let f : Instr := Instr.pfP bare 1 1 2 0 0 0
    let off : Int := longOff s.me 0 0 0
    let cap : CapReg := s.me.cap 1
    let n : Nat := max (BitVec.toNat (s.me.rd 1).v) 1
    (s.issues f 1 = true) ∧
    ((s.me.rd 0#6).poison = false) ∧
    (cap.poison = false) ∧
    ((s.me.rd 1#6).poison = false) ∧
    (off < 0 ∨ ↑(capLen cap.v) < off + ↑n ∨ capRD cap.v = false) := by decide +kernel



end Sys2Proof.Tests.Atomics
end

