-- ==== Sys2Proof/Tests/Pooling.lean ====
section
/-! SUPPORT. States that meet the hypotheses of the statements about the pool. -/

namespace Sys2Proof.Tests.Remotes
open Sys2Proof Sys2Proof.Machine Sys2Proof.Claims
set_option Elab.async false

theorem meets_PoolAnswers_se1 :
    (∀ (e : Nat × Remote), e ∈ base.pool.remotes → e.snd.kind ≠ RemoteKind.session) := by decide +kernel

theorem meets_PoolAnswers_se2 :
    let s : State := { base with pkg := { st := PkgState.train }, pool := { remotes := [(9, { kind := RemoteKind.session })] }, ports := [(2, { st := PortState.active })], ptp := { lock := true } }
    let r : Remote := { kind := RemoteKind.session }
    (s.pool.remotes = [(9, r)]) ∧
    (r.kind = RemoteKind.session) ∧
    (s.pkg.st = PkgState.train) ∧
    (s.poolPortUp = true) ∧
    (s.ptp.lock = true) := by decide +kernel

theorem meets_PoolAnswers_se3 :
    let s : State := { base with pkg := { st := PkgState.train }, pool := { remotes := [(9, { kind := RemoteKind.session })] }, ports := [(2, { st := PortState.active })] }
    let r : Remote := { kind := RemoteKind.session }
    (s.pool.remotes = [(9, r)]) ∧
    (r.kind = RemoteKind.session) ∧
    (s.pkg.st = PkgState.train) ∧
    (s.poolPortUp = true) ∧
    (s.ptp.lock = false) := by decide +kernel

theorem meets_PoolAnswers_no1 :
    (base.pool.remotes.find? 9 = none) := by decide +kernel

theorem meets_PoolAnswers_pg2 :
    let s : State := { base with pkg := { st := PkgState.serving }, pool := { token := some 7, pages := [(21474836480, { })], remotes := [(9, { kind := RemoteKind.page 21474836480 false, grp := 1 })] } }
    let r : Remote := { kind := RemoteKind.page 21474836480 false, grp := 1 }
    let p : Page := { }
    (s.pool.remotes.find? 9 = some r) ∧
    (r.kind = RemoteKind.page 21474836480 false) ∧
    (s.pool.pages.find? 21474836480 = some p) ∧
    (p.st = PageState.requested) ∧
    (1#8 ≠ 0#8) := by decide +kernel

theorem meets_PoolAnswers_hr1 :
    let s : State := { base with pkg := { st := PkgState.serving }, pool := { token := some 7, remotes := [(9, { kind := RemoteKind.homeRead 8 0 2, grp := 1 })] } }
    let r : Remote := { kind := RemoteKind.homeRead 8 0 2, grp := 1 }
    let bs : List Byte := [5, 6]
    (s.pool.remotes.find? 9 = some r) ∧
    (r.kind = RemoteKind.homeRead 8 0 2) ∧
    (3#8 = 0#8 ∨ 3#8 = 3#8) ∧
    (bs.length = 2) := by decide +kernel

theorem meets_PoolAnswers_hr2 :
    let s : State := { base with pkg := { st := PkgState.serving }, pool := { token := some 7, remotes := [(9, { kind := RemoteKind.homeRead 8 0 2, grp := 1 })] } }
    let r : Remote := { kind := RemoteKind.homeRead 8 0 2, grp := 1 }
    (s.pool.remotes.find? 9 = some r) ∧
    (r.kind = RemoteKind.homeRead 8 0 2) ∧
    (1#8 ≠ 0#8) ∧
    (1#8 ≠ 3#8) := by decide +kernel

theorem meets_PoolAnswers_wr1 :
    let s : State := { base with pkg := { st := PkgState.serving }, pool := { token := some 7, remotes := [(9, { kind := RemoteKind.write 1 4 8 [(8, 5)], grp := 1 })] } }
    let r : Remote := { kind := RemoteKind.write 1 4 8 [(8, 5)], grp := 1 }
    let bs : List (Nat × Byte) := [(8, 5)]
    (s.pool.remotes.find? 9 = some r) ∧
    (r.kind = RemoteKind.write 1 4 8 bs) ∧
    (0#8 = 0#8) := by decide +kernel

theorem meets_PoolAnswers_wr2 :
    let s : State := { base with pkg := { st := PkgState.serving }, pool := { token := some 7, remotes := [(9, { kind := RemoteKind.write 1 4 8 [(8, 5)], grp := 1 })] } }
    let r : Remote := { kind := RemoteKind.write 1 4 8 [(8, 5)], grp := 1 }
    let bs : List (Nat × Byte) := [(8, 5)]
    (s.pool.remotes.find? 9 = some r) ∧
    (r.kind = RemoteKind.write 1 4 8 bs) ∧
    (2#8 ≠ 0#8) := by decide +kernel

theorem meets_PoolAnswers_at1 :
    let s : State := { base with pkg := { st := PkgState.serving }, pool := { token := some 7, remotes := [(9, { kind := RemoteKind.atomic 8 8 0 5 3 true, grp := 1 })] } }
    let r : Remote := { kind := RemoteKind.atomic 8 8 0 5 3 true, grp := 1 }
    (s.pool.remotes.find? 9 = some r) ∧
    (r.kind = RemoteKind.atomic 8 8 0#3 5#64 3#64 true) ∧
    (0#8 = 0#8) := by decide +kernel

theorem meets_PoolAnswers_at2 :
    let s : State := { base with pkg := { st := PkgState.serving }, pool := { token := some 7, remotes := [(9, { kind := RemoteKind.atomic 8 8 0 5 3 true, grp := 1 })] } }
    let r : Remote := { kind := RemoteKind.atomic 8 8 0 5 3 true, grp := 1 }
    (s.pool.remotes.find? 9 = some r) ∧
    (r.kind = RemoteKind.atomic 8 8 0#3 5#64 3#64 true) ∧
    (0#8 = 0#8) ∧
    (true = true) ∧
    (4 % 2 ^ (8 * 8) ≠ 3 % 2 ^ (8 * 8)) := by decide +kernel

theorem meets_PoolAnswers_at3 :
    let s : State := { base with pkg := { st := PkgState.serving }, pool := { token := some 7, remotes := [(9, { kind := RemoteKind.atomic 8 8 0 5 3 true, grp := 1 })] } }
    let r : Remote := { kind := RemoteKind.atomic 8 8 0 5 3 true, grp := 1 }
    (s.pool.remotes.find? 9 = some r) ∧
    (r.kind = RemoteKind.atomic 8 8 0#3 5#64 3#64 true) ∧
    (2#8 ≠ 0#8) := by decide +kernel

theorem meets_PoolAnswers_at4 :
    let s : State := { base with pkg := { st := PkgState.serving }, pool := { token := some 7, pages := [(21474836480, { st := PageState.leased, frame := [(8, 3)], expiry := 9 })], remotes := [(9, { kind := RemoteKind.atomic 1407374883553288 8 0 5 3 true, grp := 1 })] } }
    let r : Remote := { kind := RemoteKind.atomic 1407374883553288 8 0 5 3 true, grp := 1 }
    let key : Nat := 1407374883553288
    let p : Page := { st := PageState.leased, frame := [(8, 3)], expiry := 9 }
    (s.pool.remotes.find? 9 = some r) ∧
    (r.kind = RemoteKind.atomic key 8 0#3 5#64 3#64 true) ∧
    (0#8 = 0#8) ∧
    (true = false ∨ 3 % 2 ^ (8 * 8) = 3 % 2 ^ (8 * 8)) ∧
    (s.pool.pages.find? (pageOf key) = some p) ∧
    (p.st = PageState.leased) ∧
    (key % 65536 + 8 ≤ 65536) ∧
    (∀ (a : Nat), key % 65536 ≤ a → a < key % 65536 + 8 → Tbl.get false p.latent (a / 64) = false) := by
  intro s r key p
  exact ⟨by decide +kernel, by decide +kernel, by decide +kernel, by decide +kernel, by decide +kernel, by decide +kernel, by decide +kernel, (fun _ _ _ => rfl)⟩

theorem meets_PoolAnswers_rn1 :
    let s : State := { base with pkg := { st := PkgState.serving }, pool := { token := some 7, pages := [(21474836480, { st := PageState.leased, frame := [(1, 2)], expiry := 5 })], remotes := [(9, { kind := RemoteKind.renew 21474836480, grp := 1 })] } }
    let r : Remote := { kind := RemoteKind.renew 21474836480, grp := 1 }
    let p : Page := { st := PageState.leased, frame := [(1, 2)], expiry := 5 }
    (s.pool.remotes.find? 9 = some r) ∧
    (r.kind = RemoteKind.renew 21474836480) ∧
    (s.pool.pages.find? 21474836480 = some p) ∧
    (0#8 = 0#8) ∧
    (p.st = PageState.leased) := by decide +kernel

theorem meets_PoolAnswers_rn2 :
    let s : State := { base with pkg := { st := PkgState.serving }, pool := { token := some 7, pages := [(21474836480, { st := PageState.leased, frame := [(1, 2)], expiry := 5 })], remotes := [(9, { kind := RemoteKind.renew 21474836480, grp := 1 })] } }
    let r : Remote := { kind := RemoteKind.renew 21474836480, grp := 1 }
    let p : Page := { st := PageState.leased, frame := [(1, 2)], expiry := 5 }
    (s.pool.remotes.find? 9 = some r) ∧
    (r.kind = RemoteKind.renew 21474836480) ∧
    (s.pool.pages.find? 21474836480 = some p) ∧
    (1#8 ≠ 0#8) := by decide +kernel

theorem meets_PoolAnswers_pu1 :
    let s : State := { base with pkg := { st := PkgState.serving }, pool := { token := some 7, remotes := [(9, { kind := RemoteKind.put 79 0 [1] none, grp := 1 })] } }
    let r : Remote := { kind := RemoteKind.put 79 0 [1] none, grp := 1 }
    (s.pool.remotes.find? 9 = some r) ∧
    (r.kind = RemoteKind.put 79 0 [1#8] none) ∧
    (0#8 = 0#8) := by decide +kernel

theorem meets_PoolAnswers_pu2 :
    let s : State := { base with pkg := { st := PkgState.serving }, pool := { token := some 7, remotes := [(9, { kind := RemoteKind.put 79 0 [1] none, grp := 1, port := 2 })] } }
    let r : Remote := { kind := RemoteKind.put 79 0 [1] none, grp := 1, port := 2 }
    (s.pool.remotes.find? 9 = some r) ∧
    (r.kind = RemoteKind.put 79 0 [1#8] none) ∧
    (2#8 ≠ 0#8) ∧
    ((s.portAt r.port).seq.grp ≠ some r.grp) := by decide +kernel

theorem meets_PoolAnswers_pu3 :
    let s : State := { base with pkg := { st := PkgState.serving }, pool := { token := some 7, remotes := [(9, { kind := RemoteKind.put 79 0 [1] none, grp := 1, port := 2 })] }, ports := [(2, { seq := { grp := some 1 } })] }
    let r : Remote := { kind := RemoteKind.put 79 0 [1] none, grp := 1, port := 2 }
    (s.pool.remotes.find? 9 = some r) ∧
    (r.kind = RemoteKind.put 79 0 [1#8] none) ∧
    (2#8 ≠ 0#8) ∧
    ((s.portAt r.port).seq.grp = some r.grp) := by decide +kernel

theorem meets_CachedPages_cp0 :
    let s : State := { base with pkg := { st := PkgState.serving, ns := 1000000 }, pool := { token := some 7 } }
    let k : Nat := 5 * 2 ^ 32 + 0
    (s.pool.pages.find? k = none) := by decide +kernel

theorem meets_CachedPages_cp1 :
    let s : State := { base with pkg := { st := PkgState.serving, ns := 1000000 }, pool := { token := some 7, pages := [(21474836480, { st := PageState.leased, frame := [(1, 2)], expiry := 9000000 })] } }
    let k : Nat := 5 * 2 ^ 32 + 0
    let p : Page := { st := PageState.leased, frame := [(1, 2)], expiry := 9000000 }
    (s.pool.pages.find? k = some p) ∧
    (p.st = PageState.leased) := by decide +kernel

theorem meets_CachedPages_cp2 :
    let s : State := { base with pkg := { st := PkgState.serving, ns := 1000000 }, pool := { token := some 7, pages := [(21474836480, { st := PageState.revoking, revoke := (6, 3) })] } }
    let k : Nat := 5 * 2 ^ 32 + 0
    let p : Page := { st := PageState.revoking, revoke := (6, 3) }
    (s.pool.pages.find? k = some p) ∧
    (p.st = PageState.revoking) := by decide +kernel

theorem meets_CachedPages_cp3 :
    let s : State := { base with pkg := { st := PkgState.serving, ns := 1000000 }, pool := { token := some 7, pages := [(21474836480, { })] } }
    let k : Nat := 5 * 2 ^ 32 + 0
    let p : Page := { }
    (s.pool.pages.find? k = some p) ∧
    (p.st = PageState.requested ∨ p.st = PageState.dropped) := by decide +kernel

theorem meets_CachedPages_cp4 :
    let s : State := { base with pkg := { st := PkgState.serving, ns := 1000000 }, pool := { token := some 7, pages := [(21474836480, { st := PageState.revoking, frame := [(1, 2)], revoke := (6, 3) })] } }
    let k : Nat := 5 * 2 ^ 32 + 0
    let p : Page := { st := PageState.revoking, frame := [(1, 2)], revoke := (6, 3) }
    (s.pool.pages.find? k = some p) ∧
    (p.st = PageState.revoking) := by decide +kernel

theorem meets_CachedPages_cp5 :
    let s : State := { base with pkg := { st := PkgState.serving, ns := 1000000 }, pool := { token := some 7, pages := [(21474836480, { st := PageState.leased, frame := [(1, 2)], expiry := 9000000 })] } }
    let k : Nat := 5 * 2 ^ 32 + 0
    let p : Page := { st := PageState.leased, frame := [(1, 2)], expiry := 9000000 }
    (s.pool.pages.find? k = some p) ∧
    (p.st ≠ PageState.revoking) := by decide +kernel

theorem meets_CachedPages_cp6 :
    let s : State := { base with pkg := { st := PkgState.serving, ns := 1000000 }, pool := { token := some 7, pages := [(21474836480, { st := PageState.leased, frame := [(1, 2)], expiry := 1020000 })] } }
    let k : Nat := 5 * 2 ^ 32 + 0
    let p : Page := { st := PageState.leased, frame := [(1, 2)], expiry := 1020000 }
    (s.pool.pages.find? k = some p) ∧
    (p.st = PageState.leased) ∧
    (p.expiry ≤ s.pkg.ns + 20000) := by decide +kernel

theorem meets_CachedPages_cp7 :
    let s : State := { base with pkg := { st := PkgState.serving, ns := 1000000 }, pool := { token := some 7, pages := [(21474836480, { st := PageState.leased, frame := [(1, 2)], expiry := 1020001 })] } }
    let k : Nat := 5 * 2 ^ 32 + 0
    let p : Page := { st := PageState.leased, frame := [(1, 2)], expiry := 1020001 }
    (s.pool.pages.find? k = some p) ∧
    (p.st ≠ PageState.leased ∨ s.pkg.ns + 20000 < p.expiry) := by decide +kernel

theorem meets_CachedPages_cp8 :
    let s : State := { base with pkg := { st := PkgState.serving, ns := 1000000 }, pool := { token := some 7, pages := [(21474836480, { st := PageState.leased, expiry := 1200000, granted := 1000000, demandRead := true })] }, ptp := { lock := true } }
    let k : Nat := 5 * 2 ^ 32 + 0
    let p : Page := { st := PageState.leased, expiry := 1200000, granted := 1000000, demandRead := true }
    let due : Prop := p.st = PageState.leased ∧ s.ptp.lock = true ∧ 4 * (p.expiry - s.pkg.ns) < p.granted ∧ (∀ (e : Nat × Remote), e ∈ s.pool.remotes → e.snd.kind ≠ RemoteKind.renew k) ∧ (p.demandRead = true ∨ s.inWindow k = true)
    (s.pool.pages.find? k = some p) ∧
    (due) := by decide +kernel

theorem meets_CachedPages_cp9 :
    let s : State := { base with pkg := { st := PkgState.serving, ns := 1000000 }, pool := { token := some 7, pages := [(21474836480, { st := PageState.leased, expiry := 1250000, granted := 1000000, demandRead := true })] }, ptp := { lock := true } }
    let k : Nat := 5 * 2 ^ 32 + 0
    let p : Page := { st := PageState.leased, expiry := 1250000, granted := 1000000, demandRead := true }
    let due : Prop := p.st = PageState.leased ∧ s.ptp.lock = true ∧ 4 * (p.expiry - s.pkg.ns) < p.granted ∧ (∀ (e : Nat × Remote), e ∈ s.pool.remotes → e.snd.kind ≠ RemoteKind.renew k) ∧ (p.demandRead = true ∨ s.inWindow k = true)
    (s.pool.pages.find? k = some p) ∧
    (¬due) := by decide +kernel

theorem meets_CachedPages_cq1 :
    let s : State := { base with pkg := { st := PkgState.serving, ns := 1000000 }, pool := { token := some 7, pages := [(21474836480, { st := PageState.dropped })] } }
    let k : Nat := 5 * 2 ^ 32 + 0
    let p : Page := { st := PageState.dropped }
    (s.pool.pages.find? k = some p) ∧
    (p.st = PageState.dropped) := by decide +kernel

theorem meets_CachedPages_cq2 :
    let s : State := { base with pkg := { st := PkgState.serving, ns := 1000000 }, pool := { token := some 7, pages := [(21474836480, { st := PageState.leased, frame := [(1, 2)] })] } }
    let k : Nat := 5 * 2 ^ 32 + 0
    let p : Page := { st := PageState.leased, frame := [(1, 2)] }
    (s.pool.pages.find? k = some p) ∧
    (p.st = PageState.leased) ∧
    (p.readBy = []) ∧
    (∀ (e : Nat × Page), e ∈ s.pool.pages → e.snd.st = PageState.leased → e.snd.readBy = [] → ¬(p.reuse < e.snd.reuse ∨ e.snd.reuse = p.reuse ∧ e.snd.lastUse < p.lastUse)) := by decide +kernel

theorem meets_CachedPages_cq3 :
    let s : State := { base with pkg := { st := PkgState.serving, ns := 1000000 }, pool := { token := some 7, pages := [(21474836480, { st := PageState.leased, frame := [(1, 2)], readBy := [5] })] } }
    let k : Nat := 5 * 2 ^ 32 + 0
    let p : Page := { st := PageState.leased, frame := [(1, 2)], readBy := [5] }
    (s.pool.pages.find? k = some p) ∧
    (p.st = PageState.leased) ∧
    (p.readBy ≠ []) := by decide +kernel

theorem meets_CachedPages_cq4 :
    let s : State := { base with pkg := { st := PkgState.serving, ns := 1000000 }, pool := { token := some 7, pages := [(21474836480, { })] } }
    let k : Nat := 5 * 2 ^ 32 + 0
    let p : Page := { }
    (s.pool.pages.find? k = some p) ∧
    (p.st = PageState.requested ∨ p.st = PageState.revoking) := by decide +kernel

theorem meets_RetriesAndPuts_rt0 :
    (base.pool.remotes.find? 9 = none) := by decide +kernel

theorem meets_RetriesAndPuts_rt1 :
    let s : State := { base with pkg := { st := PkgState.serving, up := 5000 }, pool := { token := some 7, remotes := [(9, { kind := RemoteKind.session, grp := 1, port := 2, deadline := 5001 })] }, ports := [(2, { st := PortState.active, retry := 3 })], ptp := { } }
    let r : Remote := { kind := RemoteKind.session, grp := 1, port := 2, deadline := 5001 }
    let gone : Prop := r.backoff = false ∧ r.answer = none ∧ (s.portAt r.port).unsent 9 = false ∧ r.deadline ≤ s.pkg.up
    (s.pool.remotes.find? 9 = some r) ∧
    (¬gone) := by decide +kernel

theorem meets_RetriesAndPuts_rt2 :
    let s : State := { base with pkg := { st := PkgState.serving, up := 5000 }, pool := { token := some 7, remotes := [(9, { kind := RemoteKind.session, grp := 1, port := 2, attempt := 2, deadline := 5000 })] }, ports := [(2, { st := PortState.active, retry := 3 })], ptp := { } }
    let r : Remote := { kind := RemoteKind.session, grp := 1, port := 2, attempt := 2, deadline := 5000 }
    let retry : Nat := (s.portAt r.port).retry.toNat
    let gone : Prop := r.backoff = false ∧ r.answer = none ∧ (s.portAt r.port).unsent 9 = false ∧ r.deadline ≤ s.pkg.up
    (s.pool.remotes.find? 9 = some r) ∧
    (gone) ∧
    (r.attempt < retry) := by decide +kernel

theorem meets_RetriesAndPuts_rt3 :
    let s : State := { base with pkg := { st := PkgState.serving, up := 5000 }, pool := { token := some 7, remotes := [(9, { kind := RemoteKind.atomic 8 8 0 5 3 true, grp := 1, port := 2, attempt := 3, deadline := 5000 })] }, ports := [(2, { st := PortState.active, retry := 3 })], ptp := { } }
    let r : Remote := { kind := RemoteKind.atomic 8 8 0 5 3 true, grp := 1, port := 2, attempt := 3, deadline := 5000 }
    let retry : Nat := (s.portAt r.port).retry.toNat
    let gone : Prop := r.backoff = false ∧ r.answer = none ∧ (s.portAt r.port).unsent 9 = false ∧ r.deadline ≤ s.pkg.up
    (s.pool.remotes.find? 9 = some r) ∧
    (gone) ∧
    (retry ≤ r.attempt) ∧
    (r.kind = RemoteKind.atomic 8 8 0#3 5#64 3#64 true) := by decide +kernel

theorem meets_RetriesAndPuts_rt4 :
    let s : State := { base with pkg := { st := PkgState.serving, up := 5000 }, pool := { token := some 7, remotes := [(9, { kind := RemoteKind.put 79 0 [1] none, grp := 1, port := 2, attempt := 3, deadline := 5000 })] }, ports := [(2, { st := PortState.active, retry := 3 })], ptp := { } }
    let r : Remote := { kind := RemoteKind.put 79 0 [1] none, grp := 1, port := 2, attempt := 3, deadline := 5000 }
    let retry : Nat := (s.portAt r.port).retry.toNat
    let gone : Prop := r.backoff = false ∧ r.answer = none ∧ (s.portAt r.port).unsent 9 = false ∧ r.deadline ≤ s.pkg.up
    (s.pool.remotes.find? 9 = some r) ∧
    (gone) ∧
    (retry ≤ r.attempt) ∧
    (r.kind = RemoteKind.put 79 0 [1#8] none) := by decide +kernel

theorem meets_RetriesAndPuts_rt5 :
    let s : State := { base with pkg := { st := PkgState.serving, up := 5000 }, pool := { token := some 7, remotes := [(9, { kind := RemoteKind.renew 8, grp := 1, port := 2, attempt := 3, deadline := 5000 })] }, ports := [(2, { st := PortState.active, retry := 3 })], ptp := { } }
    let r : Remote := { kind := RemoteKind.renew 8, grp := 1, port := 2, attempt := 3, deadline := 5000 }
    let retry : Nat := (s.portAt r.port).retry.toNat
    let gone : Prop := r.backoff = false ∧ r.answer = none ∧ (s.portAt r.port).unsent 9 = false ∧ r.deadline ≤ s.pkg.up
    (s.pool.remotes.find? 9 = some r) ∧
    (gone) ∧
    (retry ≤ r.attempt) ∧
    (r.kind = RemoteKind.renew 8) := by decide +kernel

theorem meets_RetriesAndPuts_rt6 :
    let s : State := { base with pkg := { st := PkgState.serving, up := 5000 }, pool := { token := some 7, remotes := [(9, { kind := RemoteKind.session, grp := 1, port := 2, attempt := 3, deadline := 5000 })] }, ports := [(2, { st := PortState.active, retry := 3 })], ptp := { } }
    let r : Remote := { kind := RemoteKind.session, grp := 1, port := 2, attempt := 3, deadline := 5000 }
    let unlocked : Prop := s.ptp.lock = false ∧ (r.kind = RemoteKind.session ∨ (∃ key pf, r.kind = RemoteKind.page key pf) ∨ ∃ key, r.kind = RemoteKind.renew key)
    (s.pool.remotes.find? 9 = some r) ∧
    (r.backoff = false ∨ s.pkg.up < r.deadline ∨ unlocked) := by
  intro s r unlocked
  exact ⟨by decide +kernel, Or.inl (by decide +kernel)⟩

theorem meets_RetriesAndPuts_rt6u :
    let s : State := { base with pkg := { st := PkgState.serving, up := 5000 }, pool := { token := some 7, remotes := [(9, { kind := RemoteKind.session, grp := 1, port := 2, attempt := 2, backoff := true, deadline := 5000 })] }, ports := [(2, { st := PortState.active, retry := 3 })], ptp := { } }
    let r : Remote := { kind := RemoteKind.session, grp := 1, port := 2, attempt := 2, backoff := true, deadline := 5000 }
    let unlocked : Prop := s.ptp.lock = false ∧ (r.kind = RemoteKind.session ∨ (∃ key pf, r.kind = RemoteKind.page key pf) ∨ ∃ key, r.kind = RemoteKind.renew key)
    (s.pool.remotes.find? 9 = some r) ∧
    (r.backoff = false ∨ s.pkg.up < r.deadline ∨ unlocked) := by
  intro s r unlocked
  exact ⟨by decide +kernel, Or.inr (Or.inr ⟨by decide +kernel, Or.inl (by decide +kernel)⟩)⟩

theorem meets_RetriesAndPuts_rt7 :
    let s : State := { base with pkg := { st := PkgState.serving, up := 5000 }, pool := { token := some 7, remotes := [(9, { kind := RemoteKind.session, grp := 1, port := 2, attempt := 2, backoff := true, deadline := 5000 })] }, ports := [(2, { st := PortState.active, retry := 3 })], ptp := { lock := true } }
    let r : Remote := { kind := RemoteKind.session, grp := 1, port := 2, attempt := 2, backoff := true, deadline := 5000 }
    let unlocked : Prop := s.ptp.lock = false ∧ (r.kind = RemoteKind.session ∨ (∃ key pf, r.kind = RemoteKind.page key pf) ∨ ∃ key, r.kind = RemoteKind.renew key)
    (s.pool.remotes.find? 9 = some r) ∧
    (r.backoff = true) ∧
    (r.deadline ≤ s.pkg.up) ∧
    (¬unlocked) ∧
    ((s.portAt r.port).up = true) ∧
    (r.port < 80) := by
  intro s r unlocked
  exact ⟨by decide +kernel, by decide +kernel, by decide +kernel, (fun hu => absurd hu.1 (by decide +kernel)), by decide +kernel, by decide +kernel⟩

theorem meets_RetriesAndPuts_pt1 :
    let s : State := { mapped Tests.base with ports := [(79, { st := PortState.active, rxctx := 1, rxlen := 1, served := [((7, 8), 2)] })] }
    let p : Port := s.portAt 79
    (List.find? (fun e => e.fst == (7#64, 8)) p.served = some ((7#64, 8), 2#8)) := by decide +kernel

theorem meets_RetriesAndPuts_pt2 :
    let s : State := { mapped Tests.base with ports := [(79, { st := PortState.active, rxctx := 1, rxlen := 1, served := [((7, 8), 2)] })] }
    let bs : List Byte := [1, 2]
    let p : Port := s.portAt 79
    let ctx : Nat := p.rxctx.toNat
    let len : Nat := p.rxlen.toNat * 65536
    (List.find? (fun e => e.fst == (7#64, 9)) p.served = none) ∧
    (peerFacing 79 = false ∨ p.rxlen = 0#16 ∨ len < 65535 + bs.length ∨ 0#8 ≠ (s.ctxAt ctx).world) := by decide +kernel

theorem meets_RetriesAndPuts_pt3 :
    let s : State := { mapped Tests.base with ports := [(79, { st := PortState.active, rxctx := 1, rxlen := 1, served := [((7, 8), 2)] })] }
    let p : Port := s.portAt 79
    let len : Nat := p.rxlen.toNat * 65536
    (List.find? (fun e => e.fst == (7#64, 9)) p.served = none) ∧
    (len < 65529 + 8) := by decide +kernel

theorem meets_RetriesAndPuts_pt4 :
    let s : State := { mapped Tests.base with ports := [(79, { st := PortState.active, rxctx := 1, rxlen := 1, served := [((7, 8), 2)] })] }
    let bs : List Byte := [1, 2]
    let p : Port := s.portAt 79
    let ctx : Nat := p.rxctx.toNat
    let base : Nat := p.rxbase.toNat * 65536
    let len : Nat := p.rxlen.toNat * 65536
    let as : List Nat := addrs (2 ^ 29) 2
    (List.find? (fun e => e.fst == (7#64, 9)) p.served = none) ∧
    (peerFacing 79 = true) ∧
    (p.rxlen ≠ 0#16) ∧
    (0 + bs.length ≤ len) ∧
    (0#8 = (s.ctxAt ctx).world) ∧
    (s.hPhysRange ctx (↑(base + 0)) bs.length Right.wr = some as) := by decide +kernel

theorem meets_RetriesAndPuts_pt5 :
    let s : State := { mapped Tests.base with ports := [(79, { st := PortState.active, rxctx := 1, rxlen := 1, served := [((7, 8), 2)] })] }
    let bs : List Byte := [1, 2]
    let p : Port := s.portAt 79
    let ctx : Nat := p.rxctx.toNat
    let base : Nat := p.rxbase.toNat * 65536
    let len : Nat := p.rxlen.toNat * 65536
    let as : List Nat := addrs (2 ^ 29) 2
    let cs : List Nat := addrs (2 ^ 29 + 65528) 8
    let r : List Byte × Bool × State := (s.commitBytes (place as bs)).homeRead cs
    (List.find? (fun e => e.fst == (7#64, 9)) p.served = none) ∧
    (peerFacing 79 = true) ∧
    (p.rxlen ≠ 0#16) ∧
    (0 + bs.length ≤ len) ∧
    (0#8 = (s.ctxAt ctx).world) ∧
    (s.hPhysRange ctx (↑(base + 0)) bs.length Right.wr = some as) ∧
    (65528 + 8 ≤ len) ∧
    (s.hPhysRange ctx (↑(base + 65528)) 8 Right.wr = some cs) ∧
    (r.snd.fst = false) := by decide +kernel

theorem meets_RetriesAndPuts_pt6 :
    let s : State := { { mapped Tests.base with ports := [(79, { st := PortState.active, rxctx := 1, rxlen := 1, served := [((7, 8), 2)] })] } with hbm := { { mapped Tests.base with ports := [(79, { st := PortState.active, rxctx := 1, rxlen := 1, served := [((7, 8), 2)] })] }.hbm with poison := [((2 ^ 29 + 65528) / 64, true)] } }
    let bs : List Byte := [1, 2]
    let p : Port := s.portAt 79
    let ctx : Nat := p.rxctx.toNat
    let base : Nat := p.rxbase.toNat * 65536
    let len : Nat := p.rxlen.toNat * 65536
    let as : List Nat := addrs (2 ^ 29) 2
    let cs : List Nat := addrs (2 ^ 29 + 65528) 8
    let r : List Byte × Bool × State := (s.commitBytes (place as bs)).homeRead cs
    (List.find? (fun e => e.fst == (7#64, 9)) p.served = none) ∧
    (peerFacing 79 = true) ∧
    (p.rxlen ≠ 0#16) ∧
    (0 + bs.length ≤ len) ∧
    (0#8 = (s.ctxAt ctx).world) ∧
    (s.hPhysRange ctx (↑(base + 0)) bs.length Right.wr = some as) ∧
    (65528 + 8 ≤ len) ∧
    (s.hPhysRange ctx (↑(base + 65528)) 8 Right.wr = some cs) ∧
    (r.snd.fst = true) := by decide +kernel

theorem meets_PoolAnswers_page :
    let p : Page := { st := .requested }
    let s : State := { base with pool := { pages := [(21474836480, p)], remotes := [(9, { kind := .page 21474836480 false, grp := 1 })] } }
    let bs : List Byte := List.replicate 65536 0
    s.pool.remotes.find? 9 = some { kind := .page 21474836480 false, grp := 1 } ∧ s.pool.pages.find? 21474836480 = some p ∧
    p.st = .requested ∧ p.late = [] ∧ bs.length = 65536 := ⟨by decide +kernel, by decide +kernel, rfl, rfl, List.length_replicate⟩

end Sys2Proof.Tests.Remotes
end

