-- ==== Sys2Proof/Tests/Queue.lean ====
section
/-! SUPPORT. States that meet the hypotheses of the statements about queues and spores. -/

namespace Sys2Proof.Tests.Queues
open Sys2Proof Sys2Proof.Machine Sys2Proof.Claims
set_option Elab.async false

/-- queue 3 of context 1 -/
def qd (dev auth : Bool) : Tbl Word := [(3, BitVec.ofNat 64 (2 ^ 44 + (if auth then 2 ^ 56 else 0) + (if dev then 4 else 0)))]
def wQ (x : Queue) (st : PkgState := .serving) : State := { base with pkg := { st := st }, queues := [(3, x)] }
def qA : Queue := { desc := qd false false, st := .active, head := 0xFFFFFFFF, tail := 0xFFFFFFFF }
def spore0 : List Byte := wordsBytes [0,1,2,3,4,5,6,7]
def D : Via := .host
def qN : Queue := { desc := [(3, BitVec.ofNat 64 (2 ^ 44))] }
def qAu : Queue := { qA with desc := qd false true, key := some 5, held := some spore0 }
-- spores
def sporeQ (ws : List Word) : Queue := { qA with head := 0, tail := 1, received := [(0, wordsBytes ws)] }
def mk (q : Queue) : State := mapped (wQ q)
def badq : Queue := { qA with head := 0, tail := 1, received := [(0, wordsBytes [2,0,0,0,0,0,0,0] )] }
def tag1 : List Word := [0x58315b28d62eea46, 0xbc89ba13a4cb7136, 0x99b86284a851dfb3, 0xa046bf2b704e1f0e]
def sealed (tag : List Word) (z : Word) (e : Word) : State := mk { qAu with head := 0, tail := 1, received := [(0, wordsBytes ([2,0,0,0,0,0,0,0] ++ (5 :: tag) ++ [z,0,0]))], expected := e }
-- ring read poisoned
def ringS (po : Bool) : State := let s := mapped (wQ { qA with head := 0, tail := 1 }); if po then { s with hbm := { s.hbm with poison := [(2^23, true)] } } else s
-- release
def la (ws : List Word) : Launch := { queue := 3, ctx := 1, words := ws, st := .accepted }
def rl (ws : List Word) (ns : Nat := 5000) : State := let s := mk qA; { s with launches := [(4, la ws)], pkg := { st := .serving, ns := ns } }
def enqS (x : Queue) (t : Strand) : State := { wQ x with } |>.setMe { t with life := .running, x := [(0, { v := 0x300 }), (7, { v := 77 })] }
def qD : Queue := { qA with desc := qd true false }
def dirty (s : State) : State := s.modGroup 1 (fun g => { g with ver := { h := [], p := [(2^48 * 5 + 64, 9)] } })
def held4 (s : State) : State := s.modGroup 1 (fun g => { g with ver := { bounds := [{ id := 4 }] } })

theorem meets_QueueWindowWrites_ql1 :
    let s : State := wQ { qA with desc := qd true false }
    let x : Queue := s.queueAt 3
    (x.feeds Via.host = true) ∧
    (x.st ≠ QState.disabled) ∧
    (x.authenticated = false) ∧
    (spore0.length = 64) ∧
    (x.dev = true) := by decide +kernel

theorem meets_QueueWindowWrites_ql2 :
    let s : State := wQ qA PkgState.draining
    let x : Queue := s.queueAt 3
    (x.feeds Via.host = true) ∧
    (x.st ≠ QState.disabled) ∧
    (x.authenticated = false) ∧
    (spore0.length = 64) ∧
    (x.dev = false) ∧
    (s.pkg.st ≠ PkgState.serving) := by decide +kernel

theorem meets_QueueWindowWrites_ql3 :
    let s : State := wQ { qA with tail := 15 }
    let x : Queue := s.queueAt 3
    (x.feeds Via.host = true) ∧
    (x.st ≠ QState.disabled) ∧
    (x.authenticated = false) ∧
    (spore0.length = 64) ∧
    (x.dev = false) ∧
    (s.pkg.st = PkgState.serving) ∧
    (x.slots < x.ready + 1) := by decide +kernel

theorem meets_QueueWindowWrites_ql4 :
    let s : State := wQ { qA with tail := 14 }
    let x : Queue := s.queueAt 3
    (x.feeds Via.host = true) ∧
    (x.st ≠ QState.disabled) ∧
    (x.authenticated = false) ∧
    (spore0.length = 64) ∧
    (x.dev = false) ∧
    (s.pkg.st = PkgState.serving) ∧
    (x.ready + 1 ≤ x.slots) := by decide +kernel

theorem meets_QueueWindowWrites_qt1 :
    let s : State := wQ qA PkgState.draining
    let x : Queue := s.queueAt 3
    (x.feeds Via.host = true) ∧
    (x.st ≠ QState.disabled) ∧
    (x.dev = false) ∧
    (BitVec.extractLsb' 0 32 5#64 ≠ x.tail) ∧
    (s.pkg.st ≠ PkgState.serving) := by decide +kernel

theorem meets_QueueWindowWrites_qt2 :
    let s : State := wQ qA
    let x : Queue := s.queueAt 3
    let t : BitVec 32 := BitVec.extractLsb' 0 32 16#64
    (x.feeds Via.host = true) ∧
    (x.st ≠ QState.disabled) ∧
    (x.dev = false) ∧
    (BitVec.extractLsb' 0 32 16#64 ≠ x.tail) ∧
    (s.pkg.st = PkgState.serving) ∧
    (x.slots < x.ready + (t - x.tail).toNat) := by decide +kernel

theorem meets_QueueWindowWrites_qt3 :
    let s : State := wQ qA
    let x : Queue := s.queueAt 3
    let t : BitVec 32 := BitVec.extractLsb' 0 32 15#64
    (x.feeds Via.host = true) ∧
    (x.st ≠ QState.disabled) ∧
    (x.dev = false) ∧
    (BitVec.extractLsb' 0 32 15#64 ≠ x.tail) ∧
    (s.pkg.st = PkgState.serving) ∧
    (x.ready + (t - x.tail).toNat ≤ x.slots) := by decide +kernel

theorem meets_QueueWindowWrites_qe1 :
    let s : State := wQ { desc := [(0, 9)] }
    let x : Queue := s.queueAt 3
    (x.owns Via.host = true) ∧
    (x.st = QState.disabled) ∧
    (s.queueValid x = false) := by decide +kernel

theorem meets_QueueWindowWrites_qe2 :
    let s : State := { wQ qN with contexts := [(1, { st := CState.loaded })] }
    let x : Queue := s.queueAt 3
    (x.owns Via.host = true) ∧
    (x.st = QState.disabled) ∧
    (s.queueValid x = true) := by decide +kernel

theorem meets_QueueWindowWrites_qe3 :
    let s : State := wQ { qA with st := QState.stopped, err := 4 }
    let x : Queue := s.queueAt 3
    (x.owns Via.host = true) ∧
    (x.st = QState.stopped) := by decide +kernel

theorem meets_QueueWindowWrites_qs1 :
    let s : State := wQ qA
    let x : Queue := s.queueAt 3
    (x.owns Via.host = true) ∧
    (x.st = QState.active) := by decide +kernel

theorem meets_QueueWindowWrites_qd1 :
    let s : State := wQ qAu
    let via : Via := Via.guest 1
    let x : Queue := s.queueAt 3
    (x.owns via = true) ∧
    (x.st ≠ QState.disabled) := by decide +kernel

theorem meets_QueueWindowWrites_qr1 :
    let s : State := wQ { qAu with st := QState.halted, expected := 3, qseq := 3 }
    let via : Via := Via.guest 1
    let x : Queue := s.queueAt 3
    (x.owns via = true) ∧
    (x.st = QState.halted) ∧
    (BitVec.toNat x.expected ≤ BitVec.toNat x.qseq) := by decide +kernel

theorem meets_QueueWindowWrites_qk1 :
    let s : State := wQ { qAu with st := QState.error, expected := 3, keyFresh := true }
    let via : Via := Via.guest 1
    let x : Queue := s.queueAt 3
    (x.owns via = true) ∧
    (x.st = QState.error ∨ x.st = QState.rekey) ∧
    (x.keyFresh = true) := by decide +kernel

theorem meets_QueueWindowWrites_qw1 :
    let s : State := wQ { }
    let x : Queue := s.queueAt 3
    (x.owns Via.host = true) ∧
    (x.st = QState.disabled) ∧
    (3 < 4) := by decide +kernel

theorem meets_QueueWindowWrites_qw2 :
    let s : State := wQ qA
    let x : Queue := s.queueAt 3
    (x.owns Via.host = true) ∧
    (x.st ≠ QState.disabled) := by decide +kernel

theorem meets_QueueWindowWrites_qo1 :
    let s : State := wQ qAu
    let x : Queue := s.queueAt 3
    (x.owns Via.host = false) := by decide +kernel

theorem meets_QueueWindowWrites_qo1w :
    let s : State := wQ { qAu with st := QState.disabled }
    let x : Queue := s.queueAt 3
    (x.owns Via.host = false) := by decide +kernel

theorem meets_QueueWindowWrites_qo2 :
    let s : State := wQ qAu
    let via : Via := Via.guest 2
    let x : Queue := s.queueAt 3
    (x.feeds via = false) := by decide +kernel

theorem meets_SporesAreConsumedAndReleased_sc1 :
    let s : State := mk (sporeQ [2, 0, 0, 0, 0, 0, 0, 0])
    let x : Queue := s.queueAt 3
    let r : List Byte × Bool × State := s.takeSlot 3
    (s.consumable 3 = true) ∧
    (x.authenticated = false) ∧
    (r.snd.fst = true) := by decide +kernel

theorem meets_SporesAreConsumedAndReleased_sc2 :
    let s : State := mk (sporeQ [7, 0, 0, 0, 0, 0, 0, 0])
    let x : Queue := s.queueAt 3
    let r : List Byte × Bool × State := s.takeSlot 3
    (s.consumable 3 = true) ∧
    (x.authenticated = false) ∧
    (r.snd.fst = true) := by decide +kernel

theorem meets_SporesAreConsumedAndReleased_sc3 :
    let s : State := ringS true
    let x : Queue := s.queueAt 3
    let r : List Byte × Bool × State := s.takeSlot 3
    (s.consumable 3 = true) ∧
    (x.authenticated = false) ∧
    (r.snd.fst = false) := by decide +kernel

theorem meets_SporesAreConsumedAndReleased_sc4 :
    let s : State := ringS false
    let x : Queue := s.queueAt 3
    let r : List Byte × Bool × State := s.takeSlot 3
    (s.consumable 3 = true) ∧
    (x.authenticated = false) ∧
    (r.snd.fst = true) := by decide +kernel

theorem meets_SporesAreConsumedAndReleased_r1 :
    let s : State := rl [0, 6000]
    let x : Launch := la [0, 6000]
    (s.oldestAccepted 3 = some (4, x)) ∧
    (s.releases 3 = false ∨ s.ripe 4 x = false) := by decide +kernel

theorem meets_SporesAreConsumedAndReleased_r2 :
    let s : State := rl [0, 4000]
    let x : Launch := la [0, 4000]
    (s.oldestAccepted 3 = some (4, x)) ∧
    (s.releases 3 = true) ∧
    (s.ripe 4 x = true) ∧
    (sporeType x.words ∈ [0, 1, 5]) := by decide +kernel

theorem meets_SporesAreConsumedAndReleased_r3 :
    let s : State := rl [2, 4001]
    let x : Launch := la [2, 4001]
    (s.oldestAccepted 3 = some (4, x)) ∧
    (s.releases 3 = true) ∧
    (s.ripe 4 x = true) ∧
    (sporeType x.words = 2) := by decide +kernel

theorem meets_SporesAreConsumedAndReleased_r4 :
    let s : State := rl [4, 0]
    let x : Launch := la [4, 0]
    (s.oldestAccepted 3 = some (4, x)) ∧
    (s.releases 3 = true) ∧
    (s.ripe 4 x = true) ∧
    (sporeType x.words = 4) ∧
    (sporeAddr x.words = 0) ∧
    (BitVec.getLsbD (x.words.getD 2 0#64) 48 = false) := by decide +kernel

theorem meets_SporesAreConsumedAndReleased_r5 :
    let s : State := rl [3, 0, 8, 1]
    let x : Launch := la [3, 0, 8, 1]
    let a : Nat := ((s.counterRead 1 (sporeAddr [3, 0, 8, 1])).fst.getD (0, 0)).snd
    let u : State := (s.counterRead 1 (sporeAddr [3, 0, 8, 1])).snd
    let value : Nat := (0 + u.reported a) % 2 ^ 64
    (s.oldestAccepted 3 = some (4, x)) ∧
    (s.releases 3 = true) ∧
    (s.ripe 4 x = true) ∧
    (sporeType x.words = 3) ∧
    (s.counterRead x.ctx (sporeAddr x.words) = (some (0, a), u)) ∧
    (value < BitVec.toNat (x.words.getD 3 0#64)) := by decide +kernel

theorem meets_SporesAreConsumedAndReleased_r5b :
    let s : State := rl [3, 0, 8, 0]
    let x : Launch := la [3, 0, 8, 0]
    let a : Nat := ((s.counterRead 1 (sporeAddr [3, 0, 8, 0])).fst.getD (0, 0)).snd
    let u : State := (s.counterRead 1 (sporeAddr [3, 0, 8, 0])).snd
    let value : Nat := (0 + u.reported a) % 2 ^ 64
    (s.oldestAccepted 3 = some (4, x)) ∧
    (s.releases 3 = true) ∧
    (s.ripe 4 x = true) ∧
    (sporeType x.words = 3) ∧
    (s.counterRead x.ctx (sporeAddr x.words) = (some (0, a), u)) ∧
    (BitVec.toNat (x.words.getD 3 0#64) ≤ value) := by decide +kernel

theorem meets_SporesAreConsumedAndReleased_r5n :
    let s : State := rl [3, 0, 17179869184, 1]
    let x : Launch := la [3, 0, 17179869184, 1]
    let u : State := (s.counterRead 1 (sporeAddr [3, 0, 17179869184, 1])).snd
    (s.oldestAccepted 3 = some (4, x)) ∧
    (s.releases 3 = true) ∧
    (s.ripe 4 x = true) ∧
    (sporeType x.words = 3) ∧
    (s.counterRead x.ctx (sporeAddr x.words) = (none, u)) := by decide +kernel

theorem meets_SporesAreConsumedAndReleased_le :
    let s : State := { rl [0] with launches := [(4, { la [0] with st := LState.running, ntasks := 2, next := 2, completed := 1, lost := 1 })] }
    let x : Launch := { la [0] with st := LState.running, ntasks := 2, next := 2, completed := 1, lost := 1 }
    (s.launches.find? 4 = some x) ∧
    (x.st.live = true) ∧
    (x.graph = []) ∧
    (x.frond = none) ∧
    (x.ntasks ≤ x.next) ∧
    (s.liveGroups 4 = []) := by decide +kernel

theorem meets_SporesAreConsumedAndReleased_eq1 :
    let s : State := enqS qA { }
    let i : Instr := Instr.enq bare 1 0
    let rs : List Reg := List.map (fun j => s.me.rd (0 + BitVec.ofNat 6 j)) [0, 1, 2, 3, 4, 5, 6, 7]
    let q : Nat := bitsOf (s.me.rd 0).v 8 10
    let x : Queue := s.queueAt q
    (s.issues i 1 = true) ∧
    (∀ (r : Reg), r ∈ rs → r.poison = false) ∧
    (x.dev = false ∨ x.ctx ≠ s.myCtx) := by decide +kernel

theorem meets_SporesAreConsumedAndReleased_eq2 :
    let s : State := enqS qD { micro := { stage := 1, id := 4 } }
    let i : Instr := Instr.enq bare 1 0
    let rs : List Reg := List.map (fun j => s.me.rd (0 + BitVec.ofNat 6 j)) [0, 1, 2, 3, 4, 5, 6, 7]
    let q : Nat := bitsOf (s.me.rd 0).v 8 10
    let set : Bool → State → State := fun v u => u.modMe fun t => if 1#4 = 0#4 then t else { t with p := Tbl.set { } t.p 1 { v := v } }
    (s.me.micro.stage = 1) ∧
    (s.boundaryDone s.grp s.me.micro.id = true) ∧
    (s.pkg.st = PkgState.serving) ∧
    ((s.queueAt q).st = QState.active) ∧
    ((s.queueAt q).buffer.length < 64) ∧
    (s.hasRoom i (set true (s.modQueue q fun x_1 => { x_1 with tail := x_1.tail + 1#32, buffer := x_1.buffer ++ [List.map (fun r => r.v) rs] })) = true) := by decide +kernel

theorem meets_SporesAreConsumedAndReleased_eq3 :
    let s : State := enqS { qD with st := QState.stopped } { micro := { stage := 1, id := 4 } }
    let i : Instr := Instr.enq bare 1 0
    let q : Nat := bitsOf (s.me.rd 0).v 8 10
    let set : Bool → State → State := fun v u => u.modMe fun t => if 1#4 = 0#4 then t else { t with p := Tbl.set { } t.p 1 { v := v } }
    (s.me.micro.stage = 1) ∧
    (s.boundaryDone s.grp s.me.micro.id = true) ∧
    (s.pkg.st ≠ PkgState.serving ∨ (s.queueAt q).st ≠ QState.active ∨ 64 ≤ (s.queueAt q).buffer.length) ∧
    (s.hasRoom i (set false s) = true) := by decide +kernel

theorem meets_SporesAreConsumedAndReleased_eq4 :
    let s : State := dirty (enqS qD { })
    let i : Instr := Instr.enq bare 1 0
    let rs : List Reg := List.map (fun j => s.me.rd (0 + BitVec.ofNat 6 j)) [0, 1, 2, 3, 4, 5, 6, 7]
    let q : Nat := bitsOf (s.me.rd 0).v 8 10
    let x : Queue := s.queueAt q
    (s.issues i 1 = true) ∧
    (∀ (r : Reg), r ∈ rs → r.poison = false) ∧
    (x.dev = true) ∧
    (x.ctx = s.myCtx) := by decide +kernel

theorem meets_SporesAreConsumedAndReleased_eq5 :
    let s : State := held4 (enqS qD { micro := { stage := 1, id := 4 } })
    (s.me.micro.stage = 1) ∧
    (s.boundaryDone s.grp s.me.micro.id = false) := by decide +kernel

/-- The words behind a slot's spore: its sequence number, its tag and three that must be 0. -/
def slotTail (s : State) : List Word := bytesWords 8 ((s.takeSlot 3).1.drop 64)
/-- The tag is the one under the queue's key. -/
@[irreducible] def tagMatches (s : State) : Prop :=
  wordsBytes (((slotTail s).drop 1).take 4) = kmac256 (bytesLE 32 ((((s.takeSlot 3).2.2.queueAt 3).key).getD 0).toNat)
    (bytesLE 2 3 ++ wordBytes ((slotTail s).getD 0 0) ++ (s.takeSlot 3).1.take 64) "CRELEK RING" 32
set_option maxHeartbeats 4000000 in
theorem tag_of_spore : kmac256 (bytesLE 32 5) (bytesLE 2 3 ++ wordBytes 5 ++ wordsBytes [2, 0, 0, 0, 0, 0, 0, 0]) "CRELEK RING" 32 =
    wordsBytes tag1 := by decide +kernel
theorem zeros_of {l : List Word} (h : l.all (fun w => w == 0) = true) : ∀ w ∈ l, w = 0 :=
  fun w hw => by simpa using List.all_eq_true.1 h w hw
theorem tagMatches_of {s : State} (h1 : wordsBytes (((slotTail s).drop 1).take 4) = wordsBytes tag1)
    (h2 : ((((s.takeSlot 3).2.2.queueAt 3).key).getD 0).toNat = 5)
    (h3 : bytesLE 2 3 ++ wordBytes ((slotTail s).getD 0 0) ++ (s.takeSlot 3).1.take 64 =
      bytesLE 2 3 ++ wordBytes 5 ++ wordsBytes [2, 0, 0, 0, 0, 0, 0, 0]) : tagMatches s := by
  unfold tagMatches; rw [h1, h2, h3, tag_of_spore]

theorem meets_SporesAreConsumedAndReleased_sealEqual :
    let s : State := sealed tag1 0 5
    let x : Queue := s.queueAt 3
    let seq : Word := (slotTail s).getD 0 0
    tagMatches s ∧ (∀ w ∈ (slotTail s).drop 5, w = 0) ∧ s.consumable 3 = true ∧ x.authenticated = true ∧
    (s.takeSlot 3).2.1 = true ∧ seq = x.expected ∧ seq ≠ BitVec.allOnes 64 :=
  ⟨tagMatches_of (by decide +kernel) (by decide +kernel) (by decide +kernel), zeros_of (by decide +kernel), by decide +kernel⟩

theorem meets_SporesAreConsumedAndReleased_sealBefore :
    let s : State := sealed tag1 0 6
    let x : Queue := s.queueAt 3
    let seq : Word := (slotTail s).getD 0 0
    tagMatches s ∧ (∀ w ∈ (slotTail s).drop 5, w = 0) ∧ s.consumable 3 = true ∧ x.authenticated = true ∧
    (s.takeSlot 3).2.1 = true ∧ seq.toNat < x.expected.toNat :=
  ⟨tagMatches_of (by decide +kernel) (by decide +kernel) (by decide +kernel), zeros_of (by decide +kernel), by decide +kernel⟩

theorem meets_SporesAreConsumedAndReleased_sealAfter :
    let s : State := sealed tag1 0 4
    let x : Queue := s.queueAt 3
    let seq : Word := (slotTail s).getD 0 0
    tagMatches s ∧ (∀ w ∈ (slotTail s).drop 5, w = 0) ∧ s.consumable 3 = true ∧ x.authenticated = true ∧
    (s.takeSlot 3).2.1 = true ∧ x.expected.toNat < seq.toNat :=
  ⟨tagMatches_of (by decide +kernel) (by decide +kernel) (by decide +kernel), zeros_of (by decide +kernel), by decide +kernel⟩

theorem meets_SporesAreConsumedAndReleased_sealBad :
    let s : State := sealed tag1 1 5
    (¬ ∀ w ∈ (slotTail s).drop 5, w = 0) ∧ s.consumable 3 = true ∧ (s.queueAt 3).authenticated = true ∧
    (s.takeSlot 3).2.1 = true := ⟨fun h => absurd (h 1 (by decide +kernel)) (by decide), by decide +kernel⟩

end Sys2Proof.Tests.Queues
end

