-- ==== Sys2Proof/Tests/Rachis.lean ====
section
/-! SUPPORT. States that meet the hypotheses of the statements about traps, the package and the context window. -/

namespace Sys2Proof.Tests.Events
open Sys2Proof Sys2Proof.Machine Sys2Proof.Claims
set_option Elab.async false

def hst (t : Strand) : State := (withMe t).modCtx 1 (fun c => { c with desc := [(2, 64), (7, 0)] , st := .running })
def codeS (bs : List Byte) : State := (mapped base).pokeHbm (2^29) bs
def ft (s : State) : BitVec 8 × Word := match s.fetchMine with | .fault c a => (c, a) | _ => (0, 0)
def gof (s : State) : Group := (s.groups.find? 1).getD group1
def cf (t : Strand) : State := ((hst t).modCore 0 (fun c => { c with channels := [(2, { st := .stopped, fpend := true, faultOwner := 0 })] }))
def pk (p : Package) : State := { base with pkg := p }
/-- A page without the execute right. -/
def setupNoEx : State := (mapped base).pokeHbm (2 ^ 28 + 16384) (wordBytes (0xE000000000000000#64 ||| BitVec.ofNat 64 (2 ^ 29)))
def prep (a : BitVec 48) : State := (codeS (code (.nop bare))).setMe { life := .running, b := [(2, { st := .preparing, target := a })] }
def aged : State := { base with ports := [(2, { lanes := [(3, { fresh := 9 })] })] }
def lastClock : State := { (pk { st := .draining, drainDeadline := some 6, ns := 6 }) with launches := [(1, { queue := 0, ctx := 1, st := .running, ntasks := 3, next := 1 })] }
def overTime : State := { lastClock with pkg := { lastClock.pkg with deadlineNow := true } }

theorem meets_TrapEntersTheHandler_tr1 :
    let s : State := withMe inTrap
    let t : Strand := s.me
    (t.hidden ≠ none) := by decide +kernel

theorem meets_TrapEntersTheHandler_tr2 :
    let s : State := base.modCtx 1 fun c => { c with desc := [] }
    let t : Strand := s.me
    let entry : BitVec 48 := (s.ctxAt s.myCtx).hentry
    (t.hidden = none) ∧
    (entry = 0#48) := by decide +kernel

theorem meets_TrapEntersTheHandler_tr3 :
    let s : State := hst { life := Life.running, x := [(3, { v := 5 })], sg := 3, pc := 36, rb := 2, loops := [{ remain := 2 }] }
    let t : Strand := s.me
    let entry : BitVec 48 := (s.ctxAt s.myCtx).hentry
    (t.hidden = none) ∧
    (entry ≠ 0#48) ∧
    (t.preemptAt = none) ∧
    (t.stopSoon = false) ∧
    (t.haltSoon = false) ∧
    (t.ending = false) ∧
    (t.life ≠ Life.halted) := by decide +kernel

theorem meets_StrandEventsTrap_ev1 :
    let s : State := codeS [1, 0, 16, 0]
    (s.fetchMine = Fetch.illegal 0x100001#32) ∧
    (s.me.outs = 0) ∧
    (s.strandInstr = some Instr.illegalEncoding) := by decide +kernel

theorem meets_StrandEventsTrap_ev1b :
    let s : State := codeS [0, 0, 0, 255]
    (s.fetchMine = Fetch.illegal 0xff000000#32) ∧
    (s.me.outs = 0) ∧
    (s.strandInstr = some Instr.fetchFault) := by decide +kernel

theorem meets_StrandEventsTrap_ev2 :
    let c : BitVec 8 := (ft base).fst
    let a : Word := (ft base).snd
    (base.fetchMine = Fetch.fault c a) ∧
    (base.strandInstr = some Instr.fetchFault) ∧
    (c ≠ 128#8) ∧
    (base.me.outs = 0) := by decide +kernel

theorem meets_StrandEventsTrap_ev2b :
    let c : BitVec 8 := (ft setupNoEx).fst
    let a : Word := (ft setupNoEx).snd
    (setupNoEx.fetchMine = Fetch.fault c a) ∧
    (setupNoEx.strandInstr = some Instr.fetchFault) ∧
    (c = 128#8) := by decide +kernel

theorem meets_StrandEventsTrap_ev2c :
    let s : State := base.modMe fun t => { t with outs := 1 }
    (s.fetchMine = Fetch.fault 3#8 0#64) ∧
    (s.strandInstr = some Instr.fetchFault) ∧
    (3#8 ≠ 128#8) ∧
    (s.me.outs ≠ 0) := by decide +kernel

theorem meets_StrandEventsTrap_ev3 :
    let s : State := codeS (code (Instr.nop bare))
    (s.strandInstr ≠ some Instr.fetchFault) := by decide +kernel

theorem meets_StrandEventsTrap_ev4 :
    let s : State := codeS (code (Instr.nop bare))
    (s.strandInstr ≠ some Instr.illegalEncoding) := by decide +kernel

theorem meets_StrandEventsTrap_pf1 :
    let s : State := prep 0
    let x : Group := gof s
    let t : Strand := s.strandAt 0 0
    let r : Btr := t.btr 2
    (r.st = BState.preparing) ∧
    (s.groupOf 0 = some 1) ∧
    (s.groups.find? 1 = some x) ∧
    (s.targetFault x.ctx ↑r.target.toNat = none) := by decide +kernel

theorem meets_StrandEventsTrap_pf2 :
    let s : State := prep 68719476736
    let x : Group := gof s
    let t : Strand := s.strandAt 0 0
    let r : Btr := t.btr 2
    let f : BitVec 8 := (s.targetFault 1 68719476736).getD 0
    (r.st = BState.preparing) ∧
    (s.groupOf 0 = some 1) ∧
    (s.groups.find? 1 = some x) ∧
    (s.targetFault x.ctx ↑r.target.toNat = some f) := by decide +kernel

theorem meets_StrandEventsTrap_pf3 :
    (((base.strandAt 0 0).btr 2).st ≠ BState.preparing) := by decide +kernel

theorem meets_StrandEventsTrap_cf1 :
    let s : State := cf { life := Life.handler, hidden := some { } }
    let t : Strand := s.strandAt 0 0
    ((s.coreAt 0).owedChannel 0 = some 2) ∧
    (t.hidden ≠ none) := by decide +kernel

theorem meets_StrandEventsTrap_cf2 :
    let s : State := cf { life := Life.running, micro := { stage := 1 } }
    let t : Strand := s.strandAt 0 0
    ((s.coreAt 0).owedChannel 0 = some 2) ∧
    (t.outs ≠ 0 ∨ t.life = Life.running ∧ t.micro.stage ≠ 0) := by decide +kernel

theorem meets_StrandEventsTrap_cf3 :
    let s : State := cf { life := Life.waiting, wait := Wait.barrier 1 7, micro := { stage := 1 } }
    let t : Strand := s.strandAt 0 0
    ((s.coreAt 0).owedChannel 0 = some 2) ∧
    (t.hidden = none) ∧
    (t.outs = 0) ∧
    (t.life = Life.waiting ∨ (t.life = Life.running ∨ t.life = Life.halted ∧ t.stepping = true) ∧ t.micro.stage = 0) := by decide +kernel

theorem meets_StrandEventsTrap_cf4 :
    let s : State := cf { life := Life.running }
    let t : Strand := s.strandAt 0 0
    ((s.coreAt 0).owedChannel 0 = some 2) ∧
    (t.hidden = none) ∧
    (t.outs = 0) ∧
    (t.life = Life.waiting ∨ (t.life = Life.running ∨ t.life = Life.halted ∧ t.stepping = true) ∧ t.micro.stage = 0) := by decide +kernel

theorem meets_StrandEventsTrap_cf5 :
    let s : State := cf { life := Life.halted, stepping := true }
    let t : Strand := s.strandAt 0 0
    ((s.coreAt 0).owedChannel 0 = some 2) ∧
    (t.hidden = none) ∧
    (t.outs = 0) ∧
    (t.life = Life.waiting ∨ (t.life = Life.running ∨ t.life = Life.halted ∧ t.stepping = true) ∧ t.micro.stage = 0) := by decide +kernel

theorem meets_PackageStates_pg1 :
    (State.reset.pkg.st = PkgState.reset) := by decide +kernel

theorem meets_PackageStates_pg2 :
    (base.pkg.st ≠ PkgState.reset) := by decide +kernel

theorem meets_PackageStates_id1 :
    (base.pkg.st ≠ PkgState.identify) := by decide +kernel

theorem meets_PackageStates_id2 :
    let s : State := pk { st := PkgState.identify }
    (s.pkg.st = PkgState.identify) := by decide +kernel

theorem meets_PackageStates_pf1 :
    let s : State := pk { st := PkgState.identify }
    (s.pkg.st = PkgState.identify) := by decide +kernel

theorem meets_PackageStates_pf2 :
    (base.pkg.st ≠ PkgState.identify) := by decide +kernel

theorem meets_PackageStates_cl1 :
    (base.pkg.st ≠ PkgState.configure) := by decide +kernel

theorem meets_PackageStates_cl2 :
    let s : State := pk { st := PkgState.configure }
    (s.pkg.st = PkgState.configure) := by decide +kernel

theorem meets_PackageStates_cl3 :
    let s : State := { pk { st := PkgState.configure } with flash := { recoveryFloor := 9 } }
    let signed : Image → Prop := fun i => i.length = i.bytes.length ∧ shake256 i.key 64 = Config.romKeyDigest ∧ Config.xmssVerify i.key (bytesLE 8 i.length ++ bytesLE 4 i.version.toNat ++ i.bytes) i.signature = true
    let good : Image → BitVec 32 → Prop := fun i floor => signed i ∧ floor.toNat ≤ i.version.toNat
    let ok : Prop := s.flashAnswers = true ∧ good s.flash.recovery s.flash.recoveryFloor ∧ good s.flash.bitstream s.flash.bitstreamFloor
    (s.pkg.st = PkgState.configure) ∧
    (¬ok) := by
  intro s signed good ok
  exact ⟨by decide +kernel, (fun hg => absurd hg.2.1.2 (by decide +kernel))⟩

theorem meets_PackageStates_se1 :
    let s : State := pk { st := PkgState.train, up := 2000000005, trainSince := 5 }
    (s.pkg.st = PkgState.train) ∧
    (s.pool.token = none) ∧
    (s.pkg.trainSince + 2000000000 ≤ s.pkg.up) := by decide +kernel

theorem meets_PackageStates_se2 :
    let s : State := pk { st := PkgState.train, up := 2000000004, trainSince := 5 }
    (s.pkg.st ≠ PkgState.train ∨ s.pool.token ≠ none ∨ s.pkg.up < s.pkg.trainSince + 2000000000) := by decide +kernel

theorem meets_PackageStates_dr1 :
    let s : State := pk { st := PkgState.train }
    (s.pkg.st ≠ PkgState.serving) := by decide +kernel

theorem meets_PackageStates_dr2 :
    let s : State := pk { st := PkgState.serving, ns := 7 }
    (s.pkg.st = PkgState.serving) := by decide +kernel

theorem meets_PackageStates_dt1 :
    let s : State := pk { st := PkgState.draining }
    let idle : Prop := ∀ (e : Nat × Group), e ∈ s.groups → e.snd.st = GState.retired ∨ e.snd.st = GState.ended
    (s.pkg.st ≠ PkgState.draining ∨ ¬idle) := by decide +kernel

theorem meets_PackageStates_dt2 :
    let s : State := { pk { st := PkgState.draining } with groups := [(1, { group1 with st := GState.retired })] }
    let idle : Prop := ∀ (e : Nat × Group), e ∈ s.groups → e.snd.st = GState.retired ∨ e.snd.st = GState.ended
    (s.pkg.st = PkgState.draining) ∧
    (idle) := by decide +kernel

theorem meets_PackageStates_re1 :
    let s : State := pk { st := PkgState.quiesced, ns := 77 }
    (s.pkg.st = PkgState.quiesced) := by decide +kernel

theorem meets_PackageStates_re2 :
    (base.pkg.st ≠ PkgState.quiesced) := by decide +kernel

theorem meets_PackageStates_rs1 :
    let i : Instr := Instr.pkgCtlReset Via.host
    (i ∈ [Instr.pkgCtlReset Via.host, Instr.powerLoss]) := by decide +kernel

theorem meets_PackageStates_rs2 :
    (Instr.powerLoss ∈ [Instr.pkgCtlReset Via.host, Instr.powerLoss]) := by decide +kernel

theorem meets_PackageStates_fa1 :
    (base.pkg.st ≠ PkgState.reset) ∧
    (base.pkg.st ≠ PkgState.failed) := by decide +kernel

theorem meets_PackageStates_fa2 :
    let s : State := pk { st := PkgState.failed }
    (s.pkg.st = PkgState.reset ∨ s.pkg.st = PkgState.failed) := by decide +kernel

theorem meets_PackageStates_dd1 :
    (base.pkg.drainDeadline = none ∨ base.pkg.st ≠ PkgState.draining) := by decide +kernel

theorem meets_PackageStates_dd2 :
    let s : State := pk { st := PkgState.draining, drainDeadline := some 6, ns := 5 }
    (s.pkg.drainDeadline = some 6) ∧
    (s.pkg.ns < 6) := by decide +kernel

theorem meets_PackageStates_dd3 :
    (lastClock.pkg.drainDeadline = some 6) ∧
    (lastClock.pkg.st = PkgState.draining) ∧
    (6 ≤ lastClock.pkg.ns) := by decide +kernel

theorem meets_PackageStates_dd4 :
    (overTime.pkg.deadlineNow = true) ∧
    (overTime.pkg.st = PkgState.draining) := by decide +kernel

theorem meets_PackageStates_dd5 :
    (lastClock.pkg.deadlineNow = false ∨ lastClock.pkg.st ≠ PkgState.draining) := by decide +kernel

/-- A firmware image of no bytes with this key and signature. -/
def emptyImage (key sig : List Byte) : Image := { length := 0, version := 0, bytes := [], key := key, signature := sig }
/-- Whatever image the opaque verification takes, a package that holds it meets the premises. -/
theorem meets_PackageStates_cl4 (key sig : List Byte) (hk : shake256 key 64 = Config.romKeyDigest)
    (hv : Config.xmssVerify key (bytesLE 8 0 ++ bytesLE 4 0 ++ []) sig = true) :
    let i := emptyImage key sig
    let s : State := { (pk { st := .configure }) with flash := { recovery := i, bitstream := i } }
    let signed := fun (i : Image) => i.length = i.bytes.length ∧ shake256 i.key 64 = Config.romKeyDigest ∧
      Config.xmssVerify i.key (bytesLE 8 i.length ++ bytesLE 4 i.version.toNat ++ i.bytes) i.signature = true
    let good := fun (i : Image) (floor : BitVec 32) => signed i ∧ floor.toNat ≤ i.version.toNat
    s.pkg.st = .configure ∧ (s.flashAnswers = true ∧ good s.flash.recovery s.flash.recoveryFloor ∧
      good s.flash.bitstream s.flash.bitstreamFloor) ∧ s.pool.token = none :=
  ⟨rfl, ⟨rfl, ⟨⟨rfl, hk, hv⟩, Nat.le_refl 0⟩, ⟨rfl, hk, hv⟩, Nat.le_refl 0⟩, rfl⟩

end Sys2Proof.Tests.Events

namespace Sys2Proof.Tests.Windows
open Sys2Proof Sys2Proof.Machine Sys2Proof.Claims
set_option Elab.async false

def cx (c : Context) : State := { base with contexts := [(1, c)] }
def dg (t : Strand) : State :=
  let s := base.modCore 0 (fun c => { c with strands := (2, t) :: c.strands, dbg := { dsel := 2, ibp := [(0, BitVec.ofNat 64 (2^63 + 2^48 + 8))] } })
  s.modCtx 1 (fun c => { c with desc := [(0, 1), (2, 64)] })
def moving (k : Nat) : State := { (cx { st := .running, pendingInval := some { kind := k, addr := 5, len := 6 }, desc := [(2, 64)] }) with cores := [(0, { group := some 1, strands := first {}, channels := [(1, { st := .busy, queue := [{ transfer1 64 0 with tmpl := (tmpl 64 0).set 5 0xD0, landed := [(1, true)] }] })] })] }

theorem meets_ContextWindow_re0 :
    let s : State := cx { desc := [(2, 64)], st := CState.running }
    let c : Context := s.ctxAt 1
    let via : Via := Via.guest 3
    (c.reached via = false) := by decide +kernel

theorem meets_ContextWindow_dr0 :
    let s : State := cx { desc := [(0, 216172782113783808), (2, 64)], st := CState.running }
    let c : Context := s.ctxAt 1
    (c.reached Via.host = true) ∧
    (c.drives Via.host = false) := by decide +kernel

theorem meets_ContextWindow_cr1 :
    let s : State := cx { desc := [(2, 64)], st := CState.running }
    let c : Context := s.ctxAt 1
    let exists' : Prop := c.st ≠ CState.none ∧ c.st ≠ CState.retired
    (c.drives Via.host = true) ∧
    (exists') := by decide +kernel

theorem meets_ContextWindow_cr2 :
    let s : State := cx { desc := [(2, 65)] }
    let c : Context := s.ctxAt 1
    let exists' : Prop := c.st ≠ CState.none ∧ c.st ≠ CState.retired
    (c.drives Via.host = true) ∧
    (¬exists') ∧
    (s.ctxValid 1 = false) := by decide +kernel

theorem meets_ContextWindow_cr3 :
    let s : State := cx { desc := [(2, 64)], st := CState.retired, cgen := 6, err := 3, counters := [(1, 1)] }
    let c : Context := s.ctxAt 1
    let exists' : Prop := c.st ≠ CState.none ∧ c.st ≠ CState.retired
    (c.drives Via.host = true) ∧
    (¬exists') ∧
    (s.ctxValid 1 = true) := by decide +kernel

theorem meets_ContextWindow_al1 :
    let s : State := cx { desc := [(2, 64)], st := CState.failed }
    let c : Context := s.ctxAt 1
    let exists' : Prop := c.st ≠ CState.none ∧ c.st ≠ CState.retired
    let alive : Prop := exists' ∧ c.st ≠ CState.failed
    (c.drives Via.host = true) ∧
    (¬alive) := by decide +kernel

theorem meets_ContextWindow_cg1 :
    let s : State := cx { desc := [(2, 64)], st := CState.created, cgen := BitVec.allOnes 32 }
    let c : Context := s.ctxAt 1
    let exists' : Prop := c.st ≠ CState.none ∧ c.st ≠ CState.retired
    let alive : Prop := exists' ∧ c.st ≠ CState.failed
    (c.drives Via.host = true) ∧
    (alive) ∧
    (c.pendingLoad = none) ∧
    (c.cgen = BitVec.allOnes 32) := by decide +kernel

theorem meets_ContextWindow_cg2 :
    let s : State := cx { desc := [(2, 64)], st := CState.created, cgen := 4, inv := 5, len := 6 }
    let c : Context := s.ctxAt 1
    let exists' : Prop := c.st ≠ CState.none ∧ c.st ≠ CState.retired
    let alive : Prop := exists' ∧ c.st ≠ CState.failed
    (c.drives Via.host = true) ∧
    (alive) ∧
    (c.pendingLoad = none) ∧
    (c.cgen ≠ BitVec.allOnes 32) := by decide +kernel

theorem meets_ContextWindow_in1 :
    let s : State := cx { desc := [(2, 64)], st := CState.created, cgen := 4, inv := 5, len := 6 }
    let c : Context := s.ctxAt 1
    let exists' : Prop := c.st ≠ CState.none ∧ c.st ≠ CState.retired
    let alive : Prop := exists' ∧ c.st ≠ CState.failed
    (c.drives Via.host = true) ∧
    (alive) ∧
    (c.pendingInval = none) ∧
    (c.named.kind ≤ 4) := by decide +kernel

theorem meets_ContextWindow_co1 :
    let s : State := { cx { desc := [(2, 64)], st := CState.running, pendingLoad := some { kind := 1, addr := 5, len := 6 } } with cores := [(0, { strands := first { life := Life.running, b := [(1, { st := BState.preparing })] }, group := some 1 })] }
    let c : Context := s.ctxAt 1
    let exists' : Prop := c.st ≠ CState.none ∧ c.st ≠ CState.retired
    let alive : Prop := exists' ∧ c.st ≠ CState.failed
    let r : Inval := { kind := 1, addr := 5, len := 6 }
    (c.pendingLoad = some r) ∧
    (alive) ∧
    (s.prefetching 1 = true) := by decide +kernel

theorem meets_ContextWindow_co2 :
    let s : State := cx { desc := [(2, 64)], st := CState.created, cgen := 4, pendingLoad := some { kind := 1, addr := 5, len := 6 } }
    let c : Context := s.ctxAt 1
    let exists' : Prop := c.st ≠ CState.none ∧ c.st ≠ CState.retired
    let alive : Prop := exists' ∧ c.st ≠ CState.failed
    let r : Inval := { kind := 1, addr := 5, len := 6 }
    (c.pendingLoad = some r) ∧
    (alive) ∧
    (s.prefetching 1 = false) := by decide +kernel

theorem meets_ContextWindow_iv1 :
    let s : State := moving 3
    let c : Context := s.ctxAt 1
    let exists' : Prop := c.st ≠ CState.none ∧ c.st ≠ CState.retired
    let alive : Prop := exists' ∧ c.st ≠ CState.failed
    let r : Inval := { kind := 3, addr := 5, len := 6 }
    (c.pendingInval = some r) ∧
    (alive) ∧
    (r.kind = 3) ∧
    (s.templateUsed 1 = true) := by decide +kernel

theorem meets_ContextWindow_iv0 :
    let s : State := moving 1
    let c : Context := s.ctxAt 1
    let exists' : Prop := c.st ≠ CState.none ∧ c.st ≠ CState.retired
    let alive : Prop := exists' ∧ c.st ≠ CState.failed
    let r : Inval := { kind := 1, addr := 5, len := 6 }
    (c.pendingInval = some r) ∧
    (alive) ∧
    (r.kind ≤ 1) ∧
    (s.copyOpen 1 = true) := by decide +kernel

theorem meets_ContextWindow_iv2 :
    let s : State := cx { desc := [(2, 64)], st := CState.running, pendingInval := some { kind := 1, addr := 5, len := 6 }, cached := some 3 }
    let c : Context := s.ctxAt 1
    let exists' : Prop := c.st ≠ CState.none ∧ c.st ≠ CState.retired
    let alive : Prop := exists' ∧ c.st ≠ CState.failed
    let r : Inval := { kind := 1, addr := 5, len := 6 }
    (c.pendingInval = some r) ∧
    (alive) ∧
    (r.kind = 3 → s.templateUsed 1 = false) ∧
    (r.kind ≤ 1 → s.copyOpen 1 = false) := by decide +kernel

theorem meets_ContextWindow_iv3 :
    let s : State := cx { desc := [(2, 64)], st := CState.running, pendingInval := some { kind := 2, addr := 5, len := 6 }, cached := some 3 }
    let c : Context := s.ctxAt 1
    let exists' : Prop := c.st ≠ CState.none ∧ c.st ≠ CState.retired
    let alive : Prop := exists' ∧ c.st ≠ CState.failed
    let r : Inval := { kind := 2, addr := 5, len := 6 }
    (c.pendingInval = some r) ∧
    (alive) ∧
    (r.kind = 3 → s.templateUsed 1 = false) ∧
    (r.kind ≤ 1 → s.copyOpen 1 = false) := by decide +kernel

theorem meets_ContextWindow_en1 :
    let s : State := cx { desc := [(2, 64)], st := CState.retired }
    let c : Context := s.ctxAt 1
    let exists' : Prop := c.st ≠ CState.none ∧ c.st ≠ CState.retired
    (c.reached Via.host = true) ∧
    (¬exists') := by decide +kernel

theorem meets_ContextWindow_en2 :
    let s : State := cx { desc := [(2, 64)], st := CState.running }
    let c : Context := s.ctxAt 1
    let exists' : Prop := c.st ≠ CState.none ∧ c.st ≠ CState.retired
    (c.reached Via.host = true) ∧
    (exists') := by decide +kernel

theorem meets_ContextWindow_bi1 :
    let s : State := cx { desc := [(2, 64)], st := CState.running }
    let c : Context := s.ctxAt 1
    let exists' : Prop := c.st ≠ CState.none ∧ c.st ≠ CState.retired
    (exists') := by decide +kernel

theorem meets_ContextWindow_bi2 :
    let s : State := cx { desc := [(2, 64)], st := CState.retired }
    let c : Context := s.ctxAt 1
    let exists' : Prop := c.st ≠ CState.none ∧ c.st ≠ CState.retired
    (¬exists') := by decide +kernel

theorem meets_ContextWindow_bi3 :
    let s : State := cx { desc := [(0, 216172782113783808), (2, 64)], st := CState.running }
    let c : Context := s.ctxAt 1
    (3#8 ≠ 0#8) ∧
    (c.world = 3#8) := by decide +kernel

theorem meets_ContextWindow_rq1 :
    let s : State := cx { desc := [(2, 64)], st := CState.running, requests := [{ tag := 4, v := 9, grp := 1, rank := 0, strand := 0, popped := true }, { tag := 5, v := 9, grp := 1, rank := 0, strand := 0 }] }
    let c : Context := s.ctxAt 1
    let r : SvRequest := c.shown.getD { tag := 5, v := 9, grp := 1, rank := 0, strand := 0 }
    (c.drives Via.host = true) ∧
    (c.shown = some r) := by decide +kernel

theorem meets_ContextWindow_rq2b :
    let s : State := cx { desc := [(2, 64)], st := CState.running, requests := [{ tag := 4, v := 9, grp := 1, rank := 0, strand := 0, popped := true }, { tag := 5, v := 9, grp := 1, rank := 0, strand := 0 }] }
    let c : Context := s.ctxAt 1
    (c.drives Via.host = true) ∧
    (∃ q, q ∈ c.requests ∧ q.response = none) := by decide +kernel

theorem meets_ContextWindow_rq2 :
    let s : State := cx { desc := [(2, 64)], st := CState.running }
    let c : Context := s.ctxAt 1
    (c.drives Via.host = true) ∧
    (c.shown = none) := by decide +kernel

theorem meets_ContextWindow_rq3 :
    let s : State := cx { desc := [(2, 64)], st := CState.running, requests := [{ tag := 4, v := 9, grp := 1, rank := 0, strand := 0, popped := true }, { tag := 5, v := 9, grp := 1, rank := 0, strand := 0 }] }
    let c : Context := s.ctxAt 1
    (c.drives Via.host = true) := by decide +kernel

theorem meets_ContextWindow_rq4 :
    let s : State := cx { desc := [(0, 216172782113783808), (2, 64)], st := CState.running }
    let c : Context := s.ctxAt 1
    (c.drives Via.host = false) := by decide +kernel

theorem meets_ContextWindow_ky1 :
    let s : State := cx { desc := [(2, 64)], st := CState.running }
    let c : Context := s.ctxAt 1
    (c.world = 0#8 ∨ c.drives Via.host = false) := by decide +kernel

theorem meets_ContextWindow_ky2 :
    let s : State := cx { desc := [(0, 216172782113783808), (2, 64)], st := CState.running }
    let c : Context := s.ctxAt 1
    let via : Via := Via.guest 3
    (c.world ≠ 0#8) ∧
    (c.drives via = true) ∧
    (s.worldKeys.find? c.world.toNat = none) := by decide +kernel

theorem meets_ContextWindow_ky3 :
    let s : State := { cx { desc := [(0, 216172782113783808), (2, 64)], st := CState.running } with worldKeys := [(3, 9)] }
    let c : Context := s.ctxAt 1
    let via : Via := Via.guest 3
    (c.world ≠ 0#8) ∧
    (c.drives via = true) ∧
    (s.worldKeys.find? c.world.toNat ≠ none) := by decide +kernel

theorem meets_ContextWindow_ky4 :
    let s : State := { cx { desc := [(0, 216172782113783808), (2, 64)], st := CState.running, keyq := 8 } with queues := [(6, { desc := [(3, BitVec.ofNat 64 (3 * 2 ^ 56))] })] }
    let c : Context := s.ctxAt 1
    let via : Via := Via.guest 3
    let q : Nat := 6 % 1024
    (c.world ≠ 0#8) ∧
    (c.drives via = true) ∧
    ((s.queueAt q).world = c.world) := by decide +kernel

theorem meets_ContextWindow_ky5 :
    let s : State := cx { desc := [(0, 216172782113783808), (2, 64)], st := CState.running }
    let c : Context := s.ctxAt 1
    let via : Via := Via.guest 3
    let q : Nat := 6 % 1024
    (c.world ≠ 0#8) ∧
    (c.drives via = true) ∧
    ((s.queueAt q).world ≠ c.world) := by decide +kernel

theorem meets_DebugUnit_db1 :
    (base.debugReach Via.host 0 = false) := by decide +kernel

theorem meets_DebugUnit_db2 :
    let s : State := dg { life := Life.waiting, wait := Wait.counter }
    let t : Strand := s.strandAt 0 2
    let moves : Prop := t.life = Life.running ∨ t.life = Life.waiting ∨ t.life = Life.handler
    let boundary : Prop := t.outs = 0 ∧ (t.life = Life.waiting ∨ t.micro.stage = 0)
    (s.debugReach Via.host 0 = true) ∧
    (t.preemptAt = none) ∧
    (moves) ∧
    (t.stopSoon = false) ∧
    (boundary) := by decide +kernel

theorem meets_DebugUnit_db2b :
    let s : State := dg { life := Life.running }
    let t : Strand := s.strandAt 0 2
    let moves : Prop := t.life = Life.running ∨ t.life = Life.waiting ∨ t.life = Life.handler
    let boundary : Prop := t.outs = 0 ∧ (t.life = Life.waiting ∨ t.micro.stage = 0)
    (s.debugReach Via.host 0 = true) ∧
    (t.preemptAt = none) ∧
    (moves) ∧
    (t.stopSoon = false) ∧
    (boundary) := by decide +kernel

theorem meets_DebugUnit_db2c :
    let s : State := dg { life := Life.handler, hidden := some { }, micro := { stage := 1 } }
    let t : Strand := s.strandAt 0 2
    let moves : Prop := t.life = Life.running ∨ t.life = Life.waiting ∨ t.life = Life.handler
    let boundary : Prop := t.outs = 0 ∧ (t.life = Life.waiting ∨ t.micro.stage = 0)
    (s.debugReach Via.host 0 = true) ∧
    (t.preemptAt = none) ∧
    (moves) ∧
    (t.stopSoon = false) ∧
    (¬boundary) := by decide +kernel

theorem meets_DebugUnit_db2d :
    let s : State := dg { life := Life.running, stopSoon := true }
    let t : Strand := s.strandAt 0 2
    let moves : Prop := t.life = Life.running ∨ t.life = Life.waiting ∨ t.life = Life.handler
    (s.debugReach Via.host 0 = true) ∧
    (t.preemptAt = none) ∧
    (moves) ∧
    (t.stopSoon = true) := by decide +kernel

theorem meets_DebugUnit_db3 :
    let s : State := dg { life := Life.done }
    let t : Strand := s.strandAt 0 2
    let moves : Prop := t.life = Life.running ∨ t.life = Life.waiting ∨ t.life = Life.handler
    (s.debugReach Via.host 0 = true) ∧
    (t.preemptAt = none) ∧
    (¬moves) := by decide +kernel

theorem meets_DebugUnit_db3b :
    let s : State := dg { life := Life.saved, preemptAt := some 0 }
    let t : Strand := s.strandAt 0 2
    (s.debugReach Via.host 0 = true) ∧
    (t.preemptAt = some s.pkg.clocks) ∧
    (t.life = Life.saved) := by decide +kernel

theorem meets_DebugUnit_db3d :
    let s : State := dg { life := Life.running, micro := { stage := 1 }, preemptAt := some 0 }
    let t : Strand := s.strandAt 0 2
    let moves : Prop := t.life = Life.running ∨ t.life = Life.waiting ∨ t.life = Life.handler
    let boundary : Prop := t.outs = 0 ∧ (t.life = Life.waiting ∨ t.micro.stage = 0)
    (s.debugReach Via.host 0 = true) ∧
    (t.preemptAt = some s.pkg.clocks) ∧
    (moves) ∧
    (¬boundary) := by decide +kernel

theorem meets_DebugUnit_db3e :
    let s : State := dg { life := Life.running, loops := [{ remain := 2 }], preemptAt := some 0 }
    let t : Strand := s.strandAt 0 2
    let moves : Prop := t.life = Life.running ∨ t.life = Life.waiting ∨ t.life = Life.handler
    let boundary : Prop := t.outs = 0 ∧ (t.life = Life.waiting ∨ t.micro.stage = 0)
    (s.debugReach Via.host 0 = true) ∧
    (t.preemptAt = some s.pkg.clocks) ∧
    (moves) ∧
    (boundary) ∧
    (t.ending = false) := by decide +kernel

theorem meets_DebugUnit_db3c :
    let s : State := dg { life := Life.running, preemptAt := some 7 }
    let t : Strand := s.strandAt 0 2
    (s.debugReach Via.host 0 = true) ∧
    (t.preemptAt = some 7) ∧
    (7 ≠ s.pkg.clocks) := by decide +kernel

theorem meets_DebugUnit_db4 :
    let s : State := dg { life := Life.halted, haltedFrom := Life.handler }
    let t : Strand := s.strandAt 0 2
    (s.debugReach Via.host 0 = true) ∧
    (t.life = Life.halted) := by decide +kernel

theorem meets_DebugUnit_db5 :
    let s : State := dg { life := Life.running }
    let t : Strand := s.strandAt 0 2
    (s.debugReach Via.host 0 = true) ∧
    (t.life ≠ Life.halted) := by decide +kernel

theorem meets_DebugUnit_db6 :
    let s : State := dg { life := Life.running }
    let d : Debug := (s.coreAt 0).dbg
    let i : Nat := (2048 * (BitVec.toNat d.dsel / 256 % 8) + (2040 - 2048)) / 8
    let inside : Prop := 2048 ≤ 2040 ∧ 2040 ≤ 4095 ∧ 2040 % 8 = 0 ∧ BitVec.toNat d.dsel / 256 % 8 ≤ 5 ∧ i < 1520
    (s.debugReach Via.host 0 = true) ∧
    (¬inside) := by decide +kernel

theorem meets_DebugUnit_db7 :
    let s : State := dg { life := Life.running }
    let d : Debug := (s.coreAt 0).dbg
    let i : Nat := (2048 * (BitVec.toNat d.dsel / 256 % 8) + (2056 - 2048)) / 8
    let inside : Prop := 2048 ≤ 2056 ∧ 2056 ≤ 4095 ∧ 2056 % 8 = 0 ∧ BitVec.toNat d.dsel / 256 % 8 ≤ 5 ∧ i < 1520
    (s.debugReach Via.host 0 = true) ∧
    (inside) := by decide +kernel

theorem meets_DebugUnit_db8 :
    let s : State := dg { life := Life.halted }
    let d : Debug := (s.coreAt 0).dbg
    let i : Nat := (2048 * (BitVec.toNat d.dsel / 256 % 8) + (2056 - 2048)) / 8
    let inside : Prop := 2048 ≤ 2056 ∧ 2056 ≤ 4095 ∧ 2056 % 8 = 0 ∧ BitVec.toNat d.dsel / 256 % 8 ≤ 5 ∧ i < 1520
    (s.debugReach Via.host 0 = true) ∧
    (inside) := by decide +kernel

theorem meets_DebugUnit_db9 :
    let s : State := dg { life := Life.halted }
    let d : Debug := (s.coreAt 0).dbg
    let i : Nat := (2048 * (BitVec.toNat d.dsel / 256 % 8) + (2880 - 2048)) / 8
    let inside : Prop := 2048 ≤ 2880 ∧ 2880 ≤ 4095 ∧ 2880 % 8 = 0 ∧ BitVec.toNat d.dsel / 256 % 8 ≤ 5 ∧ i < 1520
    (s.debugReach Via.host 0 = true) ∧
    (inside) := by decide +kernel

theorem meets_DebugUnit_bk1 :
    let s : State := (mapped (dg { life := Life.running, pc := 8 })).modCtx 1 fun c => { c with desc := Tbl.set 0 c.desc 0 268435457 }
    let t : Strand := s.strandAt 0 2
    let there : State := { s with core := 0, strand := 2 }
    let boundary : Prop := t.micro.stage = 0 ∧ t.outs = 0 ∧ (t.life = Life.running ∨ t.life = Life.handler)
    let stays : Prop := t.preemptAt = none ∧ t.stopSoon = false
    (boundary) ∧
    (stays) ∧
    (there.breakpointHere = true) := by decide +kernel

theorem meets_DebugUnit_bk2 :
    let s : State := dg { life := Life.running, pc := 12 }
    let t : Strand := s.strandAt 0 2
    let there : State := { s with core := 0, strand := 2 }
    let boundary : Prop := t.micro.stage = 0 ∧ t.outs = 0 ∧ (t.life = Life.running ∨ t.life = Life.handler)
    (¬boundary ∨ there.breakpointHere = false) := by decide +kernel

theorem meets_DebugUnit_bk3 :
    let s : State := dg { life := Life.running, pc := 8, micro := { stage := 1 } }
    let t : Strand := s.strandAt 0 2
    let there : State := { s with core := 0, strand := 2 }
    let boundary : Prop := t.micro.stage = 0 ∧ t.outs = 0 ∧ (t.life = Life.running ∨ t.life = Life.handler)
    (¬boundary ∨ there.breakpointHere = false) := by decide +kernel

theorem meets_DebugUnit_wa1 :
    let s : State := dg { life := Life.handler, hidden := some { }, watchHit := true }
    let t : Strand := s.strandAt 0 2
    let boundary : Prop := t.micro.stage = 0 ∧ t.outs = 0 ∧ (t.life = Life.running ∨ t.life = Life.handler)
    let stays : Prop := t.preemptAt = none ∧ t.stopSoon = false
    (boundary) ∧
    (stays) ∧
    (t.watchHit = true) := by decide +kernel

theorem meets_DebugUnit_wa2 :
    let s : State := dg { life := Life.running }
    let t : Strand := s.strandAt 0 2
    (t.watchHit = false) := by decide +kernel



end Sys2Proof.Tests.Windows
end

