-- ==== Sys2Proof/Tests/Slice0.lean ====
section
/-! SUPPORT. The model's own tests: words written out from the spec's encodings, ill-formed terms, and single steps on
small states. The expected values are the spec's worked examples or calculations by hand. -/

namespace Sys2Proof.Tests
open Sys2Proof Sys2Proof.Machine

/-! Words, one of each constructor, written out from the encodings of spec/02_encoding.md and of each entry. -/

def waitP : Pre := { bare with wp := true, g := 2 }
def pushN : Pre := { bare with sn := true }
def waitNpushP : Pre := { bare with wn := true, sp := true, sy := true, g := 1 }
def pushP : Pre := { bare with sp := true, g := 3 }
def waitPpushN : Pre := { bare with wp := true, sn := true, sy := true }
def reads1 (w : BitVec 32) (i : Instr) : Bool := decide (decodeWords w none = .ok i)
def reads2 (w x : BitVec 32) (i : Instr) : Bool := decide (decodeWords w (some x) = .ok i)
def readsSq (w : BitVec 64) (i : Instr) : Bool := decide (decodeSq w = .ok i)
def rejects (w : BitVec 32) (x : Option (BitVec 32)) (r : Reject) : Bool := decide (decodeWords w x = .bad r)
def refuses (i : Instr) : Bool := !i.wf

theorem test_decode_branch_targets_and_transfers :
    (reads1 0x6A050001 (.bprep waitNpushP 2 1) &&
     reads1 0x10081180 (.bprepi pushN 1 6) &&
     reads1 0x26082001 (.bprepiMeta pushP 2 0) &&
     reads1 0x980C4000 (.bget waitPpushN 4 0) &&
     reads1 0x100EA041 (.bgetMeta pushN 42 1) &&
     reads1 0x10108000 (.binv pushN 1) &&
     reads1 0x84160000 (.jmp waitP 4 0 0) &&
     reads1 0x841A0800 (.call waitP 4 1 0)) = true := by decide

theorem test_decode_loops_and_system :
    (reads1 0x841C7180 (.lsetupReg waitP 1 3 6) &&
     reads1 0x6A20701B (.lsetupImm waitNpushP 1 3 27) &&
     reads1 0x6A240000 (.lclose waitNpushP) &&
     reads1 0x26281000 (.lbreak pushP 2 0) &&
     reads1 0x002C0000 (.nop bare) &&
     reads1 0x842C0001 (.ifence waitP) &&
     reads1 0x002C0002 (.sdone bare) &&
     reads1 0x002C0088 (.trap bare 2) &&
     reads1 0x982C0E09 (.brk waitPpushN 56) &&
     reads1 0x102C000A (.eret pushN) &&
     reads1 0x262C108B (.sysrd pushP 1 2) &&
     reads1 0x982C850C (.syswr waitPpushN 8 20) &&
     reads1 0x842C010D (.pcrd waitP 0 0 4) &&
     reads1 0x102E200E (.yield pushN 34)) = true := by decide

theorem test_decode_alu :
    (reads1 0x2642F0C2 (.add pushP 47 3 2) &&
     reads1 0x0046B6C1 (.sub bare 43 27 1) &&
     reads1 0x984847CA (.mul waitPpushN 4 31 10) &&
     reads1 0x104E120F (.mulh pushN 33 8 15) &&
     reads1 0x84533214 (.mulhu waitP 51 8 20) &&
     reads1 0x9854112B (.min waitPpushN 1 4 43) &&
     reads1 0x2658ADC2 (.max pushP 10 55 2) &&
     reads1 0x265D51C2 (.minu pushP 21 7 2) &&
     reads1 0x986100EB (.maxu waitPpushN 16 3 43) &&
     reads1 0x846430C3 (.and waitP 3 3 3) &&
     reads1 0x26680001 (.or pushP 0 0 1) &&
     reads1 0x266D5CF3 (.xor pushP 21 51 51) &&
     reads1 0x6A71C5D3 (.andn waitNpushP 28 23 19) &&
     reads1 0x84742183 (.orn waitP 2 6 3) &&
     reads1 0x84794342 (.sll waitP 20 13 2) &&
     reads1 0x987C4B86 (.srl waitPpushN 4 46 6) &&
     reads1 0x98809701 (.sra waitPpushN 9 28 1) &&
     reads1 0x268420B6 (.rotr pushP 2 2 54)) = true := by decide

theorem test_decode_immediates :
    (reads1 0x26887402 (.addi pushP 7 16 2) &&
     reads1 0x6A8C0181 (.slli waitNpushP 0 6 1) &&
     reads1 0x26902124 (.srli pushP 2 4 36) &&
     reads1 0x10941141 (.srai pushN 1 5 1) &&
     reads1 0x6A9800C0 (.clz waitNpushP 0 3) &&
     reads1 0x84997001 (.ctz waitP 23 0) &&
     reads1 0x00983082 (.popc bare 3 2) &&
     reads1 0x26980A03 (.sextB pushP 0 40) &&
     reads1 0x26983144 (.sextH pushP 3 5) &&
     reads1 0x269AF0C5 (.sextW pushP 47 3) &&
     reads1 0x98980046 (.zextB waitPpushN 0 1) &&
     reads1 0x10985787 (.zextH pushN 5 30) &&
     reads1 0x10983008 (.zextW pushN 3 0) &&
     reads1 0x9898D010 (.pget waitPpushN 13) &&
     reads1 0x98980111 (.pset waitPpushN 4) &&
     reads1 0x269C0002 (.movi pushP 0 2) &&
     reads1 0x84A1E000 (.movhi waitP 30 0)) = true := by decide

theorem test_decode_compares :
    (reads1 0x10A62C41 (.cmp pushN 2 2 49 1) &&
     reads1 0x10AA31C1 (.cmpUnsignedTest pushN 2 3 7 1) &&
     reads1 0x10AE321D (.cmpi pushN 2 3 8 29) &&
     reads1 0x98B3E368 (.cmpiUnsignedTest waitPpushN 3 14 13 40) &&
     reads1 0x26B47144 (.pand pushP 7 5 4) &&
     reads1 0x84B520C1 (.por waitP 2 3 1) &&
     reads1 0x26B6F081 (.pxor pushP 15 2 1) &&
     reads1 0x84B710C0 (.pandn waitP 1 3 0)) = true := by decide

theorem test_decode_two_word_scalar :
    (reads2 0x10B9E940 0xF8A75B0F (.lea pushN 30 37 34 2 482063) &&
     reads2 0x98BC2064 0xF0000000 (.div waitPpushN 2 1 36) &&
     reads2 0x00BC70C0 0xF0400000 (.divu bare 7 3 0) &&
     reads2 0x26BE7991 0xF0800000 (.rem pushP 39 38 17) &&
     reads2 0x98BC5240 0xF0C00000 (.remu waitPpushN 5 9 0) &&
     reads2 0x26BC20C2 0xF1380000 (.sel pushP 2 3 2 14 0) &&
     reads2 0x98BC0C00 0xF1470200 (.bfx waitPpushN 0 48 7 1) &&
     reads2 0x98BEC800 0xF1698600 (.bfxS waitPpushN 44 32 41 3) &&
     reads2 0x00BC3B40 0xF1860600 (.bfi bare 3 45 0 6 3) &&
     reads1 0x018C5002 (.ldlit bare 5 2)) = true := by decide

theorem test_decode_vector_arithmetic :
    (reads1 0x10C1E8C5 (.vadd pushN 30 35 5) &&
     reads1 0x6AC64076 (.vsub waitNpushP 36 1 54) &&
     reads1 0x10C8609E (.vmul pushN 6 2 30) &&
     reads1 0x26CC41FA (.vfma pushP 4 7 58) &&
     reads1 0x6AD01184 (.vfms waitNpushP 1 6 4) &&
     reads1 0x26D40712 (.vfnma pushP 0 28 18) &&
     reads1 0x98D86905 (.vmin waitPpushN 6 36 5) &&
     reads1 0x6ADE1782 (.vmax waitNpushP 33 30 2) &&
     reads1 0x84E23D41 (.vand waitP 35 53 1) &&
     reads1 0x6AE450BC (.vor waitNpushP 5 2 60) &&
     reads1 0x26E830B1 (.vxor pushP 3 2 49) &&
     reads1 0x6AEC70E4 (.vsll waitNpushP 7 3 36) &&
     reads1 0x84F02087 (.vsrl waitP 2 2 7) &&
     reads1 0x6AF64047 (.vsra waitNpushP 36 1 7)) = true := by decide

theorem test_decode_vector_moves :
    (reads1 0x6AF830C1 (.vcmp waitNpushP 0 3 3 1) &&
     reads2 0x26FC37C9 0xF4000000 (.vsel pushP 3 31 9 2) &&
     reads1 0x0100E1C5 (.vcvtTo bare 14 7 5) &&
     reads1 0x6B0008E5 (.vcvtFrom waitNpushP 0 35 5) &&
     reads1 0x6B042003 (.vpack waitNpushP 2 0 3) &&
     reads1 0x99080083 (.vunpack waitPpushN 0 2 3) &&
     reads1 0x110C21C0 (.vmov pushN 2 7) &&
     reads1 0x990C2001 (.vsplat waitPpushN 2 0) &&
     reads1 0x6B12D06B (.vext waitNpushP 45 1 43) &&
     reads1 0x85165BA4 (.vins waitP 37 46 36) &&
     reads1 0x6B180029 (.vperm waitNpushP 0 0 41) &&
     reads1 0x111D0202 (.vtrn pushN 16 8 2)) = true := by decide

theorem test_decode_vector_reductions :
    (reads1 0x272134C0 (.vredSum pushP 19 19) &&
     reads1 0x99201D81 (.vredMax waitPpushN 1 54) &&
     reads1 0x85202002 (.vredMin waitP 2 0) &&
     reads1 0x6B200003 (.vredAnd waitNpushP 0 0) &&
     reads1 0x99201004 (.vredOr waitPpushN 1 0) &&
     reads1 0x9921D108 (.vscanSum waitPpushN 29 4) &&
     reads1 0x01212049 (.vscanMax bare 18 1) &&
     reads1 0x6B20100A (.vscanMin waitNpushP 1 0) &&
     reads1 0x6B20300B (.vscanAnd waitNpushP 3 0) &&
     reads1 0x6B20430C (.vscanOr waitNpushP 4 12) &&
     reads1 0x11244080 (.vfnExp2 pushN 4 2) &&
     reads1 0x11241081 (.vfnLog2 pushN 1 2) &&
     reads1 0x272400C2 (.vfnRcp pushP 0 3) &&
     reads1 0x99243043 (.vfnRsqrt waitPpushN 3 1) &&
     reads1 0x27267904 (.vfnSqrt pushP 39 36)) = true := by decide

theorem test_decode_masks_and_vector_memory :
    (reads1 0x99282088 (.mand waitPpushN 2 2 1) &&
     reads1 0x012830B1 (.mor bare 3 2 6) &&
     reads1 0x6B280082 (.mnot waitNpushP 0 2) &&
     reads1 0x6B2AF183 (.mpopc waitNpushP 47 6) &&
     reads1 0x11283104 (.mfirst pushN 3 4) &&
     reads1 0x272CF112 (.vcfg pushP 15 4 18) &&
     reads1 0x01300280 (.vldSOneWord bare 0 10 0) &&
     reads2 0x11301BC8 0xF0F00017 (.vldSTwoWord pushN 1 47 3 3 23) &&
     reads1 0x11342143 (.vstSOneWord pushN 2 5 3) &&
     reads2 0x6B3501C8 0xF2100002 (.vstSTwoWord waitNpushP 16 7 8 1 2) &&
     reads1 0x27386396 (.vgathS pushP 6 14 22) &&
     reads1 0x113DE18B (.vscatS pushN 30 6 11)) = true := by decide

theorem test_decode_tile_commands :
    (reads1 0x854001C0 (.fpush waitP 7) &&
     reads1 0x99445000 (.tstat waitPpushN 5) &&
     reads1 0x99442941 (.tstatClr waitPpushN 2 37) &&
     reads2 0x1148113C 0xF246D000 (.tcfg pushN 1 4 2 4 6 13) &&
     reads2 0x6B4C302F 0xF376D000 (.wload waitNpushP 3 0 47 3 7 6 13 0) &&
     reads2 0x6B503F3C 0xF43B1000 (.wswap waitNpushP 3 4 3 11 1) &&
     reads2 0x6B5409CD 0xFD36B03C (.tmma waitNpushP 0 39 13 13 3 6 11 15) &&
     reads2 0x85583181 0xF43BB01C (.tmmaZ waitP 3 6 1 4 3 11 11 7) &&
     reads2 0x015C1F3C 0xFA211000 (.tzero bare 1 10 2 1 1) &&
     reads2 0x85601F3C 0xFD234000 (.tnorm waitP 1 13 2 3 4) &&
     reads2 0x996400BC 0xF211400D (.tdrain waitPpushN 0 2 2 1 1 4 3 1)) = true := by decide

theorem test_decode_loads_and_stores :
    (reads1 0x0170C1C7 (.ldSOneWord bare 12 7 7) &&
     reads2 0x9972114A 0xFC200006 (.ldSTwoWord waitPpushN 33 5 2 48 2 6) &&
     reads1 0x017564C2 (.stSOneWord bare 22 19 2) &&
     reads2 0x2774BBC8 0xFBF8D2DF (.stSTwoWord pushP 11 47 0 47 3 578271) &&
     reads1 0x2778400F (.ldHOneWord pushP 4 0 0 15) &&
     reads2 0x85781CEA 0xF0600001 (.ldHTwoWord waitP 1 51 2 2 1 2 1) &&
     reads1 0x6B7C6057 (.stHOneWord waitNpushP 6 1 1 7) &&
     reads2 0x017C41CB 0xF1000002 (.stHTwoWord bare 4 7 0 3 4 0 2) &&
     reads1 0x01813071 (.ldPOneWord bare 19 0 1 3 1) &&
     reads2 0x9981B7F8 0xF8700003 (.ldPTwoWord waitPpushN 27 1 15 3 0 33 3 3) &&
     reads1 0x11850092 (.stPOneWord pushN 16 0 2 1 2) &&
     reads2 0x118420CA 0xF9400003 (.stPTwoWord pushN 2 0 3 0 2 37 0 3) &&
     reads1 0x018820CF (.ldWOneWord bare 2 3 0 15) &&
     reads2 0x6B8989C8 0xF6CBA90D (.ldWTwoWord waitNpushP 24 39 0 0 27 0 764173)) = true := by decide

theorem test_decode_atomics :
    (reads2 0x11902942 0xFACD2003 (.amoS pushN 2 37 2 43 0 6 1 1 3) &&
     reads2 0x99945003 0xF1012366 (.amoH waitPpushN 5 0 3 4 0 0 1 0 1 870) &&
     reads2 0x85983080 0xF0898004 (.amoP waitP 3 2 0 2 0 4 1 2 0 4) &&
     reads2 0x859E1590 0xF9C10D28 (.casH waitP 33 22 16 39 1 0 0 3368) &&
     reads2 0x27A2209C 0xF7866885 (.casP pushP 34 2 28 30 6 1 1 2181) &&
     reads2 0x11A40082 0xF0800001 (.probeH pushN 0 2 2 2 0 1) &&
     reads2 0x6BA421C6 0xF435DC45 (.probeP waitNpushP 2 7 2 16 3 384069) &&
     reads2 0x01A821D0 0xF0000001 (.pfP bare 2 7 1 0 0 1)) = true := by decide

theorem test_decode_capabilities_and_fences :
    (reads2 0x11AC5040 0xF0000000 (.capld pushN 5 1 0) &&
     reads2 0x01AC0101 0xF5C44000 (.capderive bare 0 4 23 4 4) &&
     reads2 0x85ACE102 0xF0000000 (.capinfo waitP 14 4 0) &&
     reads1 0x27B00000 (.commit pushP) &&
     reads1 0x01B00001 (.xfence bare) &&
     reads1 0x6BB03002 (.qfence waitNpushP 3) &&
     reads1 0x6BB00003 (.sfence waitNpushP) &&
     reads1 0x6BB4300D (.stCpaOneWord waitNpushP 3 0 13) &&
     reads2 0x01B4A04B 0xF2EB887D (.stCpaTwoWord bare 10 1 11 2 755837)) = true := by decide

theorem test_decode_copy_and_barriers :
    (reads1 0x01B86000 (.cdrain bare 6) &&
     reads1 0x11B80D41 (.ckick pushN 0 53) &&
     reads1 0x11B84042 (.clink pushN 4 1) &&
     reads1 0x85B82083 (.cresume waitP 2 2) &&
     reads1 0x01BB2DC4 (.cstat bare 50 55) &&
     reads1 0x11BC0040 (.bar pushN 1) &&
     reads1 0x27BDE081 (.barArr pushP 30 2) &&
     reads1 0x01BF7042 (.barWait bare 55 1) &&
     reads1 0x27BC9003 (.barExp pushP 9 0)) = true := by decide

theorem test_decode_tokens_and_futures :
    (reads1 0x11C00085 (.tokpush pushN 2 1) &&
     reads1 0x85C0010B (.tokpop waitP 4 3) &&
     reads1 0x99C01250 (.ksig waitPpushN 1 9 0) &&
     reads1 0x01C04657 (.kwait bare 4 25 3) &&
     reads1 0x99C44180 (.cntWait waitPpushN 4 6) &&
     reads1 0x99C40881 (.cntAdd waitPpushN 0 34) &&
     reads1 0x99C85100 (.park waitPpushN 5 4) &&
     reads1 0x99CA1041 (.fset waitPpushN 33 1)) = true := by decide

theorem test_decode_groups_and_fronds :
    (reads1 0x27E01040 (.gid pushP 1 1) &&
     reads1 0x99E02001 (.gsize waitPpushN 2 0) &&
     reads1 0x27E00082 (.gsplit pushP 2) &&
     reads1 0x27E1B003 (.gyield pushP 27) &&
     reads1 0x27E00004 (.gexit pushP) &&
     reads1 0x85E41000 (.qpop waitP 1 0) &&
     reads1 0x6BE42A81 (.qpush waitNpushP 2 42) &&
     reads1 0x11E42A82 (.qtry pushN 2 42) &&
     reads1 0x27E79103 (.qclose pushP 57 4) &&
     reads1 0x27E45104 (.pid pushP 5 4) &&
     reads1 0x01E87A00 (.enq bare 7 40)) = true := by decide

theorem test_decode_refinement_and_links :
    (reads1 0x6BEC00C0 (.rlcRun waitNpushP 3) &&
     reads1 0x11EC1101 (.rlcNext pushN 1 4) &&
     reads1 0x01EC61C2 (.rlcTest bare 6 7) &&
     reads1 0x85EDA0C3 (.rlcStat waitP 26 3) &&
     reads1 0x85EC0004 (.rlcEnd waitP) &&
     reads1 0x6BF00740 (.lnkStart waitNpushP 0 29) &&
     reads1 0x11F0A001 (.lnkStep pushN 10 0) &&
     reads1 0x99F00182 (.lnkWait waitPpushN 6) &&
     reads1 0x99F010C3 (.lnkStat waitPpushN 1 3)) = true := by decide

theorem test_decode_sequencer_words :
    (readsSq 0x0400000000000000 (.sqNop) &&
     readsSq 0x0B00000000000003 (.sqCfg 3 0 3) &&
     readsSq 0x0E0000002875F787 (.sqLoop 2 678819719) &&
     readsSq 0x1104000000000000 (.sqEndl 1 4) &&
     readsSq 0x1580000000000001 (.sqGet 1 2 0 0 1) &&
     readsSq 0x1880000000050240 (.sqPut 0 2 0 0 328256) &&
     readsSq 0x1ED0000000F00002 (.sqPutsig 2 3 0 1 0 15 2) &&
     readsSq 0x2000000000000003 (.sqWait 3) &&
     readsSq 0x2400000000007D8E (.sqPost 32142) &&
     readsSq 0x2800000000000000 (.sqFence) &&
     readsSq 0x2C000000000099ED (.sqEv 39405) &&
     readsSq 0x3000000000000000 (.sqHalt)) = true := by decide

/-- Worked words of spec/05_strand.md R101, R107, R110 and R111, and of spec/06_scalar.md R116, R120, R123 to R125 and R127, and `vcfg`'s of spec/07_vector.md. -/
theorem test_decode_worked_words :
    (reads1 0x002C0001 (.ifence bare) && reads1 0x00240000 (.lclose bare) && reads1 0x002C0000 (.nop bare) &&
     reads1 0x002C0002 (.sdone bare) && reads1 0x018C3004 (.ldlit bare 3 4) && reads1 0x0088C301 (.addi bare 12 12 1) &&
     reads2 0x00BC1080 0xF1488600 (.bfxS bare 1 2 8 3) && reads2 0x00B84080 0xF0F00010 (.lea bare 4 2 3 3 16) &&
     reads1 0x00A43245 (.cmp bare 0 3 9 5) && reads1 0x00987010 (.pget bare 7) &&
     reads1 0x012FC081 (.vcfg bare 60 2 1) && reads1 0x00482083 (.mul bare 2 2 3)) = true := by decide

/-- Words that are no instruction, each refused for its own reason (spec/02_encoding.md R27, R29, R41, R43, R46). -/
theorem test_decode_rejects :
    (rejects 0xF0000000 none .extensionFirst && rejects 0x00BC1080 none .noExtension &&
     rejects 0x00BC1080 (some 0x00A43245) .noExtension && rejects 0x01FC0000 none .unassigned &&
     rejects 0x00400F40 none .badOperand && rejects 0x00240001 none .reservedField) = true := by decide

/-- Fewer bytes than a word are refused by name. -/
theorem test_decode_truncated : (decode [0x00, 0x00, 0x2C]).1 = .bad .truncated := by decide

/-- The host's numbering: bit 0 of the first word is the least significant (spec/00_scope.md R2). -/
theorem test_decode_table_word : decodeTableWord 64 0xF148860000BC1080 = some (.bfxS bare 1 2 8 3) := by decide

/-! Ill-formed terms, one for each check of WellFormed. -/

/-- Ring bits: a mark of an extension word, `tokpush` that waits, `tokpop` that pushes (R27, R268). -/
theorem test_wf_prefixes :
    (refuses (.nop { bare with wp := true, wn := true, sp := true, sn := true }) &&
     refuses (.tokpush waitP 1 0) &&
     refuses (.tokpop pushP 1 0)) = true := by decide

/-- Operands outside the scalar and vector namespaces (R29). -/
theorem test_wf_scalar_and_vector_operands :
    (refuses (.add bare 0 61 0) &&
     refuses (.add bare 56 0 0) &&
     refuses (.vadd bare 0 42 0) &&
     refuses (.vadd bare 48 0 0)) = true := by decide

/-- Registers outside their class (R30). -/
theorem test_wf_register_classes :
    (refuses (.pand bare 0 16 0) &&
     refuses (.mand bare 8 0 0) &&
     refuses (.bprepi bare 8 0) &&
     refuses (.capld bare 16 0 0) &&
     refuses (.tzero bare 4 0 0 0 0) &&
     refuses (.ksig bare 16 1 0) &&
     refuses (.cdrain bare 8) &&
     refuses (.bar bare 4)) = true := by decide

/-- Selectors, system registers, counts and bit fields (R106, R123, R167, R257, R268, R346). -/
theorem test_wf_selectors_and_counts :
    (refuses (.gid bare 0 5) &&
     refuses (.sysrd bare 0 10) &&
     refuses (.lsetupImm bare 0 0 0x800) &&
     refuses (.ksig bare 0 0 0) &&
     refuses (.tokpush pushP 16 0) &&
     refuses (.bfx bare 0 0 63 1)) = true := by decide

/-- `vcvt` formats, register pairs and groups, transpose units (R141, R143, R147). -/
theorem test_wf_vector_forms :
    (refuses (.vcvtTo bare 0 0 3) &&
     refuses (.vcvtTo bare 32 0 0) &&
     refuses (.vpack bare 1 0 0) &&
     refuses (.vtrn bare 4 0 0) &&
     refuses (.vtrn bare 0 0 3)) = true := by decide

/-- One-word forms, orderings, atomics, probes (R32 to R36, R43). -/
theorem test_wf_memory_forms :
    (refuses (.ldSOneWord bare 0 0 8) &&
     refuses (.tzero bare 0 1 0 0 0) &&
     refuses (.ldPOneWord bare 0 2 0 0 0) &&
     refuses (.stPOneWord bare 0 1 0 0 0) &&
     refuses (.amoS bare 0 0 0 60 0 0 0 0 0) &&
     refuses (.amoS bare 0 0 0 60 0 7 1 0 0) &&
     refuses (.probeP bare 0 0 3 60 0 0)) = true := by decide

/-- `qfence`, `enq` and sequencer words (R224, R318, R379). -/
theorem test_wf_queues_and_sequencers :
    (refuses (.qfence bare 0) &&
     refuses (.enq bare 0 4) &&
     refuses (.sqCfg 0 4 0) &&
     refuses (.sqCfg 0 3 4) &&
     refuses (.sqWait 0)) = true := by decide

/-- Indices of what the package does not have. -/
theorem test_wf_indices :
    (refuses (.matrixCommandStart 512) &&
     refuses (.copyFaultTaken 0 8) &&
     refuses (.transferStart 0 8) &&
     refuses (.sequencerWordFetch 80) &&
     refuses (.qtailWrite .host 1024 0) &&
     refuses (.codeloadComplete 4096) &&
     refuses (.ucieDown 4) &&
     refuses (.hbmHourlyCount 16 0) &&
     refuses (.codewordLockGained 0 16)) = true := by decide

/-! Single steps. -/

/-- The state after an instruction. -/
def run (i : Instr) (s : State) : State := match exec i s with
  | .next u => u
  | _ => s
/-- The value that an instruction leaves in x2. -/
def x2 (i : Instr) (s : State) : Word := ((run i s).me.rd 2).v

/-- R115: sums and differences wrap. -/
theorem test_add_wraps : x2 (.add bare 2 0 1) (withX 0xFFFFFFFFFFFFFFFF 2) = 1 := by decide
theorem test_sub_wraps : x2 (.sub bare 2 0 1) (withX 0 1) = 0xFFFFFFFFFFFFFFFF := by decide
/-- R115: the high half of (−1)·(−1) is 0; of the unsigned product it is 2^64 − 2. -/
theorem test_mulh_signed : x2 (.mulh bare 2 0 0) (withX 0xFFFFFFFFFFFFFFFF 0) = 0 := by decide
theorem test_mulhu_unsigned : x2 (.mulhu bare 2 0 0) (withX 0xFFFFFFFFFFFFFFFF 0) = 0xFFFFFFFFFFFFFFFE := by decide
/-- R115: −1 is the signed minimum of −1 and 1, and the unsigned maximum. -/
theorem test_min_signed : x2 (.min bare 2 0 1) (withX 0xFFFFFFFFFFFFFFFF 1) = 0xFFFFFFFFFFFFFFFF := by decide
theorem test_maxu_unsigned : x2 (.maxu bare 2 0 1) (withX 0xFFFFFFFFFFFFFFFF 1) = 0xFFFFFFFFFFFFFFFF := by decide
/-- A right shift by 4 keeps the sign; a rotation by 1 carries bit 0 to bit 63. -/
theorem test_sra_sign : x2 (.sra bare 2 0 1) (withX 0x8000000000000000 4) = 0xF800000000000000 := by decide
theorem test_rotr_carries : x2 (.rotr bare 2 0 1) (withX 1 1) = 0x8000000000000000 := by decide
/-- R121: divisions by zero, and the one quotient that overflows. -/
theorem test_div_by_zero : x2 (.div bare 2 0 1) (withX 7 0) = 0xFFFFFFFFFFFFFFFF := by decide
theorem test_div_overflow : x2 (.div bare 2 0 1) (withX 0x8000000000000000 0xFFFFFFFFFFFFFFFF) = 0x8000000000000000 := by decide
/-- R121: −7 = −2·3 − 1: quotient −2, remainder −1. -/
theorem test_div_toward_zero : x2 (.div bare 2 0 1) (withX 0xFFFFFFFFFFFFFFF9 3) = 0xFFFFFFFFFFFFFFFE := by decide
theorem test_rem_sign : x2 (.rem bare 2 0 1) (withX 0xFFFFFFFFFFFFFFF9 3) = 0xFFFFFFFFFFFFFFFF := by decide
theorem test_rem_by_zero : x2 (.rem bare 2 0 1) (withX 7 0) = 7 := by decide
/-- R123's example: with 0xF00 the field of 4 bits at 8 sign-extends to −1. -/
theorem test_bfx_sign : x2 (.bfxS bare 2 0 8 3) (withX 0xF00 0) = 0xFFFFFFFFFFFFFFFF := by decide
/-- R119: `movhi` shifts in 12 bits. -/
theorem test_movhi : x2 (.movhi bare 2 0xABC) (withMe { life := .running, x := [(2, { v := 0x123 })] }) = 0x123ABC := by decide
/-- A poisoned source poisons the result (R112). -/
theorem test_add_poison : ((run (.add bare 2 0 1) (withX 1 2 true)).me.rd 2).poison = true := by decide
/-- Destination 60 goes to the last results: l0 takes the result (R29, R113). -/
theorem test_zero_is_last_result : ((run (.add bare 60 0 1) (withX 1 2)).me.rd 56).v = 3 := by decide
/-- The program counter passes over both words of a two-word form. -/
theorem test_pc_two_words : (run (.div bare 2 0 1) (withX 7 2)).me.pc = 8 := by decide
/-- R101: `ifence` counts the fetch generation. -/
theorem test_ifence : (run (.ifence bare) base).me.fgen = 1 := by decide
/-- R111: `sdone` leaves the strand DONE. -/
theorem test_sdone : (run (.sdone bare) base).me.life = .done := by decide +kernel
/-- A store and the load of the same scratchpad bytes. -/
theorem test_store_load : x2 (.ldSOneWord bare 2 0 0) (run (.stSOneWord bare 1 0 0) (withX 64 0x1122334455667788)) = 0x1122334455667788 := by
  decide +kernel
/-- R2: the lowest address holds the least significant byte. -/
theorem test_little_endian :
    x2 (.ldSTwoWord bare 2 0 0 60 0 1) (run (.stSOneWord bare 1 0 0) (withX 64 0x1122334455667788)) = 0x77 := by decide +kernel

/-! Published values of the algorithms that the spec names. -/

/-- CRC-64/XZ's check value, of the bytes "123456789". -/
theorem test_crc64 : crc64 [0x31, 0x32, 0x33, 0x34, 0x35, 0x36, 0x37, 0x38, 0x39] = 0x995DC9BBDF1939FA := by decide +kernel
/-- FIPS 202: SHAKE256 of no bytes begins 46 B9 DD 2B. -/
theorem test_shake256 : shake256 [] 4 = [0x46, 0xB9, 0xDD, 0x2B] := by decide +kernel

end Sys2Proof.Tests
end

