-- ==== Sys2Proof/Tests/Strand.lean ====
section
/-! SUPPORT. States that meet the hypotheses of the statements about strands. -/

namespace Sys2Proof.Tests.Scalars
open Sys2Proof Sys2Proof.Machine Sys2Proof.Claims
set_option Elab.async false

def ready (pv : Bool) : State := withMe { life := .running, p := [(1, { v := pv })], b := [(2, { target := 128, st := .ready })] }
def staleTarget : State := (mapped (withMe { life := .running, p := [(1, { v := true })], b := [(2, { target := 128, st := .ready, fgen := 3 })] }))

theorem meets_ScalarInstructionWritesItsResult_scalar :
    let i : Instr := Instr.add bare 2 0 1
    let s : State := withX 18446744073709551615 2
    let r : Reg := { v := 1 }
    (Claims.scalarValue i s.me = some (2#6, r)) ∧
    (s.issues i 1 = true) ∧
    (s.hasRoom i ((s.granted i 1).modMe fun t => t.result 2#6 r) = true) := by decide +kernel

theorem meets_PredicateInstructionWritesItsPredicate_predicate :
    let i : Instr := Instr.cmp bare 2 0 0 1
    let s : State := withX 9223372036854775808 2
    let b : PBit := { v := true }
    (Claims.predicateValue i s.me = some (0#4, b)) ∧
    (s.issues i 1 = true) ∧
    (s.hasRoom i ((s.granted i 1).modMe fun t => if 0#4 = 0#4 then t else { t with p := Tbl.set { } t.p 0 b }) = true) := by decide +kernel

theorem meets_BranchTargetInstructionWritesItsRegister_btr1 :
    let i : Instr := Instr.bprep bare 1 32767
    let r : Btr := { st := BState.faulted, cause := 3 }
    (Claims.btrValue i (base.granted i 1).me (base.ctxAt base.myCtx).cgen = some (1, r)) ∧
    (base.issues i 1 = true) ∧
    (base.hasRoom i ((base.granted i 1).modMe fun t => { t with b := Tbl.set { } t.b 1 r }) = true) := by decide +kernel

theorem meets_BranchTargetInstructionWritesItsRegister_btr2 :
    let i : Instr := Instr.bprepi bare 1 0
    let s : State := withX 281474976710652 0
    let r : Btr := { target := 281474976710652, st := BState.preparing }
    (Claims.btrValue i (s.granted i 1).me (s.ctxAt s.myCtx).cgen = some (1, r)) ∧
    (s.issues i 1 = true) ∧
    (s.hasRoom i ((s.granted i 1).modMe fun t => { t with b := Tbl.set { } t.b 1 r }) = true) := by decide +kernel

theorem meets_TransferGoesToItsTarget_transferNot :
    let i : Instr := Instr.call bare 2 1 0
    let s : State := ready false
    let g : State := s.granted i 1
    (Claims.transferOf i = some (2#3, 1#4, 0#1, true)) ∧
    (s.issues i 1 = true) ∧
    ((s.me.rdP 1).poison = false) ∧
    (Claims.holds s.me 1#4 0#1 = false) ∧
    (s.hasRoom i g = true) := by decide +kernel

theorem meets_TransferGoesToItsTarget_transferGoes :
    let i : Instr := Instr.call bare 2 1 0
    let s : State := ready true
    let g : State := s.granted i 1
    let r : Btr := s.me.btr 2
    let back : Btr := { target := s.me.pc + 4, st := BState.preparing, cgen := (s.ctxAt s.myCtx).cgen, fgen := s.me.fgen }
    let linked : State := if true = true then g.modMe fun t => { t with b := Tbl.set { } t.b 7 back } else g
    (Claims.transferOf i = some (2#3, 1#4, 0#1, true)) ∧
    (s.issues i 1 = true) ∧
    ((s.me.rdP 1).poison = false) ∧
    (Claims.holds s.me 1#4 0#1 = true) ∧
    (s.me.loops = []) ∧
    (r.st = BState.ready) ∧
    (r.cgen = (s.ctxAt s.myCtx).cgen) ∧
    (r.fgen = s.me.fgen) ∧
    (s.hasRoom i linked = true) := by decide +kernel

theorem meets_PsetWritesEveryPredicate_pset :
    let s : State := withX 42405 0 true
    (s.issues (Instr.pset bare 0#6) 1 = true) ∧
    (s.hasRoom (Instr.pset bare 0#6) (s.granted (Instr.pset bare 0#6) 1) = true) := by decide +kernel

theorem meets_TransferGoesToItsTarget_transferAgain :
    let i : Instr := Instr.jmp bare 2 1 0
    let g : State := staleTarget.granted i 1
    let r : Btr := staleTarget.me.btr 2
    let back : Btr := { target := staleTarget.me.pc + 4, st := BState.preparing, cgen := (staleTarget.ctxAt staleTarget.myCtx).cgen, fgen := staleTarget.me.fgen }
    let again : State := g.modMe fun t => { t with b := Tbl.set { } t.b 2 { r with cgen := (staleTarget.ctxAt staleTarget.myCtx).cgen, fgen := staleTarget.me.fgen } }
    let linked1 : State := if false = true then again.modMe fun t => { t with b := Tbl.set { } t.b 7 back } else again
    (Claims.transferOf i = some (2#3, 1#4, 0#1, false)) ∧
    (staleTarget.issues i 1 = true) ∧
    ((staleTarget.me.rdP 1).poison = false) ∧
    (Claims.holds staleTarget.me 1#4 0#1 = true) ∧
    (staleTarget.me.loops = []) ∧
    (r.st = BState.ready) ∧
    (r.cgen ≠ (staleTarget.ctxAt staleTarget.myCtx).cgen ∨ r.fgen ≠ staleTarget.me.fgen) ∧
    (g.targetFault staleTarget.myCtx ↑r.target.toNat = none) ∧
    (staleTarget.hasRoom i linked1 = true) := by decide +kernel



end Sys2Proof.Tests.Scalars

namespace Sys2Proof.Tests.Strands
open Sys2Proof Sys2Proof.Machine Sys2Proof.Claims
set_option Elab.async false

def answered : State := { withMe { inTrap with micro := { stage := 1, id := 0 }, svtag := some 0 } with contexts := [(1, { st := .running, requests := [{ tag := 0, v := 5, grp := 1, rank := 0, strand := 0, popped := true, response := some 9 }] })] }

theorem meets_TakenTransferTraps_loopTraps :
    let i : Instr := Instr.jmp bare 2 1 0
    let s : State := (target true BState.ready).setMe { (target true BState.ready).me with loops := [{ }] }
    (Claims.transferOf i = some (2#3, 1#4, 0#1, false)) ∧
    (s.issues i 1 = true) ∧
    ((s.me.rdP 1).poison = false) ∧
    (Claims.holds s.me 1#4 0#1 = true) ∧
    (s.me.loops ≠ []) := by decide +kernel

theorem meets_TakenTransferTraps_emptyTraps :
    let i : Instr := Instr.jmp bare 2 1 0
    let s : State := target true BState.empty
    (Claims.transferOf i = some (2#3, 1#4, 0#1, false)) ∧
    (s.issues i 1 = true) ∧
    ((s.me.rdP 1).poison = false) ∧
    (Claims.holds s.me 1#4 0#1 = true) ∧
    (s.me.loops = []) ∧
    ((s.me.btr 2).st = BState.empty) := by decide +kernel

theorem meets_TakenTransferTraps_faultedTraps :
    let i : Instr := Instr.jmp bare 2 1 0
    let s : State := target true BState.faulted
    let r : Btr := s.me.btr 2
    (Claims.transferOf i = some (2#3, 1#4, 0#1, false)) ∧
    (s.issues i 1 = true) ∧
    ((s.me.rdP 1).poison = false) ∧
    (Claims.holds s.me 1#4 0#1 = true) ∧
    (s.me.loops = []) ∧
    (r.st = BState.faulted) := by decide +kernel

theorem meets_TakenTransferTraps_preparingWaits :
    let i : Instr := Instr.jmp bare 2 1 0
    let s : State := target true BState.preparing
    let r : Btr := s.me.btr 2
    (Claims.transferOf i = some (2#3, 1#4, 0#1, false)) ∧
    (s.issues i 1 = true) ∧
    ((s.me.rdP 1).poison = false) ∧
    (Claims.holds s.me 1#4 0#1 = true) ∧
    (s.me.loops = []) ∧
    (r.st = BState.preparing) := by decide +kernel

theorem meets_TakenTransferTraps_staleTraps :
    let i : Instr := Instr.jmp bare 2 1 0
    let s : State := (target true BState.ready).modMe fun t => { t with fgen := 1 }
    let r : Btr := s.me.btr 2
    (Claims.transferOf i = some (2#3, 1#4, 0#1, false)) ∧
    (s.issues i 1 = true) ∧
    ((s.me.rdP 1).poison = false) ∧
    (Claims.holds s.me 1#4 0#1 = true) ∧
    (s.me.loops = []) ∧
    (r.st = BState.ready) ∧
    (r.cgen ≠ (s.ctxAt s.myCtx).cgen ∨ r.fgen ≠ s.me.fgen) ∧
    ((s.granted i 1).targetFault s.myCtx ↑r.target.toNat = some 3#8) := by decide +kernel

theorem meets_LoopInstructionKeepsTheLoopStack_lsetup0 :
    let i : Instr := Instr.lsetupImm bare 1 3 0
    let t : Strand := { life := Life.running, sg := 0, loops := [{ rot := true, depth := 3, start := 1 }] }
    (Claims.loopAfter i (base.granted i 1).me = some (t, 4#48)) ∧
    (base.issues i 1 = true) ∧
    (base.hasRoom i ((base.granted i 1).setMe t) = true) := by decide +kernel

theorem meets_LoopInstructionKeepsTheLoopStack_lsetupNest :
    let i : Instr := Instr.lsetupReg bare 0 1 0
    let s : State := withMe { life := Life.running, x := [(0, { v := 5 })], sg := 1, loops := [{ }] }
    let t : Strand := { life := Life.running, x := [(0, { v := 5 })], sg := 1, loops := [{ remain := 5, depth := 1, outer := 1, start := 1 }, { nest := true }] }
    (Claims.loopAfter i (s.granted i 1).me = some (t, 4#48)) ∧
    (s.issues i 1 = true) ∧
    (s.hasRoom i ((s.granted i 1).setMe t) = true) := by decide +kernel

theorem meets_LoopInstructionKeepsTheLoopStack_lcloseFeed :
    let i : Instr := Instr.lclose bare
    let s : State := withMe { life := Life.running, sg := 1, pc := 8, loops := [{ remain := 2, rot := true, depth := 1, start := 1 }] }
    let t : Strand := { life := Life.running, sg := 3, pc := 8, rb := 1, loops := [{ remain := 1, rot := true, depth := 1, start := 1 }] }
    (Claims.loopAfter i (s.granted i 1).me = some (t, 4#48)) ∧
    (s.issues i 1 = true) ∧
    (s.hasRoom i ((s.granted i 1).setMe t) = true) := by decide +kernel

theorem meets_LoopInstructionKeepsTheLoopStack_lcloseExit :
    let i : Instr := Instr.lclose bare
    let s : State := withMe { life := Life.running, sg := 8, pc := 8, loops := [{ depth := 3, outer := 5, start := 1 }, { remain := 9, nest := true }] }
    let t : Strand := { life := Life.running, sg := 5, pc := 8, loops := [{ remain := 9, nest := true }] }
    (Claims.loopAfter i (s.granted i 1).me = some (t, 12#48)) ∧
    (s.issues i 1 = true) ∧
    (s.hasRoom i ((s.granted i 1).setMe t) = true) := by decide +kernel

theorem meets_LoopInstructionKeepsTheLoopStack_lcloseSusp :
    let i : Instr := Instr.lclose bare
    let s : State := withMe { life := Life.running, sg := 1, pc := 8, loops := [{ remain := 3, start := 1 }], preemptAt := some 0 }
    let t : Strand := { life := Life.running, sg := 0, pc := 8, loops := [{ remain := 2, susp := true, start := 1 }], preemptAt := some 0 }
    (Claims.loopAfter i (s.granted i 1).me = some (t, 4#48)) ∧
    (s.issues i 1 = true) ∧
    (s.hasRoom i ((s.granted i 1).setMe t) = true) := by decide +kernel

theorem meets_LoopInstructionKeepsTheLoopStack_lbreak :
    let i : Instr := Instr.lbreak bare 0 0
    let s : State := withMe { life := Life.running, sg := 1, loops := [{ remain := 3 }] }
    let t : Strand := { life := Life.running, sg := 1, loops := [{ remain := 3, brk := true }] }
    (Claims.loopAfter i (s.granted i 1).me = some (t, 4#48)) ∧
    (s.issues i 1 = true) ∧
    (s.hasRoom i ((s.granted i 1).setMe t) = true) := by decide +kernel

theorem meets_LoopFormsTrap_form1 :
    let s : State := withMe { life := Life.running, loops := [{ }, { }] }
    (2 ≤ s.me.loops.length ∨ s.me.hidden ≠ none) ∧
    (s.issues (Instr.lsetupImm bare 0#1 0#2 5#12) 1 = true) := by decide +kernel

theorem meets_LoopFormsTrap_form2 :
    let s : State := withMe inTrap
    (2 ≤ s.me.loops.length ∨ s.me.hidden ≠ none) ∧
    ((s.me.rd 0#6).poison = false) ∧
    (s.issues (Instr.lsetupReg bare 0#1 0#2 0#6) 1 = true) := by decide +kernel

theorem meets_LoopFormsTrap_form3 :
    (base.me.loops = []) ∧
    (base.issues (Instr.lclose bare) 1 = true) := by decide +kernel

theorem meets_LoopFormsTrap_form4 :
    (base.me.loops = []) ∧
    ((base.me.rdP 0).poison = false) ∧
    (base.issues (Instr.lbreak bare 0#4 0#1) 1 = true) := by decide +kernel

theorem meets_LoopFormsTrap_form5 :
    let s : State := withMe { life := Life.running, pc := 260, loops := [{ start := 1 }] }
    let top : LoopEntry := { start := 1 }
    (s.me.loops = [top]) ∧
    (top.nest = false) ∧
    (64 < ↑(s.me.pc.toNat / 4) - ↑top.start.toNat + 1) ∧
    (s.issues (Instr.lclose bare) 1 = true) := by decide +kernel

theorem meets_LoopFormsTrap_form6 :
    let s : State := withMe { life := Life.running, loops := [{ start := 1 }] }
    (s.me.loops ≠ []) ∧
    (s.issues (Instr.sdone bare) 1 = true) := by decide +kernel

theorem meets_NopIfenceSdone_nop :
    (base.issues (Instr.nop bare) 1 = true) ∧
    (base.hasRoom (Instr.nop bare) (base.granted (Instr.nop bare) 1) = true) := by decide +kernel

theorem meets_NopIfenceSdone_ifence :
    let g : State := (base.granted (Instr.ifence bare) 1).modMe fun t => { t with fgen := t.fgen + 1 }
    (base.issues (Instr.ifence bare) 1 = true) ∧
    (base.hasRoom (Instr.ifence bare) g = true) := by decide +kernel

theorem meets_NopIfenceSdone_sdone :
    let g : State := base.granted (Instr.sdone bare) 1
    (base.issues (Instr.sdone bare) 1 = true) ∧
    (base.hasRoom (Instr.sdone bare) g = true) ∧
    (base.me.loops = []) := by decide +kernel

theorem meets_TrapAndBreakpointInstructions_trap :
    (base.issues (Instr.trap bare 63#6) 1 = true) := by decide +kernel

theorem meets_TrapAndBreakpointInstructions_brk :
    (base.issues (Instr.brk bare 63#6) 1 = true) ∧
    (base.myCore.dbg.brkh = false) := by decide +kernel

theorem meets_TrapAndBreakpointInstructions_brkh :
    let s : State := base.modCore 0 fun c => { c with dbg := { brkh := true } }
    (s.issues (Instr.brk bare 63#6) 1 = true) ∧
    (s.myCore.dbg.brkh = true) := by decide +kernel

theorem meets_SystemReadsWriteTheirValue_sysrd :
    let i : Instr := Instr.sysrd bare 3 9
    let s : State := withMe { life := Life.running, svrsp := 7 }
    (Claims.systemValue i (s.granted i 1) = some (3#6, 7#64)) ∧
    (s.issues i 1 = true) ∧
    (s.hasRoom i ((s.granted i 1).modMe fun t => t.result 3#6 { v := 7#64 }) = true) := by decide +kernel

theorem meets_SystemReadsWriteTheirValue_sysrd0 :
    let i : Instr := Instr.sysrd bare 3 0
    let s : State := withMe inTrap
    (Claims.systemValue i (s.granted i 1) = some (3#6, 36#64)) ∧
    (s.issues i 1 = true) ∧
    (s.hasRoom i ((s.granted i 1).modMe fun t => t.result 3#6 { v := 36#64 }) = true) := by decide +kernel

theorem meets_SystemReadsWriteTheirValue_sysrd4 :
    let i : Instr := Instr.sysrd bare 3 4
    (Claims.systemValue i (base.granted i 1) = some (3#6, 1#64)) ∧
    (base.issues i 1 = true) ∧
    (base.hasRoom i ((base.granted i 1).modMe fun t => t.result 3#6 { v := 1#64 }) = true) := by decide +kernel

theorem meets_SystemReadsWriteTheirValue_sysrd7 :
    let i : Instr := Instr.sysrd bare 3 7
    (Claims.systemValue i (base.granted i 1) = some (3#6, 1#64)) ∧
    (base.issues i 1 = true) ∧
    (base.hasRoom i ((base.granted i 1).modMe fun t => t.result 3#6 { v := 1#64 }) = true) := by decide +kernel

theorem meets_SystemReadsWriteTheirValue_pcrd :
    let i : Instr := Instr.pcrd bare 3 0 15
    (Claims.systemValue i (base.granted i 1) = some (3#6, 0#64)) ∧
    (base.issues i 1 = true) ∧
    (base.hasRoom i ((base.granted i 1).modMe fun t => t.result 3#6 { }) = true) := by decide +kernel

theorem meets_SystemReadsWriteTheirValue_gid :
    let i : Instr := Instr.gid bare 3 4
    (Claims.systemValue i (base.granted i 1) = some (3#6, 0#64)) ∧
    (base.issues i 1 = true) ∧
    (base.hasRoom i ((base.granted i 1).modMe fun t => t.result 3#6 { }) = true) := by decide +kernel

theorem meets_SystemReadsWriteTheirValue_gsize :
    let i : Instr := Instr.gsize bare 3 3
    (Claims.systemValue i (base.granted i 1) = some (3#6, 1#64)) ∧
    (base.issues i 1 = true) ∧
    (base.hasRoom i ((base.granted i 1).modMe fun t => t.result 3#6 { v := 1#64 }) = true) := by decide +kernel

theorem meets_EretLeavesTheHandler_eret :
    let s : State := withMe inTrap
    let g : State := s.granted (Instr.eret bare) 1
    let h : Hidden := { }
    (s.issues (Instr.eret bare) 1 = true) ∧
    (s.me.hidden = some h) ∧
    (s.me.waitHalf = none) ∧
    (s.hasRoom (Instr.eret bare) g = true) := by decide +kernel

theorem meets_EretLeavesTheHandler_eretHalf :
    let s : State := withMe { inTrap with waitHalf := some (0, 7) }
    let g : State := s.granted (Instr.eret bare) 1
    let h : Hidden := { }
    (s.issues (Instr.eret bare) 1 = true) ∧
    (s.me.hidden = some h) ∧
    (s.me.waitHalf = some (0, 7#16)) ∧
    (s.hasRoom (Instr.eret bare) g = true) := by decide +kernel

theorem meets_EretLeavesTheHandler_eretOut :
    (base.issues (Instr.eret bare) 1 = true) ∧
    (base.me.hidden = none) := by decide +kernel

theorem meets_SyswrWritesEpcOrAsksTheSupervisor_syswrEpc :
    let s : State := withMe { inTrap with x := [(0, { v := 18446744073709551615 })] }
    let i : Instr := Instr.syswr bare 0 0
    let g : State := s.granted i 1
    let s' : State := g.modMe fun t => { t with epc := (s.me.rd 0).v &&& ~~~3#64 }
    (s.issues i 1 = true) ∧
    (s.me.inHandler = true) ∧
    (0#6 = 0#6) ∧
    ((s.me.rd 0#6).poison = false) ∧
    (s.hasRoom i s' = true) := by decide +kernel

theorem meets_SyswrWritesEpcOrAsksTheSupervisor_syswrReq :
    let s : State := withMe { inTrap with x := [(0, { v := 5 })] }
    let i : Instr := Instr.syswr bare 8 0
    (s.issues i 1 = true) ∧
    (s.me.inHandler = true) ∧
    (8#6 = 8#6) ∧
    ((s.me.rd 0#6).poison = false) := by decide +kernel

theorem meets_SyswrWritesEpcOrAsksTheSupervisor_syswrRsp :
    let i : Instr := Instr.syswr bare 8 0
    let q : SvRequest := { tag := 0, v := 5, grp := 1, rank := 0, strand := 0, popped := true, response := some 9 }
    let s' : State := (answered.modCtx answered.myCtx fun c => { c with requests := List.filter (fun x => x.tag != 0#16) c.requests }).modMe fun t => { t with svrsp := BitVec.setWidth 64 9#48, svtag := none }
    (answered.me.micro.stage = 1) ∧
    (answered.me.svtag = some 0#16) ∧
    ((answered.ctxAt answered.myCtx).request? 0#16 = some q) ∧
    (q.response = some 9#48) ∧
    (answered.hasRoom i s' = true) := by decide +kernel

theorem meets_SyswrWritesEpcOrAsksTheSupervisor_syswrPriv :
    let i : Instr := Instr.syswr bare 8 0
    (base.issues i 1 = true) ∧
    (base.me.inHandler = false ∨ 8#6 ≠ 0#6 ∧ 8#6 ≠ 8#6) := by decide +kernel

theorem meets_SyswrWritesEpcOrAsksTheSupervisor_syswrPriv2 :
    let s : State := withMe inTrap
    let i : Instr := Instr.syswr bare 1 0
    (s.issues i 1 = true) ∧
    (s.me.inHandler = false ∨ 1#6 ≠ 0#6 ∧ 1#6 ≠ 8#6) := by decide +kernel

theorem meets_YieldDeschedulesForWaitingWork_gyield0 :
    let x : Group := { ctx := 1, launch := 1, st := GState.running, cores := [0] }
    let g : State := base.granted (Instr.gyield bare 3) 1
    let r : Word → State := fun v => g.modMe fun t => t.result 3 { v := v }
    (base.myGroup = some (1, x)) ∧
    (x.st = GState.running) ∧
    (base.issues (Instr.gyield bare 3#6) 1 = true) ∧
    ((g.waitsFor 1 fun _ p => decide (p ≤ x.prio)) = false) ∧
    (base.hasRoom (Instr.gyield bare 3#6) (r 0#64) = true) := by decide +kernel

theorem meets_YieldDeschedulesForWaitingWork_gyield1 :
    let x : Group := { ctx := 1, launch := 1, st := GState.running, cores := [0] }
    let g : State := withWaiting.granted (Instr.gyield bare 3) 1
    let s' : State := (g.modGroup 1 fun y => { y with leave := some (y.leave.getD Leave.yields) }).modMe fun t => t.result 3 { v := 1 }
    (withWaiting.myGroup = some (1, x)) ∧
    (x.st = GState.running) ∧
    (withWaiting.issues (Instr.gyield bare 3#6) 1 = true) ∧
    ((g.waitsFor 1 fun _ p => decide (p ≤ x.prio)) = true) ∧
    (withWaiting.hasRoom (Instr.gyield bare 3#6) s' = true) := by decide +kernel

theorem meets_YieldDeschedulesForWaitingWork_yield0 :
    let x : Group := { ctx := 1, launch := 1, st := GState.running, cores := [0] }
    let g : State := base.granted (Instr.yield bare 3) 1
    let r : Word → State := fun v => g.modMe fun t => t.result 3 { v := v }
    (base.myGroup = some (1, x)) ∧
    (x.st = GState.running) ∧
    (base.issues (Instr.yield bare 3#6) 1 = true) ∧
    ((g.waitsFor 1 fun c _ => c != x.ctx) = false) ∧
    (base.hasRoom (Instr.yield bare 3#6) (r 0#64) = true) := by decide +kernel

theorem meets_YieldDeschedulesForWaitingWork_yield1 :
    let x : Group := { ctx := 1, launch := 1, st := GState.running, cores := [0] }
    let g : State := withWaiting.granted (Instr.yield bare 3) 1
    let s' : State := ((g.modCtx x.ctx fun k => { k with deficit := 0 }).modGroup 1 fun y => { y with leave := some (y.leave.getD Leave.yields) }).modMe fun t => t.result 3 { v := 1 }
    (withWaiting.myGroup = some (1, x)) ∧
    (x.st = GState.running) ∧
    (withWaiting.issues (Instr.yield bare 3#6) 1 = true) ∧
    ((g.waitsFor 1 fun c _ => c != x.ctx) = true) ∧
    (withWaiting.hasRoom (Instr.yield bare 3#6) s' = true) := by decide +kernel



end Sys2Proof.Tests.Strands

namespace Sys2Proof.Tests.Splits
open Sys2Proof Sys2Proof.Machine Sys2Proof.Claims
set_option Elab.async false

def pair (v : Word) : State := { withX v 0 with groups := [(1, { group1 with size := 2 })] }
def met (v w : Word) (a : BitVec 4) (bars : Tbl Barrier) : State := { base with
  groups := [(1, { group1 with size := 2, cores := [0, 1], barriers := bars })]
  cores := [(0, { group := some 1, strands := first { life := .waiting, wait := .split v, arr := a } }), (1, { group := some 1, strands := first { life := .waiting, wait := .split w } })] }
def pairOf (bars : Tbl Barrier) : Group := { group1 with size := 2, cores := [0, 1], barriers := bars }
def vx : State := withMe { life := .running, rb := 3, x := [(0, { v := 0x40 }), (1, { v := 5 })], o := [(0, { v := 9 })] }

theorem meets_GexitEndsEveryStrand_gexit :
    let s' : State := (base.granted (Instr.gexit bare) 1).modGroup 1 fun y => { y with leave := some Leave.exits }
    (base.issues (Instr.gexit bare) 1 = true) ∧
    (base.myGroup = some (1, group1)) ∧
    (base.hasRoom (Instr.gexit bare) s' = true) := by decide +kernel

theorem meets_GexitEndsEveryStrand_gexitEnds :
    let s : State := withGroup { group1 with leave := some Leave.exits }
    let x : Group := { group1 with leave := some Leave.exits }
    (s.groups.find? 1 = some x) ∧
    (x.contain = none) ∧
    (x.st = GState.running) ∧
    (x.leave = some Leave.exits) ∧
    (∀ (c : Nat), c ∈ x.cores → ∀ (k : Nat), k < 8 → (s.strandAt c k).outs = 0 ∧ ((s.strandAt c k).micro.stage = 0 ∨ (s.strandAt c k).life ≠ Life.running ∧ (s.strandAt c k).life ≠ Life.handler)) := by decide +kernel

theorem meets_GroupLeavesAtTheEndOfTheClock_parksLeaves :
    let s : State := withGroup { group1 with leave := some Leave.parks }
    let x : Group := { group1 with leave := some Leave.parks }
    (s.groups.find? 1 = some x) ∧
    (x.contain = none) ∧
    (x.st = GState.running) ∧
    (x.leave = some Leave.parks ∨ x.leave = some Leave.yields) := by decide +kernel

theorem meets_GroupLeavesAtTheEndOfTheClock_parksSaves :
    let s : State := withGroup { group1 with leave := some Leave.parks }
    let x : Group := { group1 with leave := some Leave.parks }
    let u : Strand := s.strandAt 0 0
    (s.groups.find? 1 = some x) ∧
    (x.contain = none) ∧
    (x.st = GState.running) ∧
    (x.leave = some Leave.parks ∨ x.leave = some Leave.yields) ∧
    (0 ∈ x.cores) ∧
    (0 < 8) ∧
    (u.outs = 0) ∧
    (u.life = Life.waiting ∨ (u.life = Life.halted ∨ u.life = Life.running ∨ u.life = Life.handler) ∧ u.micro.stage = 0) := by decide +kernel

theorem meets_GsplitMeetsItsGroup_gsplitWaits :
    let s : State := pair 17
    let x : Group := { group1 with size := 2 }
    let i : Instr := Instr.gsplit bare 0
    let v : Word := (s.me.rd 0).v
    let b : Nat → Nat := fun k => BitVec.toNat v / 2 ^ (4 * k) % 16
    let n : Nat := BitVec.toNat v % 4
    let ok : Prop := BitVec.toNat v < 2 ^ 16 ∧ BitVec.toNat v / 4 % 4 = 0 ∧ (if 1 ≤ n then 0 < b 1 ∧ b 1 < x.size else b 1 = 0) ∧ (if 2 ≤ n then b 1 < b 2 ∧ b 2 < x.size else b 2 = 0) ∧ if 3 ≤ n then b 2 < b 3 ∧ b 3 < x.size else b 3 = 0
    (s.myGroup = some (1, x)) ∧
    (s.issues i 1 = true) ∧
    ((s.me.rd 0#6).poison = false) ∧
    (ok) := by decide +kernel

theorem meets_GsplitMeetsItsGroup_gsplitBad :
    let s : State := pair 33
    let x : Group := { group1 with size := 2 }
    let i : Instr := Instr.gsplit bare 0
    let v : Word := (s.me.rd 0).v
    let b : Nat → Nat := fun k => BitVec.toNat v / 2 ^ (4 * k) % 16
    let n : Nat := BitVec.toNat v % 4
    let ok : Prop := BitVec.toNat v < 2 ^ 16 ∧ BitVec.toNat v / 4 % 4 = 0 ∧ (if 1 ≤ n then 0 < b 1 ∧ b 1 < x.size else b 1 = 0) ∧ (if 2 ≤ n then b 1 < b 2 ∧ b 2 < x.size else b 2 = 0) ∧ if 3 ≤ n then b 2 < b 3 ∧ b 3 < x.size else b 3 = 0
    (s.myGroup = some (1, x)) ∧
    (s.issues i 1 = true) ∧
    ((s.me.rd 0#6).poison = false) ∧
    (¬ok) := by decide +kernel

theorem meets_GsplitMeetsItsGroup_gsplitDone :
    let s : State := withMe { life := Life.running, micro := { stage := 1 } }
    let i : Instr := Instr.gsplit bare 0
    (s.myGroup = some (1, group1)) ∧
    (s.me.micro.stage = 1) ∧
    (s.hasRoom i s = true) := by decide +kernel

theorem meets_GsplitMeetsItsGroup_gsplitFails :
    let s : State := withMe { life := Life.running, micro := { stage := 2 } }
    (s.myGroup = some (1, group1)) ∧
    (s.me.micro.stage = 2) ∧
    (s.me.outs = 0) := by decide +kernel

theorem meets_SplitRendezvousIsAllOrNone_rvFailVal :
    let s : State := met 17 0 0 []
    let x : Group := pairOf []
    let ps : List (Nat × Nat) := s.participants x
    let at' : Nat × Nat → Option Word := fun p => (s.strandAt p.fst p.snd).atSplit
    let arrived : Prop := ∃ c, c ∈ x.cores ∧ ∃ k, k < 8 ∧ (s.strandAt c k).arr ≠ 0
    (s.groups.find? 1 = some x) ∧
    (x.st = GState.running) ∧
    (∃ p, p ∈ ps ∧ at' p = some 17#64) ∧
    (∀ (p : Nat × Nat), p ∈ ps → (at' p).isSome = true) ∧
    ((∃ p, p ∈ ps ∧ at' p ≠ some 17#64) ∨ arrived) := by decide +kernel

theorem meets_SplitRendezvousIsAllOrNone_rvFailArr :
    let s : State := met 17 17 1 []
    let x : Group := pairOf []
    let ps : List (Nat × Nat) := s.participants x
    let at' : Nat × Nat → Option Word := fun p => (s.strandAt p.fst p.snd).atSplit
    let arrived : Prop := ∃ c, c ∈ x.cores ∧ ∃ k, k < 8 ∧ (s.strandAt c k).arr ≠ 0
    (s.groups.find? 1 = some x) ∧
    (x.st = GState.running) ∧
    (∃ p, p ∈ ps ∧ at' p = some 17#64) ∧
    (∀ (p : Nat × Nat), p ∈ ps → (at' p).isSome = true) ∧
    ((∃ p, p ∈ ps ∧ at' p ≠ some 17#64) ∨ arrived) := by decide +kernel

theorem meets_SplitRendezvousIsAllOrNone_rvOk :
    let s : State := met 17 17 0 []
    let x : Group := pairOf []
    let ps : List (Nat × Nat) := s.participants x
    let at' : Nat × Nat → Option Word := fun p => (s.strandAt p.fst p.snd).atSplit
    let arrived : Prop := ∃ c, c ∈ x.cores ∧ ∃ k, k < 8 ∧ (s.strandAt c k).arr ≠ 0
    (s.groups.find? 1 = some x) ∧
    (x.st = GState.running) ∧
    (∃ p, p ∈ ps ∧ at' p = some 17#64) ∧
    (∀ (p : Nat × Nat), p ∈ ps → (at' p).isSome = true) ∧
    (∀ (p : Nat × Nat), p ∈ ps → at' p = some 17#64) ∧
    (¬arrived) ∧
    (∀ (j : Nat), j < 4 → (x.bar j).bytes = 0) := by decide +kernel

theorem meets_SplitRendezvousIsAllOrNone_rvWait :
    let s : State := met 17 17 0 [(3, { bytes := 1 })]
    let x : Group := pairOf [(3, { bytes := 1 })]
    let ps : List (Nat × Nat) := s.participants x
    let at' : Nat × Nat → Option Word := fun p => (s.strandAt p.fst p.snd).atSplit
    let arrived : Prop := ∃ c, c ∈ x.cores ∧ ∃ k, k < 8 ∧ (s.strandAt c k).arr ≠ 0
    (s.groups.find? 1 = some x) ∧
    (x.st = GState.running) ∧
    (∃ p, p ∈ ps ∧ at' p = some 17#64) ∧
    (∀ (p : Nat × Nat), p ∈ ps → (at' p).isSome = true) ∧
    (∃ j, j < 4 ∧ (x.bar j).bytes ≠ 0) ∧
    (∀ (p : Nat × Nat), p ∈ ps → at' p = some 17#64) ∧
    (¬arrived) := by decide +kernel

theorem meets_VectorInstructionEntersItsQueue_venter :
    let i : Instr := Instr.vadd bare 0 48 1
    let r : Claims.VectorRead := { s1 := { v := 9 } }
    (Claims.vectorReads i vx.me = some r) ∧
    (vx.issues i 1 = true) ∧
    ((vx.myCore.rot 26).served = []) := by decide +kernel

theorem meets_VectorInstructionEntersItsQueue_venterExt :
    let i : Instr := Instr.vext bare 4 0 1
    let r : Claims.VectorRead := { owes := some 4, s2 := { v := 5 } }
    (Claims.vectorReads i vx.me = some r) ∧
    (vx.issues i 1 = true) := by decide +kernel

theorem meets_VectorInstructionEntersItsQueue_venterLd :
    let i : Instr := Instr.vstSTwoWord bare 48 0 1 3 1048575
    let r : Claims.VectorRead := { s2 := { v := 9 }, addr := 103 }
    (Claims.vectorReads i vx.me = some r) ∧
    (vx.issues i 1 = true) := by decide +kernel

theorem meets_VectorInstructionEntersItsQueue_venterCfg :
    let i : Instr := Instr.vcfg bare 4 1 1
    let r : Claims.VectorRead := { owes := some 4, s1 := { v := 5 } }
    (Claims.vectorReads i vx.me = some r) ∧
    (vx.issues i 1 = true) := by decide +kernel



end Sys2Proof.Tests.Splits

namespace Sys2Proof.Tests.Poisons
open Sys2Proof Sys2Proof.Machine Sys2Proof.Claims
set_option Elab.async false

def inH : State := withMe { inTrap with x := [(0, { v := 1, poison := true })] }
def poP : State := withMe { life := .running, p := [(1, { v := true, poison := true })], b := [(2, { st := .ready })] }

theorem meets_PoisonContainsTheTask_poy :
    let s : State := withX 1 0 true
    ((s.me.rd 0#6).poison = true) ∧
    (s.issues (Instr.bprepi bare 8#6 0#6) 1 = true) := by decide +kernel

theorem meets_PoisonContainsTheTask_poy2 :
    let s : State := withX 1 0 true
    ((s.me.rd 0#6).poison = true) ∧
    (s.issues (Instr.bprepiMeta bare 8#6 0#6) 1 = true) := by decide +kernel

theorem meets_PoisonContainsTheTask_poy3 :
    let s : State := withX 1 0 true
    ((s.me.rd 0#6).poison = true) ∧
    (s.issues (Instr.lsetupReg bare 0#1 0#2 0#6) 1 = true) := by decide +kernel

theorem meets_PoisonContainsTheTask_poy4 :
    let s : State := withX 1 0 true
    ((s.me.rd 0#6).poison = true) ∧
    (s.issues (Instr.fset bare 8#6 0#6) 1 = true) := by decide +kernel

theorem meets_PoisonContainsTheTask_poy5 :
    let s : State := withX 1 0 true
    ((s.me.rd 0#6).poison = true) ∧
    (s.issues (Instr.park bare 8#6 0#6) 1 = true) := by decide +kernel

theorem meets_PoisonContainsTheTask_poy6 :
    let s : State := withX 1 0 true
    ((s.me.rd 0#6).poison = true) ∧
    (s.issues (Instr.cntWait bare 8#6 0#6) 1 = true) := by decide +kernel

theorem meets_PoisonContainsTheTask_poy7 :
    let s : State := withX 1 0 true
    ((s.me.rd 0#6).poison = true) ∧
    (s.issues (Instr.cntAdd bare 8#6 0#6) 1 = true) := by decide +kernel

theorem meets_PoisonContainsTheTask_poy8 :
    let s : State := withX 1 0 true
    ((s.me.rd 0#6).poison = true) ∧
    (s.issues (Instr.rlcTest bare 8#6 0#6) 1 = true) := by decide +kernel

theorem meets_PoisonContainsTheTask_poy9 :
    let s : State := withX 1 0 true
    ((s.me.rd 0#6).poison = true) ∧
    (s.issues (Instr.gsplit bare 0#6) 1 = true) := by decide +kernel

theorem meets_PoisonContainsTheTask_poh :
    (inH.me.inHandler = true) ∧
    (8#6 = 0#6 ∨ 8#6 = 8#6) ∧
    ((inH.me.rd 0#6).poison = true) ∧
    (inH.issues (Instr.syswr bare 8#6 0#6) 1 = true) := by decide +kernel

theorem meets_PoisonContainsTheTask_poj :
    ((poP.me.rdP 1).poison = true) ∧
    (poP.issues (Instr.jmp bare 2#3 1#4 0#1) 1 = true) := by decide +kernel

theorem meets_PoisonContainsTheTask_poc :
    ((poP.me.rdP 1).poison = true) ∧
    (poP.issues (Instr.call bare 2#3 1#4 0#1) 1 = true) := by decide +kernel

theorem meets_PoisonContainsTheTask_pol :
    let s : State := poP.setMe { poP.me with loops := [{ remain := 2 }] }
    ((s.me.rdP 1).poison = true) ∧
    (s.issues (Instr.lbreak bare 1#4 0#1) 1 = true) := by decide +kernel



end Sys2Proof.Tests.Poisons
end

