-- ==== Sys2Proof/Tests/Syncing.lean ====
section
/-! SUPPORT. States that meet the hypotheses of the statements about synchronisation. -/

namespace Sys2Proof.Tests.Barriers
open Sys2Proof Sys2Proof.Machine Sys2Proof.Claims
set_option Elab.async false

/-- barrier 0 -/
def wB (b : Barrier) (t : Strand := { life := .running }) : State := (withGroup { group1 with barriers := [(0, b)] }).setMe t
def b0 (n : Nat) : Barrier := { part := 2, arrive := n, used := true, phase := 7 }
def T (v : Word) (t : Strand := {}) : Strand := { t with life := .running, x := [(1, { v := v })] }
-- phase ends
def gB (b : Barrier) : Group := { group1 with barriers := [(0, b)] }
def bt (n : Nat) (y : Int) (touched : Bool := true) : Barrier := { b0 n with bytes := y, touched := touched }
-- tokens
def ps (_n : BitVec 6) : Pre := bare
def pushS : Pre := { bare with sn := true }
def popS : Pre := { bare with wn := true }
def lots (n : Nat) : Tbl Sem := [(0, { lots := [(n, {})] })]
def fullS : State := withCore (fun c => { c with fifo := (List.range 8).map (fun k => (k, List.replicate 15 {})) })
def wTok : State := withCore (fun c => { c with fifo := (List.range 8).map (fun k => (k, [{}, {}, {}])), sem := lots 7 })
def took : Core × Mark := ((wTok.granted (.kwait bare 0 7 0) 1).myCore.semTake 0 7).getD (base.myCore, {})
-- taking
def wOver : State := withCore (fun c => { c with sem := [(0, { lots := [(65535, {})], inc := [(1, {})] })] })

theorem meets_BarrierInstructions_bb1 :
    let s : State := wB { }
    let k : Nat := 0
    (s.issues (Instr.bar bare 0#6) 1 = true) ∧
    (s.myBar k = none) := by decide +kernel

theorem meets_BarrierInstructions_bb2 :
    let s : State := wB { }
    let k : Nat := 0
    (s.issues (Instr.barArr bare 0#6 0#6) 1 = true) ∧
    (s.myBar k = none) := by decide +kernel

theorem meets_BarrierInstructions_bb3 :
    let s : State := wB { }
    let k : Nat := 0
    (s.issues (Instr.barWait bare 1#6 0#6) 1 = true) ∧
    (s.myBar k = none) ∧
    ((s.me.rd 1#6).poison = false) := by decide +kernel

theorem meets_BarrierInstructions_bb4 :
    let s : State := wB { }
    let k : Nat := 0
    (s.issues (Instr.barExp bare 1#6 0#6) 1 = true) ∧
    (s.myBar k = none) ∧
    ((s.me.rd 1#6).poison = false) := by decide +kernel

theorem meets_BarrierInstructions_barr1 :
    let s : State := wB (b0 1) { life := Life.running, arr := 1 }
    let k : Nat := 0
    let b : Barrier := b0 1
    let i : Instr := Instr.bar bare 0
    (s.myBar k = some b) ∧
    (s.issues i 1 = true) ∧
    (s.me.arr.getLsbD k = true) := by decide +kernel

theorem meets_BarrierInstructions_barr2 :
    let s : State := wB (b0 1)
    let k : Nat := 0
    let b : Barrier := b0 1
    let i : Instr := Instr.bar bare 0
    (s.myBar k = some b) ∧
    (s.issues i 1 = true) ∧
    (s.me.arr.getLsbD k = false) := by decide +kernel

theorem meets_BarrierInstructions_barr3 :
    let s : State := wB (b0 2) { life := Life.running, micro := { stage := 1, id := 7 } }
    let k : Nat := 0
    let b : Barrier := b0 2
    (s.myBar k = some b) ∧
    (s.me.micro.stage = 1) ∧
    (b.phase.toNat = s.me.micro.id) := by decide +kernel

theorem meets_BarrierInstructions_barr4 :
    let s : State := wB (b0 2) { life := Life.running, micro := { stage := 1, id := 6 } }
    let k : Nat := 0
    let sees : State → Barrier → State := fun u_1 b_1 => u_1.modMe fun t => t.learn b_1.markDone
    let b : Barrier := b0 2
    let i : Instr := Instr.bar bare 0
    (s.myBar k = some b) ∧
    (s.me.micro.stage = 1) ∧
    (b.phase.toNat ≠ s.me.micro.id) ∧
    (s.hasRoom i (sees s b) = true) := by decide +kernel

theorem meets_BarrierInstructions_bara0 :
    let s : State := wB (b0 1) { life := Life.running, arr := 1 }
    let k : Nat := 0
    let b : Barrier := b0 1
    let i : Instr := Instr.barArr bare 0 0
    (s.myBar k = some b) ∧
    (s.issues i 1 = true) ∧
    (s.me.arr.getLsbD k = true) := by decide +kernel

theorem meets_BarrierInstructions_bara :
    let s : State := wB (b0 1)
    let k : Nat := 0
    let b : Barrier := b0 1
    let i : Instr := Instr.barArr bare 0 0
    (s.myBar k = some b) ∧
    (s.issues i 1 = true) ∧
    (s.me.arr.getLsbD k = false) ∧
    (s.hasRoom i (((s.granted i 1).arriveAt k).modMe fun t => t.result 0#6 { v := BitVec.setWidth 64 b.phase }) = true) := by decide +kernel

theorem meets_BarrierInstructions_barw1 :
    let s : State := wB (b0 1) (T 6)
    let k : Nat := 0
    let sees : State → Barrier → State := fun u b_1 => u.modMe fun t => t.learn b_1.markDone
    let b : Barrier := b0 1
    let i : Instr := Instr.barWait bare 1 0
    let tok : BitVec 16 := BitVec.extractLsb' 0 16 (s.me.rd 1).v
    (s.myBar k = some b) ∧
    (s.issues i 1 = true) ∧
    ((s.me.rd 1#6).poison = false) ∧
    (b.phase ≠ tok) ∧
    (s.hasRoom i (sees (s.granted i 1) b) = true) := by decide +kernel

theorem meets_BarrierInstructions_barw2 :
    let s : State := wB (b0 1) (T 7)
    let k : Nat := 0
    let b : Barrier := b0 1
    let i : Instr := Instr.barWait bare 1 0
    let tok : BitVec 16 := BitVec.extractLsb' 0 16 (s.me.rd 1).v
    (s.myBar k = some b) ∧
    (s.issues i 1 = true) ∧
    ((s.me.rd 1#6).poison = false) ∧
    (b.phase = tok) := by decide +kernel

theorem meets_BarrierInstructions_barx1 :
    let s : State := wB (b0 1) (T 1099511627776)
    let k : Nat := 0
    let b : Barrier := b0 1
    let i : Instr := Instr.barExp bare 1 0
    let v : Nat := BitVec.toNat (s.me.rd 1).v
    (s.myBar k = some b) ∧
    (s.issues i 1 = true) ∧
    ((s.me.rd 1#6).poison = false) ∧
    (2 ^ 40 ≤ v) := by decide +kernel

theorem meets_BarrierInstructions_barx2 :
    let s : State := wB { b0 1 with bytes := 2 ^ 47 - 1 } (T 1099511627775)
    let k : Nat := 0
    let b : Barrier := { b0 1 with bytes := 2 ^ 47 - 1 }
    let i : Instr := Instr.barExp bare 1 0
    let v : Nat := BitVec.toNat (s.me.rd 1).v
    (s.myBar k = some b) ∧
    (s.issues i 1 = true) ∧
    ((s.me.rd 1#6).poison = false) ∧
    (v < 2 ^ 40) ∧
    (s.hasRoom i ((s.granted i 1).barUpdate s.grp k fun b_1 => { b_1 with bytes := b_1.bytes + ↑v }) = true) := by decide +kernel

theorem meets_BarrierPhaseEnds_ph1 :
    let s : State := wB (bt 0 0 false)
    let x : Group := gB (bt 0 0 false)
    let b : Barrier := x.bar 0
    (s.groups.find? 1 = some x) ∧
    (0 < 4) ∧
    (b.touched = false) := by decide +kernel

theorem meets_BarrierPhaseEnds_ph2 :
    let s : State := wB (bt 0 (-2 ^ 47 - 1))
    let x : Group := gB (bt 0 (-2 ^ 47 - 1))
    let b : Barrier := x.bar 0
    (s.groups.find? 1 = some x) ∧
    (0 < 4) ∧
    (b.touched = true) ∧
    (b.bytes < -2 ^ 47 ∨ 2 ^ 47 ≤ b.bytes) := by decide +kernel

theorem meets_BarrierPhaseEnds_ph2b :
    let s : State := wB (bt 0 (2 ^ 47))
    let x : Group := gB (bt 0 (2 ^ 47))
    let b : Barrier := x.bar 0
    (s.groups.find? 1 = some x) ∧
    (0 < 4) ∧
    (b.touched = true) ∧
    (b.bytes < -2 ^ 47 ∨ 2 ^ 47 ≤ b.bytes) := by decide +kernel

theorem meets_BarrierPhaseEnds_ph3 :
    let s : State := wB (bt 0 0)
    let x : Group := gB (bt 0 0)
    let b : Barrier := x.bar 0
    (s.groups.find? 1 = some x) ∧
    (0 < 4) ∧
    (b.touched = true) ∧
    (-2 ^ 47 ≤ b.bytes) ∧
    (b.bytes < 2 ^ 47) := by decide +kernel

theorem meets_BarrierPhaseEnds_ph4 :
    let s : State := wB (bt 0 (-2 ^ 47))
    let x : Group := gB (bt 0 (-2 ^ 47))
    let b : Barrier := x.bar 0
    (s.groups.find? 1 = some x) ∧
    (0 < 4) ∧
    (b.touched = true) ∧
    (-2 ^ 47 ≤ b.bytes) ∧
    (b.bytes < 2 ^ 47) := by decide +kernel

theorem meets_BarrierPhaseEnds_ph5 :
    let s : State := wB (bt 0 (2 ^ 47 - 1))
    let x : Group := gB (bt 0 (2 ^ 47 - 1))
    let b : Barrier := x.bar 0
    (s.groups.find? 1 = some x) ∧
    (0 < 4) ∧
    (b.touched = true) ∧
    (-2 ^ 47 ≤ b.bytes) ∧
    (b.bytes < 2 ^ 47) := by decide +kernel

theorem meets_TokenInstructions_tk1 :
    (1#2 ≠ 0#2) ∧
    (base.issues (Instr.tokpush bare 2#6 1#2) 1 = true) := by decide +kernel

theorem meets_TokenInstructions_tk1b :
    (2#2 ≠ 0#2) ∧
    (base.issues (Instr.tokpush bare 2#6 2#2) 1 = true) := by decide +kernel

theorem meets_TokenInstructions_tk1c :
    (3#2 ≠ 0#2) ∧
    (base.issues (Instr.tokpush bare 2#6 3#2) 1 = true) := by decide +kernel

theorem meets_TokenInstructions_tk2 :
    let pre : Pre := { bare with wn := true }
    (1#2 ≠ 0#2) ∧
    (base.issues (Instr.tokpop pre 2#6 1#2) 2 = true) := by decide +kernel

theorem meets_TokenInstructions_tk2b :
    let pre : Pre := { bare with wn := true }
    (2#2 ≠ 0#2) ∧
    (base.issues (Instr.tokpop pre 2#6 2#2) 2 = true) := by decide +kernel

theorem meets_TokenInstructions_tk2c :
    let pre : Pre := { bare with wn := true }
    (3#2 ≠ 0#2) ∧
    (base.issues (Instr.tokpop pre 2#6 3#2) 2 = true) := by decide +kernel

theorem meets_TokenInstructions_tk3 :
    (1#2 ≠ 0#2) ∧
    (base.issues (Instr.ksig bare 0#6 2#6 1#2) 1 = true) := by decide +kernel

theorem meets_TokenInstructions_tk3b :
    (2#2 ≠ 0#2) ∧
    (base.issues (Instr.ksig bare 0#6 2#6 2#2) 1 = true) := by decide +kernel

theorem meets_TokenInstructions_tk3c :
    (3#2 ≠ 0#2) ∧
    (base.issues (Instr.ksig bare 0#6 2#6 3#2) 1 = true) := by decide +kernel

theorem meets_TokenInstructions_tk4 :
    (1#2 ≠ 0#2) ∧
    (base.issues (Instr.kwait bare 0#6 2#6 1#2) 1 = true) := by decide +kernel

theorem meets_TokenInstructions_tk4b :
    (2#2 ≠ 0#2) ∧
    (base.issues (Instr.kwait bare 0#6 2#6 2#2) 1 = true) := by decide +kernel

theorem meets_TokenInstructions_tk4c :
    (3#2 ≠ 0#2) ∧
    (base.issues (Instr.kwait bare 0#6 2#6 3#2) 1 = true) := by decide +kernel

theorem meets_TokenInstructions_tk1q :
    (1#2 ≠ 0#2) ∧
    (base.issues (Instr.tokpush bare 2#6 1#2) 1 = true) ∧
    (1#2 = 1#2) ∧
    ((base.myCore.rot 24).served = []) := by decide +kernel

theorem meets_TokenInstructions_tk2q :
    (2#2 ≠ 0#2) ∧
    (base.issues (Instr.ksig bare 0#6 2#6 2#2) 1 = true) ∧
    (2#2 = 2#2) ∧
    ((base.myCore.rot 25).served = []) := by decide +kernel

theorem meets_TokenInstructions_tk3q :
    (3#2 ≠ 0#2) ∧
    (base.issues (Instr.kwait bare 0#6 2#6 3#2) 1 = true) ∧
    (3#2 = 3#2) ∧
    ((base.myCore.rot 26).served = []) := by decide +kernel

theorem meets_TokenInstructions_tk5 :
    let i : Instr := Instr.tokpush pushS 2 0
    let g : State := base.granted i 1
    (base.issues i 1 = true) ∧
    (base.hasRoom i g = true) := by decide +kernel

theorem meets_TokenInstructions_tk5p :
    let i : Instr := Instr.tokpush pushS 2 0
    let g : State := base.granted i 1
    (base.issues i 1 = true) ∧
    (base.hasRoom i g = true) ∧
    (Engine.S.sn = Engine.S.sp ∧ pushS.sp = true ∨ Engine.S.sn = Engine.S.sn ∧ pushS.sn = true) := by decide +kernel

theorem meets_TokenInstructions_tk5b :
    let i : Instr := Instr.tokpush pushS 2 0
    let g : State := fullS.granted i 1
    (fullS.issues i 1 = true) ∧
    (fullS.hasRoom i g = false) := by decide +kernel

theorem meets_TokenInstructions_tk6 :
    let i : Instr := Instr.tokpop popS 2 0
    (wTok.issues i 2 = true) ∧
    (wTok.hasRoom i (wTok.granted i 2) = true) := by decide +kernel

theorem meets_TokenInstructions_tk7 :
    let i : Instr := Instr.ksig bare 0 2 0
    let g : State := wTok.granted i 1
    (wTok.issues i 1 = true) ∧
    (wTok.hasRoom i (g.modCore wTok.core fun c => c.semAdd 0 2 g.me.mark) = true) := by decide +kernel

theorem meets_TokenInstructions_tk9 :
    let i : Instr := Instr.kwait bare 0 7 0
    let g : State := wTok.granted i 1
    (wTok.issues i 1 = true) ∧
    (g.myCore.semTake 0 7 = some (took.fst, took.snd)) ∧
    (wTok.hasRoom i ((g.setCore wTok.core took.fst).modMe fun t => t.learn took.snd) = true) := by decide +kernel

theorem meets_TakingAndAdding_ta1 :
    (3 + Tbl.get 0 wTok.myCore.fresh 0 ≤ (wTok.myCore.tokens 0).length) := by decide +kernel

theorem meets_TakingAndAdding_ta2 :
    ((wTok.myCore.tokens 0).length < 4 + Tbl.get 0 wTok.myCore.fresh 0) := by decide +kernel

theorem meets_TakingAndAdding_ta3 :
    (7 ≤ (wTok.myCore.semAt 0).count) := by decide +kernel

theorem meets_TakingAndAdding_ta4 :
    ((wTok.myCore.semAt 0).count < 8) := by decide +kernel

theorem meets_TakingAndAdding_ta5 :
    let e : Nat × Core := (0, wOver.coreAt 0)
    let x : Context := wOver.ctxAt (wOver.coreCtx e.fst)
    (e ∈ wOver.cores) ∧
    (e.snd.overflows = true) ∧
    (x.st ≠ CState.none) ∧
    (x.st ≠ CState.retired) ∧
    (x.st ≠ CState.failed) := by decide +kernel



end Sys2Proof.Tests.Barriers

namespace Sys2Proof.Tests.Waits
open Sys2Proof Sys2Proof.Machine Sys2Proof.Claims
set_option Elab.async false

def cS (q x : Word) (t : Strand := {}) : State := (withMe { t with life := .running, x := [(0, { v := q }), (1, { v := x })] })
def cH (q x : Word) (t : Strand := {}) : State := mapped (cS q x t)
def gv (i : Instr) (s : State) : State := s.granted i 1

def cP : State := (cS 4 0).sWrite 0 [0,1,2,3,4,5,6,7] [1,0,0,0,0,0,0,0] true
def cN : State := (cS 4 2).sWrite 0 [0,1,2,3,4,5,6,7] [2,0,0,0,0,0,0,0] false
def as0 : List Nat := addrs (2^29) 8
def dirty (s : State) : State := s.modGroup 1 (fun g => { g with ver := { h := [], p := [(2^48 * 5 + 64, 9)] } })
def held4 (s : State) : State := s.modGroup 1 (fun g => { g with ver := { bounds := [{ id := 4, hunits := [] }] } })
-- futures
def cHp : State := (mapped (withMe { life := .running, x := [(0, {}), (1, { v := 5, poison := true })] }))
def w4 (x : Word) : State := cH 0 x { micro := { stage := 1, id := 4 } }
def full1 (s : State) : State := s.pokeHbm (2^29) (wordBytes 0x8000000000000001)
def pois1 (s : State) : State := { s with hbm := { s.hbm with poison := [(2^23, true)] } }
def park2 (s : State) : State := { s with waitTable := [{ die := 0, addr := 2^29, ctx := 1, grp := 2 }], groups := s.groups ++ [(2, { ctx := 1, launch := 1, st := .parked, parking := some { addr := 2^29 } })] }
def fullT (s : State) : State := { s with waitTable := (List.range 4096).map (fun k => { die := 0, addr := 2^30 + k * 8, ctx := 2, grp := 2 }) }
-- waits
def wB (b : Barrier) (t : Strand := { life := .running }) : State := (withGroup { group1 with barriers := [(0, b)] }).setMe t
def b0 (n : Nat) : Barrier := { part := 2, arrive := n, used := true, phase := 7 }
def gB (b : Barrier) : Group := { group1 with barriers := [(0, b)] }
def wW (w : Wait) (f : Core → Core := id) : State := (withMe { life := .waiting, wait := w, x := [(0, { v := 4 }), (1, { v := 0 })] }).modCore 0 f
def wfetch : State := (mapped (wW .counter)).pokeHbm (2^29) (code (.cntWait bare 1 0))
def cSY (n : BitVec 6) : State := (mapped (withCore (fun c => { c with sem := [(0, { lots := [(3, {})] })] }))).pokeHbm (2^29) (code (.kwait { bare with sy := true } 0 n 0))
def bun (n : BitVec 6) : Bundle := ((cSY n).bundle 0 ((List.range 8).filter (fun k => ((cSY n).strandAt 0 k).life != .done)) { core := (cSY n).coreAt 0 }).getD { core := base.coreAt 0 }
def cFP : State := (mapped ((withX 0x7FFF 0).modCore 0 (fun c => { c with fq := List.replicate 16 0 }))).pokeHbm (2^29) (code (.fpush { bare with sy := true } 0))
def bunF : Bundle := (cFP.bundle 0 ((List.range 8).filter (fun k => (cFP.strandAt 0 k).life != .done)) { core := cFP.coreAt 0 }).getD { core := base.coreAt 0 }

theorem meets_MemoryCounters_c1 :
    let s : State := cS 3 0
    let q : Word := (s.me.rd 0).v
    let clean : Prop := (s.me.rd 0).poison = false ∧ (s.me.rd 1).poison = false
    let i : Instr := Instr.cntWait bare 1 0
    (s.issues i 1 = true) ∧
    (clean) ∧
    (BitVec.extractLsb' 0 2 q = 3#2) := by decide +kernel

theorem meets_MemoryCounters_c2 :
    let s : State := cS 0 0
    let q : Word := (s.me.rd 0).v
    let clean : Prop := (s.me.rd 0).poison = false ∧ (s.me.rd 1).poison = false
    let i : Instr := Instr.cntWait bare 1 0
    let g : State := s.granted i 1
    let h : Home := g.counterHome q Right.rd
    (s.issues i 1 = true) ∧
    (clean) ∧
    (BitVec.extractLsb' 0 2 q ≠ 3#2) ∧
    (h = Home.fault) := by decide +kernel

theorem meets_MemoryCounters_c3 :
    let q : Word := (cP.me.rd 0).v
    let clean : Prop := (cP.me.rd 0).poison = false ∧ (cP.me.rd 1).poison = false
    let i : Instr := Instr.cntWait bare 1 0
    let g : State := cP.granted i 1
    let h : Home := g.counterHome q Right.rd
    let r : Word × Bool × State := g.counterValue h
    (cP.issues i 1 = true) ∧
    (clean) ∧
    (BitVec.extractLsb' 0 2 q ≠ 3#2) ∧
    (h ≠ Home.fault) ∧
    (h ≠ Home.absent) ∧
    (r.snd.fst = true) := by decide +kernel

theorem meets_MemoryCounters_c4 :
    let q : Word := (cN.me.rd 0).v
    let x : Word := (cN.me.rd 1).v
    let clean : Prop := (cN.me.rd 0).poison = false ∧ (cN.me.rd 1).poison = false
    let inS : Bool := BitVec.getLsbD q 2
    let value : State → Home → Prop := fun g_1 h_1 => h_1 ≠ Home.fault ∧ h_1 ≠ Home.absent ∧ (g_1.counterValue h_1).snd.fst = false
    let i : Instr := Instr.cntWait bare 1 0
    let g : State := cN.granted i 1
    let h : Home := g.counterHome q Right.rd
    let r : Word × Bool × State := g.counterValue h
    let holds : Prop := BitVec.extractLsb' 0 2 q = 0 ∧ BitVec.toNat x ≤ BitVec.toNat r.fst ∨ BitVec.extractLsb' 0 2 q = 1 ∧ BitVec.toNat r.fst ≤ BitVec.toNat x ∨ BitVec.extractLsb' 0 2 q = 2 ∧ r.fst = x
    let u : State := r.snd.snd.modMe fun t => t.learn (Tbl.get { } r.snd.snd.marks (g.counterKey h))
    (cN.issues i 1 = true) ∧
    (clean) ∧
    (BitVec.extractLsb' 0 2 q ≠ 3#2) ∧
    (value g h) ∧
    (holds) ∧
    (cN.hasRoom i (if inS = true then u else u.beginPhase) = true) := by decide +kernel

theorem meets_MemoryCounters_c4h :
    let s : State := cH 1 2
    let q : Word := (s.me.rd 0).v
    let x : Word := (s.me.rd 1).v
    let clean : Prop := (s.me.rd 0).poison = false ∧ (s.me.rd 1).poison = false
    let inS : Bool := BitVec.getLsbD q 2
    let value : State → Home → Prop := fun g_1 h_1 => h_1 ≠ Home.fault ∧ h_1 ≠ Home.absent ∧ (g_1.counterValue h_1).snd.fst = false
    let i : Instr := Instr.cntWait bare 1 0
    let g : State := s.granted i 1
    let h : Home := g.counterHome q Right.rd
    let r : Word × Bool × State := g.counterValue h
    let holds : Prop := BitVec.extractLsb' 0 2 q = 0 ∧ BitVec.toNat x ≤ BitVec.toNat r.fst ∨ BitVec.extractLsb' 0 2 q = 1 ∧ BitVec.toNat r.fst ≤ BitVec.toNat x ∨ BitVec.extractLsb' 0 2 q = 2 ∧ r.fst = x
    let u : State := r.snd.snd.modMe fun t => t.learn (Tbl.get { } r.snd.snd.marks (g.counterKey h))
    (s.issues i 1 = true) ∧
    (clean) ∧
    (BitVec.extractLsb' 0 2 q ≠ 3#2) ∧
    (value g h) ∧
    (holds) ∧
    (s.hasRoom i (if inS = true then u else u.beginPhase) = true) := by decide +kernel

theorem meets_MemoryCounters_c5 :
    let s : State := cH 0 2
    let q : Word := (s.me.rd 0).v
    let x : Word := (s.me.rd 1).v
    let clean : Prop := (s.me.rd 0).poison = false ∧ (s.me.rd 1).poison = false
    let value : State → Home → Prop := fun g_1 h_1 => h_1 ≠ Home.fault ∧ h_1 ≠ Home.absent ∧ (g_1.counterValue h_1).snd.fst = false
    let i : Instr := Instr.cntWait bare 1 0
    let g : State := s.granted i 1
    let h : Home := g.counterHome q Right.rd
    let r : Word × Bool × State := g.counterValue h
    let holds : Prop := BitVec.extractLsb' 0 2 q = 0 ∧ BitVec.toNat x ≤ BitVec.toNat r.fst ∨ BitVec.extractLsb' 0 2 q = 1 ∧ BitVec.toNat r.fst ≤ BitVec.toNat x ∨ BitVec.extractLsb' 0 2 q = 2 ∧ r.fst = x
    (s.issues i 1 = true) ∧
    (clean) ∧
    (BitVec.extractLsb' 0 2 q ≠ 3#2) ∧
    (value g h) ∧
    (¬holds) := by decide +kernel

theorem meets_MemoryCounters_a1 :
    let s : State := cS 1 0
    let q : Word := (s.me.rd 0).v
    let clean : Prop := (s.me.rd 0).poison = false ∧ (s.me.rd 1).poison = false
    let i : Instr := Instr.cntAdd bare 1 0
    (s.issues i 1 = true) ∧
    (clean) ∧
    (BitVec.extractLsb' 0 2 q ≠ 0#2) := by decide +kernel

theorem meets_MemoryCounters_a2 :
    let s : State := cS 4 5
    let q : Word := (s.me.rd 0).v
    let x : Word := (s.me.rd 1).v
    let clean : Prop := (s.me.rd 0).poison = false ∧ (s.me.rd 1).poison = false
    let inS : Bool := BitVec.getLsbD q 2
    let i : Instr := Instr.cntAdd bare 1 0
    let added : State → List Nat → State := (fun g as_1 =>
        have h_1 := if inS = true then Home.s as_1 else Home.h as_1;
        have r := g.counterValue h_1;
        have bs := bytesLE 8 (BitVec.toNat (r.fst + x));
        have w := if inS = true then r.snd.snd.sWrite s.core as_1 bs false else (r.snd.snd.commitBytes (place as_1 bs)).sawOwn s.grp (as_1.headD 0 / 8);
        { w with marks := Tbl.set { } r.snd.snd.marks (g.counterKey h_1) (g.me.mark.join (Tbl.get { } r.snd.snd.marks (g.counterKey h_1))) })
    let as : List Nat := [0, 1, 2, 3, 4, 5, 6, 7]
    (s.issues i 1 = true) ∧
    (clean) ∧
    (BitVec.extractLsb' 0 2 q = 0#2) ∧
    (inS = true) ∧
    ((s.granted i 1).counterHome q Right.rdwr = Home.s as) ∧
    (((s.granted i 1).counterValue (Home.s as)).snd.fst = false) ∧
    (s.hasRoom i (added (s.granted i 1) as) = true) := by decide +kernel

theorem meets_MemoryCounters_a3 :
    let s : State := cH 0 5 { micro := { stage := 1, id := 4 } }
    let q : Word := (s.me.rd 0).v
    let x : Word := (s.me.rd 1).v
    let inS : Bool := BitVec.getLsbD q 2
    let i : Instr := Instr.cntAdd bare 1 0
    let added : State → List Nat → State := (fun g as =>
        have h_1 := if inS = true then Home.s as else Home.h as;
        have r := g.counterValue h_1;
        have bs := bytesLE 8 (BitVec.toNat (r.fst + x));
        have w := if inS = true then r.snd.snd.sWrite s.core as bs false else (r.snd.snd.commitBytes (place as bs)).sawOwn s.grp (as.headD 0 / 8);
        { w with marks := Tbl.set { } r.snd.snd.marks (g.counterKey h_1) (g.me.mark.join (Tbl.get { } r.snd.snd.marks (g.counterKey h_1))) })
    (s.me.micro.stage = 1) ∧
    (s.boundaryDone s.grp s.me.micro.id = true) ∧
    (inS = false) ∧
    (s.counterHome q Right.rdwr = Home.h as0) ∧
    ((s.counterValue (Home.h as0)).snd.fst = false) ∧
    (s.hasRoom i (added s as0) = true) := by decide +kernel

theorem meets_MemoryCounters_a4 :
    let s : State := dirty (cH 0 5)
    let q : Word := (s.me.rd 0).v
    let clean : Prop := (s.me.rd 0).poison = false ∧ (s.me.rd 1).poison = false
    let inS : Bool := BitVec.getLsbD q 2
    let i : Instr := Instr.cntAdd bare 1 0
    (s.issues i 1 = true) ∧
    (clean) ∧
    (BitVec.extractLsb' 0 2 q = 0#2) ∧
    (inS = false) := by decide +kernel

theorem meets_MemoryCounters_a5 :
    let s : State := held4 (cH 0 5 { micro := { stage := 1, id := 4 } })
    (s.me.micro.stage = 1) ∧
    (s.boundaryDone s.grp s.me.micro.id = false) := by decide +kernel

theorem meets_Futures_f1 :
    let s : State := cH 1 5
    let q : Reg := s.me.rd 0
    let i : Instr := Instr.fset bare 1 0
    (s.issues i 1 = true) ∧
    (q.poison = false) ∧
    (BitVec.toNat q.v % 8 ≠ 0) := by decide +kernel

theorem meets_Futures_f7 :
    let s : State := dirty (cH 0 5)
    let q : Reg := s.me.rd 0
    let i : Instr := Instr.fset bare 1 0
    (s.issues i 1 = true) ∧
    (q.poison = false) ∧
    (BitVec.toNat q.v % 8 = 0) ∧
    ((s.me.rd 1#6).poison = false) := by decide +kernel

theorem meets_Futures_f4 :
    let s : State := cS 0 5 { micro := { stage := 1, id := 4 } }
    let q : Reg := s.me.rd 0
    (s.me.micro.stage = 1) ∧
    (s.boundaryDone s.grp s.me.micro.id = true) ∧
    (s.future (BitVec.toNat q.v) Right.rdwr = none) := by decide +kernel

theorem meets_Futures_f3 :
    let s : State := park2 (w4 5)
    let q : Reg := s.me.rd 0
    let x : Word := (s.me.rd 1).v
    let i : Instr := Instr.fset bare 1 0
    let pa : Nat := 2 ^ 29
    let r : List Byte × Bool × State := s.homeRead (addrs pa 8)
    let full : Bool := (BitVec.ofNat 64 (natLE r.fst)).getLsbD 63
    (s.me.micro.stage = 1) ∧
    (s.boundaryDone s.grp s.me.micro.id = true) ∧
    (s.future (BitVec.toNat q.v) Right.rdwr = some pa) ∧
    (r.snd.fst = false) ∧
    (full = false) ∧
    (s.hasRoom i (((r.snd.snd.commitUnit (pa / 8) (place (addrs pa 8) (bytesLE 8 (9223372036854775808#64 ||| x).toNat))).sawOwn s.grp (pa / 8)).wakeFuture pa) = true) := by decide +kernel

theorem meets_Futures_f5 :
    let s : State := full1 (w4 5)
    let q : Reg := s.me.rd 0
    let i : Instr := Instr.fset bare 1 0
    let pa : Nat := 2 ^ 29
    let r : List Byte × Bool × State := s.homeRead (addrs pa 8)
    let full : Bool := (BitVec.ofNat 64 (natLE r.fst)).getLsbD 63
    (s.me.micro.stage = 1) ∧
    (s.boundaryDone s.grp s.me.micro.id = true) ∧
    (s.future (BitVec.toNat q.v) Right.rdwr = some pa) ∧
    (r.snd.fst = false) ∧
    (full = true) ∧
    (s.hasRoom i r.snd.snd = true) := by decide +kernel

theorem meets_Futures_f6 :
    let s : State := pois1 (w4 5)
    let q : Reg := s.me.rd 0
    let pa : Nat := 2 ^ 29
    let r : List Byte × Bool × State := s.homeRead (addrs pa 8)
    (s.me.micro.stage = 1) ∧
    (s.boundaryDone s.grp s.me.micro.id = true) ∧
    (s.future (BitVec.toNat q.v) Right.rdwr = some pa) ∧
    (r.snd.fst = true) := by decide +kernel

theorem meets_Futures_p1 :
    let s : State := cH 1 5
    let q : Reg := s.me.rd 0
    let i : Instr := Instr.park bare 1 0
    (s.issues i 1 = true) ∧
    (q.poison = false) ∧
    (BitVec.toNat q.v % 8 ≠ 0) := by decide +kernel

theorem meets_Futures_p2 :
    let s : State := cS 0 5
    let q : Reg := s.me.rd 0
    let i : Instr := Instr.park bare 1 0
    let g : State := s.granted i 1
    (s.issues i 1 = true) ∧
    (q.poison = false) ∧
    (BitVec.toNat q.v % 8 = 0) ∧
    (g.future (BitVec.toNat q.v) Right.rd = none) := by decide +kernel

theorem meets_Futures_p3 :
    let s : State := pois1 (cH 0 5)
    let q : Reg := s.me.rd 0
    let i : Instr := Instr.park bare 1 0
    let g : State := s.granted i 1
    let pa : Nat := 2 ^ 29
    let r : List Byte × Bool × State := g.homeRead (addrs pa 8)
    (s.issues i 1 = true) ∧
    (q.poison = false) ∧
    (BitVec.toNat q.v % 8 = 0) ∧
    (g.future (BitVec.toNat q.v) Right.rd = some pa) ∧
    (r.snd.fst = true) := by decide +kernel

theorem meets_Futures_p4 :
    let s : State := full1 (cH 0 5)
    let q : Reg := s.me.rd 0
    let i : Instr := Instr.park bare 1 0
    let g : State := s.granted i 1
    let set : Bool → State → State := fun v u => u.modMe fun t => if 1 = 0 then t else { t with p := Tbl.set { } t.p 1 { v := v } }
    let pa : Nat := 2 ^ 29
    let r : List Byte × Bool × State := g.homeRead (addrs pa 8)
    let full : Bool := (BitVec.ofNat 64 (natLE r.fst)).getLsbD 63
    (s.issues i 1 = true) ∧
    (q.poison = false) ∧
    (BitVec.toNat q.v % 8 = 0) ∧
    (g.future (BitVec.toNat q.v) Right.rd = some pa) ∧
    (r.snd.fst = false) ∧
    (full = true) ∧
    (s.hasRoom i (set true r.snd.snd).beginPhase = true) := by decide +kernel

theorem meets_Futures_p5 :
    let s : State := fullT (cH 0 5)
    let q : Reg := s.me.rd 0
    let i : Instr := Instr.park bare 1 0
    let g : State := s.granted i 1
    let set : Bool → State → State := fun v u => u.modMe fun t => if 1 = 0 then t else { t with p := Tbl.set { } t.p 1 { v := v } }
    let pa : Nat := 2 ^ 29
    let r : List Byte × Bool × State := g.homeRead (addrs pa 8)
    let full : Bool := (BitVec.ofNat 64 (natLE r.fst)).getLsbD 63
    let taken : Prop := s.leaving = some Leave.parks ∨ s.leaving = some Leave.exits
    (s.issues i 1 = true) ∧
    (q.poison = false) ∧
    (BitVec.toNat q.v % 8 = 0) ∧
    (g.future (BitVec.toNat q.v) Right.rd = some pa) ∧
    (r.snd.fst = false) ∧
    (full = false) ∧
    (¬taken) ∧
    (s.tableRoom (dieOf s.core) = false) ∧
    (s.hasRoom i (set false r.snd.snd) = true) := by decide +kernel

theorem meets_Futures_p6 :
    let s : State := cH 0 5
    let q : Reg := s.me.rd 0
    let i : Instr := Instr.park bare 1 0
    let g : State := s.granted i 1
    let set : Bool → State → State := fun v u_1 => u_1.modMe fun t => if 1 = 0 then t else { t with p := Tbl.set { } t.p 1 { v := v } }
    let pa : Nat := 2 ^ 29
    let r : List Byte × Bool × State := g.homeRead (addrs pa 8)
    let full : Bool := (BitVec.ofNat 64 (natLE r.fst)).getLsbD 63
    let taken : Prop := s.leaving = some Leave.parks ∨ s.leaving = some Leave.exits
    let w : WaitEntry := { die := dieOf s.core, addr := pa, ctx := s.myCtx, grp := s.grp }
    let u : State := { r.snd.snd with waitTable := r.snd.snd.waitTable ++ [w] }
    (s.issues i 1 = true) ∧
    (q.poison = false) ∧
    (BitVec.toNat q.v % 8 = 0) ∧
    (g.future (BitVec.toNat q.v) Right.rd = some pa) ∧
    (r.snd.fst = false) ∧
    (full = false) ∧
    (¬taken) ∧
    (s.tableRoom (dieOf s.core) = true) ∧
    (s.hasRoom i ((set true u).modGroup s.grp fun y => { y with leave := some Leave.parks, parking := some { addr := pa, rank := rankIn y.cores s.core, strand := s.strand } }) = true) := by decide +kernel

theorem meets_Futures_p7 :
    let s : State := (cH 0 5).modGroup 1 fun g_1 => { g_1 with leave := some Leave.parks }
    let q : Reg := s.me.rd 0
    let i : Instr := Instr.park bare 1 0
    let g : State := s.granted i 1
    let pa : Nat := 2 ^ 29
    let r : List Byte × Bool × State := g.homeRead (addrs pa 8)
    let full : Bool := (BitVec.ofNat 64 (natLE r.fst)).getLsbD 63
    let taken : Prop := s.leaving = some Leave.parks ∨ s.leaving = some Leave.exits
    (s.issues i 1 = true) ∧
    (q.poison = false) ∧
    (BitVec.toNat q.v % 8 = 0) ∧
    (g.future (BitVec.toNat q.v) Right.rd = some pa) ∧
    (r.snd.fst = false) ∧
    (full = false) ∧
    (taken) := by decide +kernel

theorem meets_WaitsEnd_w1 :
    let s : State := wB (b0 1) { life := Life.waiting, wait := Wait.barrier 0 6 }
    let t : Strand := s.strandAt 0 0
    let there : State := { s with core := 0, strand := 0 }
    let x : Group := gB (b0 1)
    (t.life = Life.waiting) ∧
    (t.stops = false) ∧
    (there.myGroup = some (1, x)) ∧
    (x.contain = none) ∧
    (x.st = GState.running ∨ x.st = GState.saving) ∧
    (there.waitOver = true) := by decide +kernel

theorem meets_WaitsEnd_w2 :
    let s : State := wB (b0 1) { life := Life.waiting, wait := Wait.barrier 0 7 }
    let t : Strand := s.strandAt 0 0
    let there : State := { s with core := 0, strand := 0 }
    let x : Group := gB (b0 1)
    (t.life = Life.waiting) ∧
    (t.stops = false) ∧
    (there.myGroup = some (1, x)) ∧
    (x.contain = none) ∧
    (x.st = GState.running ∨ x.st = GState.saving) ∧
    (there.waitOver = false) := by decide +kernel

theorem meets_WaitsEnd_w3 :
    let t : Strand := wfetch.strandAt 0 0
    let there : State := { wfetch with core := 0, strand := 0 }
    let h : Home := Home.s [0, 1, 2, 3, 4, 5, 6, 7]
    (t.life = Life.waiting) ∧
    (t.stops = false) ∧
    (t.wait = Wait.counter) ∧
    (there.fetchMine = Fetch.instr (Instr.cntWait bare 1#6 0#6)) ∧
    (there.counterHome (t.rd 0#6).v Right.rd = h) ∧
    (h ≠ Home.absent) ∧
    (h ≠ Home.fault) ∧
    (counterCond (BitVec.extractLsb' 0 2 (t.rd 0#6).v) (there.counterValue h).fst (t.rd 1#6).v = true) := by decide +kernel

theorem meets_WaitsEnd_w4 :
    let s : State := cSY 2
    let ks : List Nat := List.filter (fun k => (s.strandAt 0 k).life != Life.done) (List.range 8)
    let b : Bundle := bun 2
    (s.groupOf 0 = some 1) ∧
    (s.groups.find? 1 = some group1) ∧
    (group1.contain = none) ∧
    (group1.st = GState.running) ∧
    (ks ≠ []) ∧
    (s.bundle 0 ks { core := s.coreAt 0 } = some b) ∧
    ((s.coreAt 0).fq.length - b.claims + b.words ≤ Config.matrixQueue) := by
  intro s ks b
  exact ⟨by decide +kernel, by decide +kernel, by decide +kernel, by decide +kernel, by decide +kernel, some_of_isSome (by decide +kernel), by decide +kernel⟩

theorem meets_WaitsEnd_w5 :
    let s : State := cSY 4
    let ks : List Nat := List.filter (fun k => (s.strandAt 0 k).life != Life.done) (List.range 8)
    (s.groupOf 0 = some 1) ∧
    (s.groups.find? 1 = some group1) ∧
    (group1.contain = none) ∧
    (group1.st = GState.running) ∧
    (ks ≠ []) ∧
    ((s.bundle 0 ks { core := s.coreAt 0 }).isNone = true) := by decide +kernel

theorem meets_WaitsEnd_w6 :
    let ks : List Nat := List.filter (fun k => (cFP.strandAt 0 k).life != Life.done) (List.range 8)
    (cFP.groupOf 0 = some 1) ∧
    (cFP.groups.find? 1 = some group1) ∧
    (group1.contain = none) ∧
    (group1.st = GState.running) ∧
    (ks ≠ []) ∧
    (cFP.bundle 0 ks { core := cFP.coreAt 0 } = some bunF) ∧
    (Config.matrixQueue < (cFP.coreAt 0).fq.length - bunF.claims + bunF.words) := by
  intro ks
  exact ⟨by decide +kernel, by decide +kernel, by decide +kernel, by decide +kernel, by decide +kernel, some_of_isSome (by decide +kernel), by decide +kernel⟩



end Sys2Proof.Tests.Waits
end

