-- ==== Sys2Proof/Tests/Window.lean ====
section
/-! SUPPORT. States that meet the hypotheses of the statements about register writes. -/

namespace Sys2Proof.Tests.Registers
open Sys2Proof Sys2Proof.Machine Sys2Proof.Claims
set_option Elab.async false

def wr : State := { base with
  queues := [(0, { st := .active, desc := [(3, BitVec.ofNat 64 (2 ^ 44))] }), (1023, { st := .halted, qseq := 4 })]
  contexts := [(0, { st := .none, desc := [(2, 64)] }), (1, { st := .running, desc := [(2, 64), (0, 1)] }), (4095, { st := .created, requests := [{ tag := 5, v := 0, grp := 1, rank := 0, strand := 0 }] })]
  ports := [(79, { st := .bypassed })], flash := { ret := [(79 * 16 + 15, true), (0, true)] } }

theorem meets_RegisterWritesAreTheirCommands_rw2 :
    (20 % 8 ≠ 0) := by decide +kernel

theorem meets_RegisterWritesAreTheirCommands_rw3 :
    (10567680 ≤ 10567680) := by decide +kernel

theorem meets_RegisterWritesAreTheirCommands_rw4 :
    (1310720 ≤ 1310720) ∧
    (1310720 < 4194304) := by decide +kernel

theorem meets_RegisterWritesAreTheirCommands_rw4b :
    (1310720 ≤ 4194296) ∧
    (4194296 < 4194304) := by decide +kernel

theorem meets_RegisterWritesAreTheirCommands_rw5 :
    (30064771073 % 4 = 1) := by decide +kernel

theorem meets_RegisterWritesAreTheirCommands_rw6 :
    (2 % 4 = 2) := by decide +kernel

theorem meets_RegisterWritesAreTheirCommands_rw7 :
    (3 % 4 = 3) := by decide +kernel

theorem meets_RegisterWritesAreTheirCommands_rw8 :
    (4 % 4 = 0) := by decide +kernel

theorem meets_RegisterWritesAreTheirCommands_rwb :
    (Via.host = Via.host) := by decide +kernel

theorem meets_RegisterWritesAreTheirCommands_rwc :
    let via : Via := Via.guest 1
    (via ≠ Via.host) := by decide +kernel

theorem meets_RegisterWritesAreTheirCommands_qa0 :
    (0 < 1024) := by decide +kernel

theorem meets_RegisterWritesAreTheirCommands_qb01 :
    let code : Nat := 1 % 16
    (0 < 1024) ∧
    (code = 1) := by decide +kernel

theorem meets_RegisterWritesAreTheirCommands_qb02 :
    let code : Nat := 2 % 16
    (0 < 1024) ∧
    (code = 2) := by decide +kernel

theorem meets_RegisterWritesAreTheirCommands_qb03 :
    let code : Nat := 3 % 16
    (0 < 1024) ∧
    (code = 3) := by decide +kernel

theorem meets_RegisterWritesAreTheirCommands_qb04 :
    let code : Nat := 4 % 16
    (0 < 1024) ∧
    (code = 4) := by decide +kernel

theorem meets_RegisterWritesAreTheirCommands_qb05 :
    let code : Nat := 5 % 16
    (0 < 1024) ∧
    (code = 5) := by decide +kernel

theorem meets_RegisterWritesAreTheirCommands_qc00 :
    (0 < 1024) ∧
    (0 < 4) := by decide +kernel

theorem meets_RegisterWritesAreTheirCommands_qc03 :
    (0 < 1024) ∧
    (3 < 4) := by decide +kernel

theorem meets_RegisterWritesAreTheirCommands_qa1 :
    (1023 < 1024) := by decide +kernel

theorem meets_RegisterWritesAreTheirCommands_qb11 :
    let code : Nat := 1 % 16
    (1023 < 1024) ∧
    (code = 1) := by decide +kernel

theorem meets_RegisterWritesAreTheirCommands_qb12 :
    let code : Nat := 2 % 16
    (1023 < 1024) ∧
    (code = 2) := by decide +kernel

theorem meets_RegisterWritesAreTheirCommands_qb13 :
    let code : Nat := 3 % 16
    (1023 < 1024) ∧
    (code = 3) := by decide +kernel

theorem meets_RegisterWritesAreTheirCommands_qb14 :
    let code : Nat := 4 % 16
    (1023 < 1024) ∧
    (code = 4) := by decide +kernel

theorem meets_RegisterWritesAreTheirCommands_qb15 :
    let code : Nat := 5 % 16
    (1023 < 1024) ∧
    (code = 5) := by decide +kernel

theorem meets_RegisterWritesAreTheirCommands_qc10 :
    (1023 < 1024) ∧
    (0 < 4) := by decide +kernel

theorem meets_RegisterWritesAreTheirCommands_qc13 :
    (1023 < 1024) ∧
    (3 < 4) := by decide +kernel

theorem meets_RegisterWritesAreTheirCommands_xb01 :
    let v : Word := 504403158265495553
    let code : Nat := BitVec.toNat v % 16
    (0 < 4096) ∧
    (code = 1) := by decide +kernel

theorem meets_RegisterWritesAreTheirCommands_xb02 :
    let v : Word := 504403158265495554
    let code : Nat := BitVec.toNat v % 16
    (0 < 4096) ∧
    (code = 2) := by decide +kernel

theorem meets_RegisterWritesAreTheirCommands_xb03 :
    let v : Word := 504403158265495555
    let code : Nat := BitVec.toNat v % 16
    (0 < 4096) ∧
    (code = 3) := by decide +kernel

theorem meets_RegisterWritesAreTheirCommands_xb04 :
    let v : Word := 504403158265495556
    let code : Nat := BitVec.toNat v % 16
    (0 < 4096) ∧
    (code = 4) := by decide +kernel

theorem meets_RegisterWritesAreTheirCommands_xb06 :
    let v : Word := 504403158265495558
    let code : Nat := BitVec.toNat v % 16
    (0 < 4096) ∧
    (code = 6) := by decide +kernel

theorem meets_RegisterWritesAreTheirCommands_xc0 :
    (0 < 4096) := by decide +kernel

theorem meets_RegisterWritesAreTheirCommands_xd0 :
    (0 < 4096) := by decide +kernel

theorem meets_RegisterWritesAreTheirCommands_xb11 :
    let v : Word := 504403158265495553
    let code : Nat := BitVec.toNat v % 16
    (4095 < 4096) ∧
    (code = 1) := by decide +kernel

theorem meets_RegisterWritesAreTheirCommands_xb12 :
    let v : Word := 504403158265495554
    let code : Nat := BitVec.toNat v % 16
    (4095 < 4096) ∧
    (code = 2) := by decide +kernel

theorem meets_RegisterWritesAreTheirCommands_xb13 :
    let v : Word := 504403158265495555
    let code : Nat := BitVec.toNat v % 16
    (4095 < 4096) ∧
    (code = 3) := by decide +kernel

theorem meets_RegisterWritesAreTheirCommands_xb14 :
    let v : Word := 504403158265495556
    let code : Nat := BitVec.toNat v % 16
    (4095 < 4096) ∧
    (code = 4) := by decide +kernel

theorem meets_RegisterWritesAreTheirCommands_xb16 :
    let v : Word := 504403158265495558
    let code : Nat := BitVec.toNat v % 16
    (4095 < 4096) ∧
    (code = 6) := by decide +kernel

theorem meets_RegisterWritesAreTheirCommands_xc1 :
    (4095 < 4096) := by decide +kernel

theorem meets_RegisterWritesAreTheirCommands_xd1 :
    (4095 < 4096) := by decide +kernel

theorem meets_RegisterWritesAreTheirCommands_db01 :
    let code : Nat := (274 / 16 : Nat) % 4
    (0 < 512) ∧
    (code = 1) := by decide +kernel

theorem meets_RegisterWritesAreTheirCommands_db02 :
    let code : Nat := (290 / 16 : Nat) % 4
    (0 < 512) ∧
    (code = 2) := by decide +kernel

theorem meets_RegisterWritesAreTheirCommands_db03 :
    let code : Nat := (306 / 16 : Nat) % 4
    (0 < 512) ∧
    (code = 3) := by decide +kernel

theorem meets_RegisterWritesAreTheirCommands_dc00 :
    (0 < 512) ∧
    (0 < 256) := by decide +kernel

theorem meets_RegisterWritesAreTheirCommands_dc0255 :
    (0 < 512) ∧
    (255 < 256) := by decide +kernel

theorem meets_RegisterWritesAreTheirCommands_db11 :
    let code : Nat := (274 / 16 : Nat) % 4
    (511 < 512) ∧
    (code = 1) := by decide +kernel

theorem meets_RegisterWritesAreTheirCommands_db12 :
    let code : Nat := (290 / 16 : Nat) % 4
    (511 < 512) ∧
    (code = 2) := by decide +kernel

theorem meets_RegisterWritesAreTheirCommands_db13 :
    let code : Nat := (306 / 16 : Nat) % 4
    (511 < 512) ∧
    (code = 3) := by decide +kernel

theorem meets_RegisterWritesAreTheirCommands_dc10 :
    (511 < 512) ∧
    (0 < 256) := by decide +kernel

theorem meets_RegisterWritesAreTheirCommands_dc1255 :
    (511 < 512) ∧
    (255 < 256) := by decide +kernel

theorem meets_RegisterWritesAreTheirCommands_pb01 :
    let code : Nat := 33 % 8
    (0 < 80) ∧
    (code = 1) := by decide +kernel

theorem meets_RegisterWritesAreTheirCommands_pb02 :
    let code : Nat := 34 % 8
    (0 < 80) ∧
    (code = 2) := by decide +kernel

theorem meets_RegisterWritesAreTheirCommands_pb03 :
    let code : Nat := 35 % 8
    (0 < 80) ∧
    (code = 3) := by decide +kernel

theorem meets_RegisterWritesAreTheirCommands_pb04 :
    let code : Nat := 36 % 8
    (0 < 80) ∧
    (code = 4) := by decide +kernel

theorem meets_RegisterWritesAreTheirCommands_pb05 :
    let code : Nat := 37 % 8
    (0 < 80) ∧
    (code = 5) := by decide +kernel

theorem meets_RegisterWritesAreTheirCommands_pc00 :
    (0 < 80) ∧
    (0 < 16) ∧
    (BitVec.getLsbD 5#64 63 = false) := by decide +kernel

theorem meets_RegisterWritesAreTheirCommands_pc015 :
    (0 < 80) ∧
    (15 < 16) ∧
    (BitVec.getLsbD 5#64 63 = false) := by decide +kernel

theorem meets_RegisterWritesAreTheirCommands_pb11 :
    let code : Nat := 33 % 8
    (79 < 80) ∧
    (code = 1) := by decide +kernel

theorem meets_RegisterWritesAreTheirCommands_pb12 :
    let code : Nat := 34 % 8
    (79 < 80) ∧
    (code = 2) := by decide +kernel

theorem meets_RegisterWritesAreTheirCommands_pb13 :
    let code : Nat := 35 % 8
    (79 < 80) ∧
    (code = 3) := by decide +kernel

theorem meets_RegisterWritesAreTheirCommands_pb14 :
    let code : Nat := 36 % 8
    (79 < 80) ∧
    (code = 4) := by decide +kernel

theorem meets_RegisterWritesAreTheirCommands_pb15 :
    let code : Nat := 37 % 8
    (79 < 80) ∧
    (code = 5) := by decide +kernel

theorem meets_RegisterWritesAreTheirCommands_pc10 :
    (79 < 80) ∧
    (0 < 16) ∧
    (BitVec.getLsbD 5#64 63 = false) := by decide +kernel

theorem meets_RegisterWritesAreTheirCommands_pc115 :
    (79 < 80) ∧
    (15 < 16) ∧
    (BitVec.getLsbD 5#64 63 = false) := by decide +kernel



end Sys2Proof.Tests.Registers
end

section
/-! PROOF. Words without meaning, and guards (spec/02_encoding.md R28, R46, R47): opcode 0x00 decodes to nothing, what is
fetched does not depend on the cores, and every instruction that has a word goes through `issueN`, which performs nothing
behind a closed guard. -/

namespace Sys2Proof

/-! Opcode 0x00: the map of R43 names no row for it, and it is no first word of two (R28). -/

theorem majorOf_of_op_zero {w : BitVec 32} (h : w.extractLsb' 18 7 = 0) : majorOf w = 0 := by
  rw [majorOf, fld, h]
  rfl

theorem isTwoWord_of_op_zero {w : BitVec 32} (h : w.extractLsb' 18 7 = 0) : isTwoWord w = false := by
  simp [isTwoWord, majorOf_of_op_zero h]

theorem candidate_of_op_zero {w : BitVec 32} (x : BitVec 32) (h : w.extractLsb' 18 7 = 0) : candidate w x = none := by
  unfold candidate
  rw [majorOf_of_op_zero h]
  rfl

theorem decodeWords_of_op_zero {w : BitVec 32} (next : Option (BitVec 32)) (h : w.extractLsb' 18 7 = 0) :
    ∃ r, decodeWords w next = .bad r := by
  unfold decodeWords
  rw [isTwoWord_of_op_zero h, candidate_of_op_zero 0 h]
  cases isExtWord w
  · exact ⟨.unassigned, rfl⟩
  · exact ⟨.extensionFirst, rfl⟩

end Sys2Proof

namespace Sys2Proof.Machine

/-! Fetching, and the trap of an illegal word. -/

theorem State.fetchAt_of_bad {s : State} {ctx : Nat} {pc : BitVec 48} {w : BitVec 32} {r : Reject}
    (hw : s.fetchWord ctx pc.toNat = .ok w) (h1 : isTwoWord w = false) (hd : decodeWords w none = .bad r) :
    s.fetchAt ctx pc = .illegal w := by
  simp [State.fetchAt, hw, h1, hd]

/-- Fetching reads contexts, HBM and its history, and nothing of a core (R41, spec/09_page.md R191 to R193). -/
theorem State.fetchAt_modMe (s : State) (f : Strand → Strand) : (s.modMe f).fetchAt = s.fetchAt := rfl

/-- An illegal word traps ILLEGAL once every earlier S instruction has retired (R46, R86). -/
theorem exec_illegalEncoding_traps {s : State} {w : BitVec 32} (hi : s.strandInstr = some .illegalEncoding)
    (hf : s.fetchMine = .illegal w) (ho : s.me.outs = 0) :
    exec .illegalEncoding s = .next (s.takeTrap 0x01 (w.setWidth 64) 0) := by
  rw [exec_illegalEncoding, execIllegalEncoding, hi, hf]
  simp [ho, zx]

/-- So does an illegal word that carries the extension mark, which the model traps as a failed fetch (R27, R41). -/
theorem exec_fetchFault_traps {s : State} {w : BitVec 32} (hi : s.strandInstr = some .fetchFault)
    (hf : s.fetchMine = .illegal w) (ho : s.me.outs = 0) :
    exec .fetchFault s = .next (s.takeTrap 0x01 (w.setWidth 64) 0) := by
  rw [exec_fetchFault, execFetchFault, hi, hf]
  simp [ho, zx]

/-- Settles O56: opcode 0x00 is one word that decodes to nothing, and a word that decodes to nothing traps. -/
theorem zeroOpcodesAreIllegal : Obligations.ZeroOpcodesAreIllegal := by
  intro w hw
  have hop : w.extractLsb' 18 7 = 0 := by
    rcases hw with rfl | h
    · decide
    · exact h
  refine ⟨fun next => decodeWords_of_op_zero next hop, fun s ctx pc hf => ?_, fun s hf ho => ⟨fun hi => ?_, fun hi => ?_⟩⟩
  · obtain ⟨r, hr⟩ := decodeWords_of_op_zero none hop
    exact State.fetchAt_of_bad hf (isTwoWord_of_op_zero hop) hr
  · exact exec_illegalEncoding_traps hi hf ho
  · exact exec_fetchFault_traps hi hf ho

/-! Every instruction that has a word is issued by the checks of R84. -/

/-- What `i` comes to in `s` is what issuing it there comes to, with some effect and some number of tokens. -/
def IsIssueOf (i : Instr) (s : State) (r : Res) : Prop := ∃ n effect, r = issueN i n s effect

theorem isIssueOf_issueN (i : Instr) (n : Nat) (s : State) (effect : State → Eff) :
    IsIssueOf i s (issueN i n s effect) := ⟨n, effect, rfl⟩

theorem isIssueOf_issue (i : Instr) (s : State) (effect : State → Eff) : IsIssueOf i s (issue i s effect) :=
  isIssueOf_issueN i 1 s effect

theorem isIssueOf_vissue (i : Instr) (a b : BitVec 6) (s : State) : IsIssueOf i s (vissue i a b s) :=
  isIssueOf_issue i s _

theorem isIssueOf_tissue (i : Instr) (a b : BitVec 6) (s : State) : IsIssueOf i s (tissue i a b s) :=
  isIssueOf_issue i s _

/-- One word: `tokpop` takes its tokens by number, and the vector engine's instructions with vector sources share `vissue`. -/
theorem exec_isIssueOf_one {i : Instr} {w : BitVec 32} (s : State) (h : encode i = .one w) :
    IsIssueOf i s (exec i s) := by
  unfold exec
  cases i <;> cases h <;> dsimp only
  case tokpop => exact isIssueOf_issueN _ _ _ _
  case vadd | vsub | vmul | vfma | vfms | vfnma | vmin | vmax | vand | vor | vxor | vsll | vsrl | vsra | vcmp | vcvtTo |
      vcvtFrom | vpack | vunpack | vmov | vperm | vtrn | vredSum | vredMax | vredMin | vredAnd | vredOr | vscanSum |
      vscanMax | vscanMin | vscanAnd | vscanOr | vfnExp2 | vfnLog2 | vfnRcp | vfnRsqrt | vfnSqrt | mand | mor | mnot =>
    exact isIssueOf_vissue _ _ _ _
  all_goals exact isIssueOf_issue _ _ _

/-- Two words: the eight tile commands share `tissue`. -/
theorem exec_isIssueOf_two {i : Instr} {w x : BitVec 32} (s : State) (h : encode i = .two w x) :
    IsIssueOf i s (exec i s) := by
  unfold exec
  cases i <;> cases h <;> dsimp only
  case vsel => exact isIssueOf_vissue _ _ _ _
  case tcfg | wload | wswap | tmma | tmmaZ | tzero | tnorm | tdrain => exact isIssueOf_tissue _ _ _ _
  all_goals exact isIssueOf_issue _ _ _

/-! Behind a closed guard (R85). -/

theorem issueN_guard_closed {i : Instr} {n : Nat} {s : State} {effect : State → Eff} (h0 : s.me.micro.stage = 0)
    (hb : s.me.behind = false) (hg : guardOpen i s.me = false) (hs : syncHeld i s.me = false) :
    issueN i n s effect = .next (skipInstr i s) := by
  simp [issueN, h0, hb, hg, hs]

theorem syncHeld_eq_false {i : Instr} {t : Strand}
    (h : (instrPre i).sy = false ∨ t.inHandler = true ∨ t.released = true) : syncHeld i t = false := by
  rcases h with h | h | h <;> simp [syncHeld, h]

theorem guardedInstructionPerformsNothing : Claims.GuardedInstructionPerformsNothing := by
  intro i s hw h0 hb hg hs
  have hi : IsIssueOf i s (exec i s) := by
    rcases hw with ⟨w, hw⟩ | ⟨w, x, hw⟩
    · exact exec_isIssueOf_one s hw
    · exact exec_isIssueOf_two s hw
  obtain ⟨n, effect, he⟩ := hi
  rw [he]
  exact issueN_guard_closed h0 hb hg (syncHeld_eq_false hs)

/-! What the moving strand is to perform, under other stage guards (R47). -/

/-- The strand with other stage guards. -/
def Strand.withGuards (t : Strand) (sg : BitVec 4) : Strand := { t with sg := sg }

/-- The state in which the moving strand has other stage guards. -/
def State.withGuards (s : State) (sg : BitVec 4) : State := s.modMe (fun t => t.withGuards sg)

section
variable (t : Strand) (sg : BitVec 4)

@[simp] theorem Strand.withGuards_life : (t.withGuards sg).life = t.life := rfl
@[simp] theorem Strand.withGuards_pc : (t.withGuards sg).pc = t.pc := rfl
@[simp] theorem Strand.withGuards_micro : (t.withGuards sg).micro = t.micro := rfl
@[simp] theorem Strand.withGuards_outs : (t.withGuards sg).outs = t.outs := rfl
@[simp] theorem Strand.withGuards_stepping : (t.withGuards sg).stepping = t.stepping := rfl
@[simp] theorem Strand.withGuards_skipBreak : (t.withGuards sg).skipBreak = t.skipBreak := rfl
@[simp] theorem Strand.withGuards_watchHit : (t.withGuards sg).watchHit = t.watchHit := rfl
@[simp] theorem Strand.withGuards_stops : (t.withGuards sg).stops = t.stops := rfl
@[simp] theorem Strand.withGuards_inHandler : (t.withGuards sg).inHandler = t.inHandler := rfl

end

theorem Core.life_strandAt_setStrand {co : Core} {k : Nat} {v : Strand} (h : v.life = (co.strandAt k).life) (j : Nat) :
    ((co.setStrand k v).strandAt j).life = (co.strandAt j).life := by
  by_cases hj : j = k
  · subst hj
    simp [h]
  · rw [Core.strandAt_setStrand_ne co v hj]

/-- To whom a channel's fault goes is a matter of the lives of the core's strands alone (spec/11_copy.md R246). -/
theorem Core.owedChannel_setStrand {co : Core} {k : Nat} {v : Strand} (h : v.life = (co.strandAt k).life) (j : Nat) :
    (co.setStrand k v).owedChannel j = co.owedChannel j := by
  simp only [Core.owedChannel, Core.faultStrand, Core.life_strandAt_setStrand h]
  rfl

section
variable (s : State) (sg : BitVec 4)

@[simp] theorem State.withGuards_me : (s.withGuards sg).me = s.me.withGuards sg := s.me_modMe _
@[simp] theorem State.withGuards_core : (s.withGuards sg).core = s.core := rfl
@[simp] theorem State.withGuards_strand : (s.withGuards sg).strand = s.strand := rfl
@[simp] theorem State.withGuards_myCtx : (s.withGuards sg).myCtx = s.myCtx := s.myCtx_modMe _
@[simp] theorem State.withGuards_ctxAt (n : Nat) : (s.withGuards sg).ctxAt n = s.ctxAt n := rfl
@[simp] theorem State.withGuards_fetchAt : (s.withGuards sg).fetchAt = s.fetchAt := s.fetchAt_modMe _

theorem State.withGuards_myCore : (s.withGuards sg).myCore = s.myCore.setStrand s.strand (s.me.withGuards sg) :=
  s.myCore_modMe _

@[simp] theorem State.withGuards_dbg : (s.withGuards sg).myCore.dbg = s.myCore.dbg := by
  rw [State.withGuards_myCore]
  rfl

@[simp] theorem State.withGuards_myGroup : (s.withGuards sg).myGroup = s.myGroup := by
  rw [State.myGroup, State.withGuards_myCore]
  rfl

@[simp] theorem State.withGuards_fetchMine : (s.withGuards sg).fetchMine = s.fetchMine := by
  simp [State.fetchMine]

@[simp] theorem State.withGuards_copyFaultOwed : (s.withGuards sg).copyFaultOwed = s.copyFaultOwed := by
  rw [State.copyFaultOwed, State.withGuards_myCore, State.withGuards_strand, Core.owedChannel_setStrand]
  · rfl
  · exact Strand.withGuards_life s.me sg

@[simp] theorem State.withGuards_breakpointHere : (s.withGuards sg).breakpointHere = s.breakpointHere := by
  simp [State.breakpointHere, State.atFirstWord]

@[simp] theorem State.withGuards_pcInstr : (s.withGuards sg).pcInstr = s.pcInstr := by
  simp [State.pcInstr]

@[simp] theorem State.withGuards_strandInstr : (s.withGuards sg).strandInstr = s.strandInstr := by
  simp [State.strandInstr]

end

/-- Settles O51: nothing on the way from `PC` to the trap reads the guards, and what has a word goes through `issueN`. -/
theorem guardsDoNotHideIllegalWords : Obligations.GuardsDoNotHideIllegalWords := by
  refine ⟨fun s sg => ?_, guardedInstructionPerformsNothing⟩
  have hfetch : (s.withGuards sg).fetchMine = s.fetchMine := s.withGuards_fetchMine sg
  have hinstr : (s.withGuards sg).strandInstr = s.strandInstr := s.withGuards_strandInstr sg
  refine ⟨hfetch, hinstr, fun w hf hi ho => ?_⟩
  have houts : (s.withGuards sg).me.outs = 0 := by simpa using ho
  exact exec_illegalEncoding_traps (hinstr.trans hi) (hfetch.trans hf) houts

end Sys2Proof.Machine
end

section
/-! PROOF. `binv` (spec/05_strand.md R99): what the fields of a first word read back as, what stands in the way of a
retirement beside the strand's own registers, and what retiring leaves of them. -/

namespace Sys2Proof

/-! The fields of a first word (spec/02_encoding.md R25). -/

section
variable (pre : Pre) (op : BitVec 7) (rest : BitVec 18)

/-- Bit by bit: the operands, the opcode, the guard, the sync bit and the ring bits. -/
theorem getLsbD_firstWord (k : Nat) : (firstWord pre op rest).getLsbD k =
    if k < 18 then rest.getLsbD k else if k < 25 then op.getLsbD (k - 18) else if k < 27 then pre.g.getLsbD (k - 25)
    else if k < 28 then pre.sy else if k < 29 then pre.sn else if k < 30 then pre.sp else if k < 31 then pre.wn
    else decide (k < 32) && pre.wp := by
  unfold firstWord
  -- The word's width is given as 32, not as the sum that rewriting looks for.
  refine (BitVec.getLsbD_append ..).trans ?_
  simp only [BitVec.getLsbD_append, BitVec.getLsbD_ofBool, Nat.sub_eq_zero_iff_le]
  grind

theorem opcode_firstWord : (firstWord pre op rest).extractLsb' 18 7 = op := by
  ext k hk
  simp [getLsbD_firstWord, hk, show 18 + k < 25 by omega]

theorem majorOf_firstWord : majorOf (firstWord pre op rest) = op.toNat := by
  rw [majorOf, fld, opcode_firstWord]

theorem fld_firstWord {lo wd : Nat} (h : lo + wd ≤ 18) :
    fld (firstWord pre op rest) lo wd = rest.extractLsb' lo wd := by
  ext k hk
  simp [fld, getLsbD_firstWord, show lo + k < 18 by omega]

theorem preOf_firstWord : preOf (firstWord pre op rest) = pre := by
  have hg : fld (firstWord pre op rest) 25 2 = pre.g := by
    ext k hk
    simp [fld, getLsbD_firstWord, BitVec.getLsbD_eq_getElem hk,
      show ¬ 25 + k < 18 by omega, show ¬ 25 + k < 25 by omega, show 25 + k < 27 by omega]
  simp only [preOf, hg, getLsbD_firstWord]
  rfl

/-- The extension mark is all four ring bits together (R27). -/
theorem isExtWord_eq_not_ok (w : BitVec 32) : isExtWord w = !(preOf w).ok := by
  have hbits : ∀ v : BitVec 4, (v == 15) = (v.getLsbD 3 && v.getLsbD 2 && v.getLsbD 1 && v.getLsbD 0) := by decide
  rw [isExtWord, hbits]
  simp [fld, preOf, Pre.ok]

theorem isExtWord_firstWord : isExtWord (firstWord pre op rest) = !pre.ok := by
  rw [isExtWord_eq_not_ok, preOf_firstWord]

end

/-! The word of `binv`. -/

theorem isTwoWord_of_majorOf_four {w : BitVec 32} (h : majorOf w = 4) : isTwoWord w = false := by
  simp [isTwoWord, h]

theorem candidate_of_majorOf_four {w : BitVec 32} (x : BitVec 32) (h : majorOf w = 4) :
    candidate w x = some (.binv (preOf w) (fld w 15 3)) := by
  unfold candidate
  rw [h]
  rfl

/-- A legal word of one-word form decodes to its candidate (R46). -/
theorem decodeWords_eq_ok {w : BitVec 32} {i : Instr} (next : Option (BitVec 32)) (hx : isExtWord w = false)
    (h2 : isTwoWord w = false) (hc : candidate w 0 = some i) (hwf : i.wf = true) (he : encode i = .one w) :
    decodeWords w next = .ok i := by
  unfold decodeWords
  rw [hx, h2, hc]
  simp [hwf, he]

theorem decodeWords_binv {pre : Pre} (n : BitVec 3) (h : pre.ok = true) :
    decodeWords (firstWord pre 4#7 (n ++ 0#15)) none = .ok (.binv pre n) := by
  have hm : majorOf (firstWord pre 4#7 (n ++ 0#15)) = 4 := majorOf_firstWord pre 4#7 _
  have hn : fld (firstWord pre 4#7 (n ++ 0#15)) 15 3 = n := by
    rw [fld_firstWord _ _ _ (by decide)]
    exact BitVec.extractLsb'_append_eq_left
  have hc : candidate (firstWord pre 4#7 (n ++ 0#15)) 0 = some (.binv pre n) := by
    rw [candidate_of_majorOf_four 0 hm, preOf_firstWord, hn]
  exact decodeWords_eq_ok none (by simp [isExtWord_firstWord, h]) (isTwoWord_of_majorOf_four hm) hc h rfl

/-- The words of `binv` have bits [14:0] zero, so a word with opcode 0x04 that has one set is none of them (R46). -/
theorem decodeWords_binv_fixedBits {w : BitVec 32} (hop : w.extractLsb' 18 7 = 4) (hz : w.extractLsb' 0 15 ≠ 0) :
    ∃ r, decodeWords w none = .bad r := by
  have hm : majorOf w = 4 := by rw [majorOf, fld, hop]; rfl
  have hne : encode (.binv (preOf w) (fld w 15 3)) ≠ .one w := by
    intro he
    have hw : firstWord (preOf w) 4#7 (fld w 15 3 ++ 0#15) = w := Code.one.inj he
    have hlow : fld (firstWord (preOf w) 4#7 (fld w 15 3 ++ 0#15)) 0 15 = (fld w 15 3 ++ 0#15).extractLsb' 0 15 :=
      fld_firstWord _ _ _ (by decide)
    rw [hw] at hlow
    exact hz (hlow.trans BitVec.extractLsb'_append_eq_right)
  unfold decodeWords
  rw [isTwoWord_of_majorOf_four hm, candidate_of_majorOf_four 0 hm]
  cases isExtWord w with
  | true => exact ⟨.extensionFirst, rfl⟩
  | false =>
    cases hwf : (Instr.binv (preOf w) (fld w 15 3)).wf with
    | true => exact ⟨.reservedField, by simp [hwf, hne]⟩
    | false => exact ⟨.badOperand, by simp [hwf]⟩

/-! Asking every entry of a table but those of one key. -/

section
variable {α : Type} {f : Nat × α → Bool} {k : Nat}

theorem Tbl.any_erase (hf : ∀ v, f (k, v) = false) (t : Tbl α) : (t.erase k).any f = t.any f := by
  induction t with
  | nil => rfl
  | cons e t ih =>
    obtain ⟨k', v⟩ := e
    by_cases h : k = k'
    · subst h
      simp [Tbl.erase, ih, hf]
    · simp [Tbl.erase, h, ih]

theorem Tbl.any_insert (hf : ∀ v, f (k, v) = false) (t : Tbl α) (v : α) : (t.insert k v).any f = t.any f := by
  induction t with
  | nil => simp [Tbl.insert, hf]
  | cons e t ih =>
    obtain ⟨k', v'⟩ := e
    by_cases h : k < k'
    · simp [Tbl.insert, h, hf]
    · simp [Tbl.insert, h, ih]

theorem Tbl.any_set [DecidableEq α] (hf : ∀ v, f (k, v) = false) (d : α) (t : Tbl α) (v : α) :
    (t.set d k v).any f = t.any f := by
  unfold Tbl.set
  split
  · exact Tbl.any_erase hf t
  · rw [Tbl.any_insert hf, Tbl.any_erase hf]

end

end Sys2Proof

namespace Sys2Proof.Machine

/-! Room to retire (R88, R89): of the strand that retires it asks nothing but its place in the order. -/

theorem Core.pushRoom_setStrand (c : Core) (k : Nat) (v : Strand) (i : Instr) :
    (c.setStrand k v).pushRoom k i = c.pushRoom k i := by
  unfold Core.pushRoom
  refine congrArg (fun x => c.pushFree i && !x) ?_
  refine Tbl.any_set (k := k) (fun _ => ?_) {} c.strands v
  simp only [bne_self_eq_false, Bool.false_and]

section
variable (s s' : State)

@[simp] theorem State.issuedIn_core : (s.issuedIn s').core = s'.core := by
  unfold State.issuedIn
  split <;> rfl

@[simp] theorem State.issuedIn_strand : (s.issuedIn s').strand = s'.strand := by
  unfold State.issuedIn
  split <;> rfl

/-- Noting that a strand has issued changes nothing else of its core (spec/16_context.md R342). -/
theorem State.issuedIn_myCore : ∃ l, (s.issuedIn s').myCore = { s'.myCore with issued := l } := by
  unfold State.issuedIn
  split
  · exact ⟨s.strand :: s'.myCore.issued, s'.myCore_modCore _⟩
  · exact ⟨s'.myCore.issued, rfl⟩

theorem State.me_eq (s : State) : s.me = s.myCore.strandAt s.strand := rfl

@[simp] theorem State.issuedIn_me : (s.issuedIn s').me = s'.me := by
  obtain ⟨l, h⟩ := s.issuedIn_myCore s'
  rw [State.me_eq, h, State.issuedIn_strand]
  rfl

@[simp] theorem State.issuedIn_pushRoom (k : Nat) (i : Instr) :
    (s.issuedIn s').myCore.pushRoom k i = s'.myCore.pushRoom k i := by
  obtain ⟨l, h⟩ := s.issuedIn_myCore s'
  rw [h]
  rfl

/-- An effect on the strand's registers alone neither makes room for a retirement nor takes it. -/
theorem State.hasRoom_modMe (i : Instr) {f : Strand → Strand} (hb : (f s'.me).behind = s'.me.behind)
    (ho : (f s'.me).outs = s'.me.outs) : s.hasRoom i (s'.modMe f) = s.hasRoom i s' := by
  simp [State.hasRoom, Core.pushRoom_setStrand, hb, ho]

end

/-! What retiring leaves of a strand: the stops that can come at its boundary change its life, and not where it goes on. -/

/-- Where the strand goes on, and its branch-target registers. -/
def Strand.branching (t : Strand) : BitVec 48 × Tbl Btr := (t.pc, t.b)

section
variable (t : Strand)

@[simp] theorem Strand.live_branching (l : Life) : (t.live l).branching = t.branching := by
  unfold Strand.live
  split <;> rfl

@[simp] theorem Strand.backOff_branching : t.backOff.branching = t.branching := by
  unfold Strand.backOff
  split <;> rfl

@[simp] theorem Strand.stop_branching : t.stop.branching = t.branching := by
  unfold Strand.stop
  split
  case h_5 => exact t.backOff_branching
  all_goals rfl

@[simp] theorem Strand.stopMarked_branching : t.stopMarked.branching = t.branching := Strand.stop_branching _

@[simp] theorem Strand.haltNow_branching : t.haltNow.branching = t.branching := by
  unfold Strand.haltNow
  split <;> rfl

@[simp] theorem Strand.atBoundary_branching : t.atBoundary.branching = t.branching := by
  unfold Strand.atBoundary
  split
  · rfl
  · split
    · rfl
    · split
      · exact t.stopMarked_branching
      · exact t.haltNow_branching

theorem Strand.retire_branching (pc : BitVec 48) : (t.retire pc).branching = (pc, t.b) := by
  rw [Strand.retire, Strand.atBoundary_branching, Strand.live_branching]
  rfl

@[simp] theorem Strand.retire_pc (pc : BitVec 48) : (t.retire pc).pc = pc :=
  congrArg Prod.fst (t.retire_branching pc)

@[simp] theorem Strand.retire_btr (pc : BitVec 48) (k : Nat) : (t.retire pc).btr k = t.btr k :=
  congrArg (fun x => x.2.get {} k) (t.retire_branching pc)

end

/-! The moving strand after its instruction has retired. -/

@[simp] theorem Core.notePush_strands (c : Core) (k : Nat) (i : Instr) : (c.notePush k i).strands = c.strands := by
  unfold Core.notePush
  induction sPushes i generalizing c with
  | nil => rfl
  | cons f l ih => exact ih _

@[simp] theorem Core.push_strands (c : Core) (e : Engine) (p : Pre) (n : Nat) (m : Mark) :
    (c.push e p n m).strands = c.strands := by
  unfold Core.push
  split <;> split <;> rfl

section
variable (i : Instr) (s s' : State) (pc : BitVec 48)

@[simp] theorem pushed_core : (pushed i s).core = s.core := rfl
@[simp] theorem pushed_strand : (pushed i s).strand = s.strand := rfl

/-- Pushing tokens is nothing to a strand. -/
@[simp] theorem pushed_me : (pushed i s).me = s.me := by
  simp [pushed, State.me_eq, Core.strandAt]

@[simp] theorem State.after_core : (s.after i s' pc).core = s'.core := by
  unfold State.after Machine.retired
  split <;> simp

@[simp] theorem State.after_strand : (s.after i s' pc).strand = s'.strand := by
  unfold State.after Machine.retired
  split <;> simp

theorem State.after_me : (s.after i s' pc).me = s'.me.retire pc := by
  unfold State.after Machine.retired
  split <;> simp

theorem State.afterNext_me : (s.afterNext i s').me = s'.me.retire (s.me.pc + instrSize i) :=
  s.after_me i s' _

end

/-! A branch-target register after it is written, and a prefetch that comes too late. -/

@[simp] theorem Strand.setBtr_btr_self (t : Strand) (k : Nat) (b : Btr) : (t.setBtr k b).btr k = b :=
  Tbl.get_set_self _ _ _ _

theorem Strand.setBtr_btr_ne (t : Strand) {j k : Nat} (b : Btr) (h : j ≠ k) : (t.setBtr k b).btr j = t.btr j :=
  Tbl.get_set_ne _ _ _ h

/-- A prefetch whose register is no longer PREPARING has been abandoned (R92, R99). -/
theorem exec_btrPrefetchDone_abandoned {s : State} {c k b : Nat} (h : ((s.strandAt c k).btr b).st ≠ .preparing) :
    exec (.btrPrefetchDone c k b) s = .next s := by
  simp [exec_btrPrefetchDone, execBtrPrefetchDone, h]

/-! The effect of `binv`, and of a transfer through what it leaves. -/

/-- The state in which the effect of `binv` has been performed. -/
def State.invalidated (s : State) (pre : Pre) (n : BitVec 3) : State :=
  (s.granted (.binv pre n) 1).modMe (fun t => t.setBtr n.toNat {})

theorem exec_binv_retires {s : State} {pre : Pre} {n : BitVec 3} (hi : s.issues (.binv pre n) 1 = true)
    (hr : s.hasRoom (.binv pre n) (s.granted (.binv pre n) 1) = true) :
    exec (.binv pre n) s = .next (s.afterNext (.binv pre n) (s.invalidated pre n)) := by
  have hroom : s.hasRoom (.binv pre n) (s.invalidated pre n) = true := by
    rw [← hr]
    exact s.hasRoom_modMe _ _ rfl rfl
  rw [exec_binv]
  exact issue_done _ s _ _ hi rfl hroom

section
variable (s : State) (pre : Pre) (n : BitVec 3)

theorem State.invalidated_btr_self : (s.invalidated pre n).me.btr n.toNat = {} := by
  simp [State.invalidated]

theorem State.invalidated_btr_ne {m : Nat} (h : m ≠ n.toNat) : (s.invalidated pre n).me.btr m = s.me.btr m := by
  simp [State.invalidated, Strand.setBtr_btr_ne _ _ h]

@[simp] theorem State.invalidated_core : (s.invalidated pre n).core = s.core := by
  simp [State.invalidated]

@[simp] theorem State.invalidated_strand : (s.invalidated pre n).strand = s.strand := by
  simp [State.invalidated]

end

/-- A taken transfer outside loops through an EMPTY register comes to a trap UNPREPARED (R100). -/
theorem transfer_through_empty {i : Instr} {s : State} {n : BitVec 3} {p : BitVec 4} {e : BitVec 1} (link : Bool)
    (hp : (s.me.rdP p.toNat).poison = false) (ht : Claims.holds s.me p e = true) (hl : s.me.loops = [])
    (he : (s.me.btr n.toNat).st = .empty) :
    transfer i n p e link s = .trap 0x02 0 0 := by
  have hs : sense (s.me.rdP p.toNat) e = true := ht
  simp [transfer, unlessPoison, hp, hs, hl, he]

/-- A `jmp` or a `call` is issued with the effect of its transfer. -/
theorem exec_of_transferOf {i : Instr} {n : BitVec 3} {p : BitVec 4} {e : BitVec 1} {link : Bool}
    (h : Claims.transferOf i = some (n, p, e, link)) (s : State) :
    instrEngine i = .S ∧ exec i s = issue i s (transfer i n p e link) := by
  unfold Claims.transferOf at h
  split at h <;> cases h
  · exact ⟨rfl, exec_jmp _ _ _ _ s⟩
  · exact ⟨rfl, exec_call _ _ _ _ s⟩

theorem transfer_through_empty_traps {i : Instr} {s : State} {n : BitVec 3} {p : BitVec 4} {e : BitVec 1} {link : Bool}
    (hi : Claims.transferOf i = some (n, p, e, link)) (hs : s.issues i 1 = true)
    (hp : (s.me.rdP p.toNat).poison = false) (ht : Claims.holds s.me p e = true) (hl : s.me.loops = [])
    (he : (s.me.btr n.toNat).st = .empty) : exec i s = .next (s.takeTrap 0x02 0 0) := by
  obtain ⟨hS, hx⟩ := exec_of_transferOf hi s
  have htrap : transfer i n p e link (s.granted i 1) = .trap 0x02 0 0 :=
    transfer_through_empty link (by simpa using hp) (by simpa [Claims.holds] using ht) (by simpa using hl)
      (by simpa using he)
  rw [hx]
  exact issue_trap i s _ _ _ _ hs (s.issues_outs i 1 hs hS) htrap

/-- Settles O2: retiring touches no branch-target register, so `binv` leaves the empty one that its effect wrote. -/
theorem binvEmptiesItsRegister : Obligations.BinvEmptiesItsRegister := by
  refine ⟨fun _ n hok => decodeWords_binv n hok, fun _ hop hz => decodeWords_binv_fixedBits hop hz, fun pre n s hi hr => ?_,
    fun _ _ _ _ _ _ hi hs hp ht hl he => transfer_through_empty_traps hi hs hp ht hl he⟩
  let u : State := s.afterNext (.binv pre n) (s.invalidated pre n)
  have hbtr (m : Nat) : u.me.btr m = (s.invalidated pre n).me.btr m := by simp [u, State.afterNext_me]
  have hself : u.me.btr n.toNat = {} := (hbtr _).trans (s.invalidated_btr_self pre n)
  have hme : u.strandAt s.core s.strand = u.me := by simp [u, State.me, State.afterNext]
  have hprefetch : ((u.strandAt s.core s.strand).btr n.toNat).st ≠ .preparing := by simp [hme, hself]
  exact ⟨u, exec_binv_retires hi hr, by simp [hself], by simp [hself],
    fun m hm => (hbtr m).trans (s.invalidated_btr_ne pre n hm), by simp [u, State.afterNext_me, instrSize],
    exec_btrPrefetchDone_abandoned hprefetch⟩

end Sys2Proof.Machine
end
